-- ==== Sys2Proof/Word.lean ====
section
/-! DEFINITION. The word types of the machine (R3, R12): bits are numbered from 0 at the least significant end. -/

namespace Sys2Proof

/-- A 64-bit register, address or special register (R12). -/
abbrev Word := BitVec 64

/-- One byte of memory (R3). -/
abbrev Byte := BitVec 8

/-- A 512-bit vector body (R12). -/
abbrev VBody := BitVec 512

/-- One of the four sectors of the module (R412). -/
abbrev Sec := Fin 4

end Sys2Proof
end

