-- ==== Sys2Proof/Config.lean ====
section
/-! DEFINITION. What an implementation or the world outside fixes and the specification leaves open: constants without a
body, so that no proof can see their values (log entries 9 and 15 to 18). -/

namespace Sys2Proof.Config

/-- Readings of CYCLE: the n-th free value (R28; log entry 9). -/
opaque cycle : Nat → Word

/-- Which of the moments of its interval a load on the read-only path observes (R124; log entry 11). -/
opaque pick : Nat → Nat

/-- The module's serial number and identity key material (R415, R430; log entry 15). -/
opaque serial : Nat → Byte

/-- The signature that Horizon makes over a message (R430; log entry 15). -/
opaque sign : List Byte → Nat → Byte

/-- Whether a signature over a digest verifies under the key of a kind of image (R427; log entry 15). -/
opaque imageVerifies : Nat → List Byte → List Byte → Bool

/-- Readings of a sector's sensors: temperatures and powers (R425, R437; log entry 16). -/
opaque sensor : Nat → Nat

/-- The self-test of a chiplet passes (R419; log entry 17). -/
opaque selfTest : Nat → Bool

/-- The free value of an element whose result the specification leaves open (log entry 18). -/
opaque freeWord : Nat → Word

/-- What the network's other side answers to a work descriptor: nothing is refused, or the syndrome (R293; log entry
21). -/
opaque netReply : Nat → Option (BitVec 56)

/-- Bytes that the network's other side sends for an RDMA READ, and packet sequence numbers (R293, R434; log entry
21). -/
opaque netByte : Nat → Byte
opaque netSeq : Nat → BitVec 24

/-- Horizon refuses a mailbox command by operator policy (R424; log entry 22). -/
opaque policyDenies : Nat → Bool

/-- A request of a fenced chiplet had passed its link at the fence (R417; log entry 23). -/
opaque fenceAccepts : Nat → Bool

/-- The layout of the PCIe descriptor ring (R435; log entry 24): the offset of the tail word and of the first descriptor
from the base, the number of descriptors, and the offsets of status and read data in a descriptor. -/
opaque pcieTail : Nat
opaque pcieFirst : Nat
opaque pcieSlots : Nat
opaque pcieStatus : Nat
opaque pcieData : Nat

end Sys2Proof.Config
end

