-- ==== Sys2Proof/Syntax.lean ====
section
/-! DEFINITION. The instructions of the machine: one constructor of `Instr` for every row of the opcode table. The
encoded forms carry the fields of their word (R52, R53); `sm` is the sync marker S (R51). The rows without an
encoding are the steps that the machine's other agents take; a constructor of theirs names the step and carries the
choices that the specification leaves free (an order, an arrival, a request from outside). -/

namespace Sys2Proof

/-- The agents that run program instructions (R8, R10): a thread context by sector and sector index, a master core
by sector and sector-local number. -/
inductive Agent where
  | thread (x : Sec) (i : Fin 6144)
  | master (x : Sec) (n : Fin 16)
  deriving DecidableEq, Repr

/-- Condition codes 0 to 7 (R55). -/
inductive Cond where
  | eq | ne | lt | ge | le | gt | ltu | geu
  deriving DecidableEq, Repr

/-- Scopes 0 to 3 (R57). -/
inductive Scope where
  | cl | ch | se | pk
  deriving DecidableEq, Repr

/-- Orders 0 to 3 (R57). -/
inductive Order where
  | rlx | acq | rel | ar
  deriving DecidableEq, Repr

/-- Access sizes 0 to 3 of the M format (R122). -/
inductive Size where
  | b | h | w | d
  deriving DecidableEq, Repr

/-- The ORD field of the M format (R56): relaxed, acquire or release at sector or package scope, read-only path. -/
inductive MOrd where
  | rlx | sector | package | ro
  deriving DecidableEq, Repr

/-- Format tags (R17, R80): codes 0 to 13 and 15; code 14 names nothing. -/
inductive Tag where
  | raw | i8 | u8 | i16 | i32 | i64 | f64 | f32 | bf16 | f16 | e4m3 | e5m2 | e2m1x | b8 | inv
  deriving DecidableEq, Repr

/-- Classes 0 to 12 of `vclass` (R187). -/
inductive VClass where
  | nan | negInf | posInf | negNormal | posNormal | negSub | posSub | negZero | posZero | sNan | inf | zero | signBit
  deriving DecidableEq, Repr

/-- Conversions 0 to 7 of `fcvt` (R134). -/
inductive FcvtKind where
  | f32i32 | f32i64 | i32f32 | i64f32 | f32bf16 | bf16f32 | f32f16 | f16f32
  deriving DecidableEq, Repr

/-- Conversions 0 to 5 of `dcvt` (R137). -/
inductive DcvtKind where
  | f64i64 | i64f64 | f64f32 | f32f64 | f64i32 | i32f64
  deriving DecidableEq, Repr

/-- Sources 0 to 19 of a Cirrus word (R247). -/
inductive Src where
  | c (n : Fin 8) | k (n : Fin 8) | par0 | par1 | nr | nc
  deriving DecidableEq, Repr

/-- Where an ECC event happens (R407, R408). -/
inductive EccSite where
  | dram (x : Sec) (pa : Nat)
  | llc (x : Sec) (asid : Nat) (va : Nat)
  | scratchpad (x : Sec) (cl : Fin 96) (word : Fin 262144)
  | register (x : Sec) (ch : Fin 4)
  /-- A table of Stratus or of a controller. -/
  | table (x : Sec)
  /-- The device of a physical line, at a write-back (R409). -/
  | device (x : Sec) (pa : Nat)
  deriving DecidableEq, Repr

/-- Who meets an error (R408): nobody, an agent at its present instruction with the address that the access names, or a
request of a copy or gather unit. -/
inductive ErrReq where
  | nobody
  | agent (g : Agent) (ea : BitVec 64)
  | request (id : Nat)
  deriving DecidableEq, Repr

/-- A link of the package (R412, R414): a bridge between sectors, or a chiplet, an HBM4E stack or the far tier of a
sector. -/
inductive Link where
  | bridge (b : Fin 6)
  | chiplet (x : Sec) (ch : Fin 4)
  | stack (x : Sec) (n : Fin 6)
  | far (x : Sec)
  deriving DecidableEq, Repr

/-- The result of the one retry of an ECC event (R407); a lasting error has a requester. -/
inductive EccRetry where
  | clean | corrected
  | uncorrectable (req : ErrReq)
  deriving DecidableEq, Repr

/-- A management-port request about chiplets and bridges (R422). -/
inductive FenceRequest where
  | fence (x : Sec) (ch : Fin 4)
  | readmit (x : Sec) (ch : Fin 4) (entry : BitVec 64)
  | bridge (b : Fin 6)
  deriving DecidableEq, Repr

/-- A management-port request about firmware (R422, R427). -/
inductive FirmwareRequest where
  | stage (slot : Nat) (image : List (BitVec 8))
  | verify (slot : Nat)
  | commit (slot : Nat)
  deriving DecidableEq, Repr

/-- An incoming network request (R433, R434): the queue it arrives on, its region key, address, length and data. -/
structure RdmaIn where
  queue : Nat
  key : Nat
  va : Nat
  len : Nat
  data : List (BitVec 8)
  deriving DecidableEq, Repr

/-- An endpoint's DMA access (R435). -/
structure PcieDma where
  va : Nat
  len : Nat
  write : Bool
  data : List (BitVec 8)
  deriving DecidableEq, Repr

/-- The instructions: one constructor per row of the opcode table, in the order of the table. -/
inductive Instr where
  /-- `ADD` (R111). Writes S[A] + S[B] modulo 2^64 to S[D]. -/
  | add (sm : Bool) (d a b : Fin 16)
  /-- `SUB` (R111). Writes S[A] − S[B] to S[D]. -/
  | sub (sm : Bool) (d a b : Fin 16)
  /-- `ADDW` (R111). Writes the sign-extended low 32 bits of the sum to S[D]. -/
  | addw (sm : Bool) (d a b : Fin 16)
  /-- `SUBW` (R111). Writes the sign-extended low 32 bits of the difference to S[D]. -/
  | subw (sm : Bool) (d a b : Fin 16)
  /-- `AND` (R111). Bitwise and of two s registers. -/
  | and (sm : Bool) (d a b : Fin 16)
  /-- `OR` (R111). Bitwise or of two s registers. -/
  | or (sm : Bool) (d a b : Fin 16)
  /-- `XOR` (R111). Bitwise exclusive or of two s registers. -/
  | xor (sm : Bool) (d a b : Fin 16)
  /-- `ANDN` (R111). Writes S[A] and not S[B]. -/
  | andn (sm : Bool) (d a b : Fin 16)
  /-- `SHL` (R111). Shifts S[A] left by S[B][5:0]. -/
  | shl (sm : Bool) (d a b : Fin 16)
  /-- `SHR` (R111). Logical right shift by S[B][5:0]. -/
  | shr (sm : Bool) (d a b : Fin 16)
  /-- `SAR` (R111). Arithmetic right shift by S[B][5:0]. -/
  | sar (sm : Bool) (d a b : Fin 16)
  /-- `MIN` (R111). Signed minimum. -/
  | min (sm : Bool) (d a b : Fin 16)
  /-- `MAX` (R111). Signed maximum. -/
  | max (sm : Bool) (d a b : Fin 16)
  /-- `MINU` (R111). Unsigned minimum. -/
  | minu (sm : Bool) (d a b : Fin 16)
  /-- `MAXU` (R111). Unsigned maximum. -/
  | maxu (sm : Bool) (d a b : Fin 16)
  /-- `ABS` (R111). Absolute value of S[A], with the most negative value unchanged. -/
  | abs (sm : Bool) (d a : Fin 16)
  /-- `NEG` (R111). Writes 0 − S[A]. -/
  | neg (sm : Bool) (d a : Fin 16)
  /-- `MOV` (R111). Copies S[A] to S[D]. -/
  | mov (sm : Bool) (d a : Fin 16)
  /-- `SH1ADD` (R111). Writes (S[A] << 1) + S[B]. -/
  | sh1add (sm : Bool) (d a b : Fin 16)
  /-- `SH2ADD` (R111). Writes (S[A] << 2) + S[B]. -/
  | sh2add (sm : Bool) (d a b : Fin 16)
  /-- `SH3ADD` (R111). Writes (S[A] << 3) + S[B]. -/
  | sh3add (sm : Bool) (d a b : Fin 16)
  /-- `ADDI` (R112). Adds a sign-extended or chained immediate to S[A]. -/
  | addi (sm : Bool) (d a : Fin 16) (i : BitVec 17)
  /-- `ANDI` (R112). Ands S[A] with a zero-extended or chained immediate. -/
  | andi (sm : Bool) (d a : Fin 16) (i : BitVec 17)
  /-- `ORI` (R112). Ors S[A] with an immediate. -/
  | ori (sm : Bool) (d a : Fin 16) (i : BitVec 17)
  /-- `XORI` (R112). Exclusive-ors S[A] with an immediate. -/
  | xori (sm : Bool) (d a : Fin 16) (i : BitVec 17)
  /-- `LDI` (R112). Loads a sign-extended or chained immediate into S[D]. -/
  | ldi (sm : Bool) (d : Fin 16) (i : BitVec 17)
  /-- `SHLI` (R113). Shifts S[A] left by an immediate amount. -/
  | shli (sm : Bool) (d a : Fin 16) (n : BitVec 6)
  /-- `SHRI` (R113). Logical right shift by an immediate amount. -/
  | shri (sm : Bool) (d a : Fin 16) (n : BitVec 6)
  /-- `SARI` (R113). Arithmetic right shift by an immediate amount. -/
  | sari (sm : Bool) (d a : Fin 16) (n : BitVec 6)
  /-- `CMPI` (R114). Sets a predicate from a comparison of S[A] with an immediate. -/
  | cmpi (sm : Bool) (p : Fin 8) (c : Cond) (a : Fin 16) (i : BitVec 15)
  /-- `MUL` (R115). Low 64 bits of the product. -/
  | mul (sm : Bool) (d a b : Fin 16)
  /-- `MULH` (R115). High 64 bits of the signed product. -/
  | mulh (sm : Bool) (d a b : Fin 16)
  /-- `MULHU` (R115). High 64 bits of the unsigned product. -/
  | mulhu (sm : Bool) (d a b : Fin 16)
  /-- `MULW` (R115). Sign-extended low 32 bits of the 32-bit product. -/
  | mulw (sm : Bool) (d a b : Fin 16)
  /-- `DIV` (R116). Signed quotient, with defined results for division by zero and overflow. -/
  | div (sm : Bool) (d a b : Fin 16)
  /-- `DIVU` (R116). Unsigned quotient. -/
  | divu (sm : Bool) (d a b : Fin 16)
  /-- `REM` (R116). Signed remainder. -/
  | rem (sm : Bool) (d a b : Fin 16)
  /-- `REMU` (R116). Unsigned remainder. -/
  | remu (sm : Bool) (d a b : Fin 16)
  /-- `CLZ` (R117). Counts leading zero bits. -/
  | clz (sm : Bool) (d a : Fin 16)
  /-- `CTZ` (R117). Counts trailing zero bits. -/
  | ctz (sm : Bool) (d a : Fin 16)
  /-- `POPC` (R117). Counts one bits. -/
  | popc (sm : Bool) (d a : Fin 16)
  /-- `BSWAP` (R117). Reverses the bytes of S[A]. -/
  | bswap (sm : Bool) (d a : Fin 16)
  /-- `BFX` (R118). Extracts a sign-extended bit field. -/
  | bfx (sm : Bool) (d a b : Fin 16)
  /-- `BFXU` (R118). Extracts a zero-extended bit field. -/
  | bfxu (sm : Bool) (d a b : Fin 16)
  /-- `BFI` (R118). Inserts a bit field of S[A] into S[D]. -/
  | bfi (sm : Bool) (d a b : Fin 16)
  /-- `CMP` (R119). Sets a predicate from a comparison of two s registers. -/
  | cmp (sm : Bool) (d : Fin 8) (a b : Fin 16) (c : Cond)
  /-- `TEST` (R119). Sets a predicate from whether S[A] and S[B] is zero. -/
  | test (sm : Bool) (d : Fin 8) (a b : Fin 16) (c : Bool)
  /-- `SEL` (R120). Selects S[A] or S[B] by a predicate. -/
  | sel (sm : Bool) (d a b : Fin 16) (k : Fin 8)
  /-- `PAND` (R120). Predicate and. -/
  | pand (sm : Bool) (d a b : Fin 8)
  /-- `POR` (R120). Predicate or. -/
  | por (sm : Bool) (d a b : Fin 8)
  /-- `PXOR` (R120). Predicate exclusive or. -/
  | pxor (sm : Bool) (d a b : Fin 8)
  /-- `PNOT` (R120). Predicate not. -/
  | pnot (sm : Bool) (d a : Fin 8)
  /-- `PGET` (R120). Packs the predicates into S[D]. -/
  | pget (sm : Bool) (d : Fin 16)
  /-- `PSET` (R120). Sets p1 to p7 from S[A]. -/
  | pset (sm : Bool) (a : Fin 16)
  /-- `LD` (R123). Loads n bytes with order and scope into S[D]. -/
  | ld (sm : Bool) (d a : Fin 16) (z : Size) (x : Bool) (o : MOrd) (f : BitVec 12)
  /-- `ST` (R123). Stores the low n bytes of S[D], as a push or deposit where the address says so. -/
  | st (sm : Bool) (d a : Fin 16) (z : Size) (o : MOrd) (f : BitVec 12)
  /-- `AADD` (R143). Atomic add at the home, returning the old value. -/
  | aadd (sm : Bool) (d a b : Fin 16) (c : Scope) (o : Order) (z : Bool)
  /-- `AAND` (R143). Atomic and at the home. -/
  | aand (sm : Bool) (d a b : Fin 16) (c : Scope) (o : Order) (z : Bool)
  /-- `AOR` (R143). Atomic or at the home. -/
  | aor (sm : Bool) (d a b : Fin 16) (c : Scope) (o : Order) (z : Bool)
  /-- `AXOR` (R143). Atomic exclusive or at the home. -/
  | axor (sm : Bool) (d a b : Fin 16) (c : Scope) (o : Order) (z : Bool)
  /-- `AMIN` (R143). Atomic signed minimum. -/
  | amin (sm : Bool) (d a b : Fin 16) (c : Scope) (o : Order) (z : Bool)
  /-- `AMAX` (R143). Atomic signed maximum. -/
  | amax (sm : Bool) (d a b : Fin 16) (c : Scope) (o : Order) (z : Bool)
  /-- `AMINU` (R143). Atomic unsigned minimum. -/
  | aminu (sm : Bool) (d a b : Fin 16) (c : Scope) (o : Order) (z : Bool)
  /-- `AMAXU` (R143). Atomic unsigned maximum. -/
  | amaxu (sm : Bool) (d a b : Fin 16) (c : Scope) (o : Order) (z : Bool)
  /-- `ASWP` (R143). Atomic swap. -/
  | aswp (sm : Bool) (d a b : Fin 16) (c : Scope) (o : Order) (z : Bool)
  /-- `ACAS` (R143). Atomic compare and swap with the pair sB:sB+1. -/
  | acas (sm : Bool) (d a b : Fin 16) (c : Scope) (o : Order) (z : Bool)
  /-- `AINCB` (R145). Bounded atomic increment used for admission. -/
  | aincb (sm : Bool) (d a b : Fin 16) (c : Scope) (o : Order) (z : Bool)
  /-- `AFADD` (R106). Atomic FP32 add with one RNE rounding at the bank. -/
  | afadd (sm : Bool) (d a b : Fin 16) (c : Scope) (o : Order)
  /-- `AFMAX` (R106). Atomic FP32 maximum at the bank. -/
  | afmax (sm : Bool) (d a b : Fin 16) (c : Scope) (o : Order)
  /-- `LDFE` (R146). Parks until the scratchpad word is full, reads it and empties it. -/
  | ldfe (sm : Bool) (d a : Fin 16)
  /-- `LDFF` (R146). Parks until the word is full and reads it, leaving it full. -/
  | ldff (sm : Bool) (d a : Fin 16)
  /-- `STFE` (R146). Parks until the word is empty, writes it and makes it full. -/
  | stfe (sm : Bool) (d a : Fin 16)
  /-- `STEF` (R146). Writes the word and makes it full without waiting. -/
  | stef (sm : Bool) (d a : Fin 16)
  /-- `FEN` (R146). Empties the selected words of a 512-byte group. -/
  | fen (sm : Bool) (a b : Fin 16)
  /-- `FSTAT` (R146). Reads the full bits of a 512-byte group. -/
  | fstat (sm : Bool) (d a : Fin 16)
  /-- `REMP` (R149). Waits for outstanding writes to S[D], then makes it empty. -/
  | remp (sm : Bool) (d : Fin 16)
  /-- `BP` (R127). Branches if the predicate is true. -/
  | bp (sm : Bool) (p : Fin 8) (f : BitVec 18)
  /-- `BNP` (R127). Branches if the predicate is false. -/
  | bnp (sm : Bool) (p : Fin 8) (f : BitVec 18)
  /-- `BZ` (R127). Branches if the s register is zero. -/
  | bz (sm : Bool) (k : Fin 16) (f : BitVec 18)
  /-- `BNZ` (R127). Branches if the s register is not zero. -/
  | bnz (sm : Bool) (k : Fin 16) (f : BitVec 18)
  /-- `DBNZ` (R127). Decrements the register and branches if the result is not zero. -/
  | dbnz (sm : Bool) (k : Fin 16) (f : BitVec 18)
  /-- `J` (R128). Jumps by a word offset. -/
  | j (sm : Bool) (f : BitVec 25)
  /-- `JAL` (R128). Writes the link to s15 and jumps. -/
  | jal (sm : Bool) (f : BitVec 25)
  /-- `JR` (R129). Jumps to S[A]. -/
  | jr (sm : Bool) (a : Fin 16)
  /-- `JALR` (R129). Writes the link to s15 and jumps to S[A]. -/
  | jalr (sm : Bool) (a : Fin 16)
  /-- `SPAWN` (R152). Reads and checks a spawn record, takes a pool entry and an index, and returns the handle.
  -/
  | spawn (sm : Bool) (d a : Fin 16)
  /-- `SPAWNN` (R152). Creates a nested spawn instance from a thread context. -/
  | spawnn (sm : Bool) (d a : Fin 16)
  /-- `JOIN` (R154). Parks until the instance ends, then returns its status and frees its index. -/
  | join (sm : Bool) (d a : Fin 16)
  /-- `JTEST` (R154). Returns the instance's final status, or RUNNING without parking. -/
  | jtest (sm : Bool) (d a : Fin 16)
  /-- `SPABORT` (R155). Aborts an instance and its descendants. -/
  | spabort (sm : Bool) (a : Fin 16)
  /-- `TRES` (R156). Resumes a context parked on a fault, re-executing or skipping the faulting instruction. -/
  | tres (sm : Bool) (d a b : Fin 16) (k : Bool)
  /-- `PSM` (R157). Prefix-sum request that adds S[A] to a Zenith register and returns the old value. -/
  | psm (sm : Bool) (d a z : Fin 16) (o : Order)
  /-- `PSMB` (R157). Bounded prefix sum that adds only within a limit and sets a predicate. -/
  | psmb (sm : Bool) (d a z : Fin 16) (k : Fin 8) (o : Order)
  /-- `ZSET` (R157). Sets a Zenith register. -/
  | zset (sm : Bool) (a z : Fin 16) (o : Order)
  /-- `ZGET` (R157). Reads a Zenith register. -/
  | zget (sm : Bool) (d z : Fin 16) (o : Order)
  /-- `DONE` (R163). Ends the vt, releases its bindings and draws the next number at the home slot. -/
  | done (sm : Bool)
  /-- `YIELD` (R164). Ends an extension migration and in mode Y gives up the issue slot. -/
  | yield (sm : Bool)
  /-- `GO` (R165). Migrates the context to a given cluster. -/
  | go (sm : Bool) (a : Fin 16)
  /-- `GOH` (R165). Migrates the context to the cluster that holds a scratchpad-window address. -/
  | goh (sm : Bool) (a : Fin 16)
  /-- `GOHOME` (R165). Migrates the context back to its home cluster. -/
  | gohome (sm : Bool)
  /-- `SLEEP` (R168). Parks under a bank watch while a word holds the expected value. -/
  | sleep (sm : Bool) (a b : Fin 16)
  /-- `FENCE` (R169). Orders earlier accesses against later ones by order and scope. -/
  | fence (sm : Bool) (c : Scope) (o : Order)
  /-- `FPUSH` (R170). Divides the context's pushes so that later pushes to a cluster wait for earlier ones. -/
  | fpush (sm : Bool)
  /-- `FWAIT` (R169). Stalls issue until every issued store, push, deposit and atomic is accepted. -/
  | fwait (sm : Bool)
  /-- `XBEG` (R172). Begins or nests a hardware transaction. -/
  | xbeg (sm : Bool) (d : Fin 16)
  /-- `XCOM` (R172). Commits the transaction atomically at depth zero. -/
  | xcom (sm : Bool)
  /-- `XABT` (R172). Aborts the transaction with cause EXPLICIT. -/
  | xabt (sm : Bool) (a : Fin 16)
  /-- `VADD` (R181). Lane-wise vector add. -/
  | vadd (sm : Bool) (d a b : Fin 16) (m : Fin 8) (x : Bool)
  /-- `VSUB` (R181). Lane-wise vector subtract. -/
  | vsub (sm : Bool) (d a b : Fin 16) (m : Fin 8) (x : Bool)
  /-- `VMUL` (R181). Lane-wise vector multiply. -/
  | vmul (sm : Bool) (d a b : Fin 16) (m : Fin 8) (x : Bool)
  /-- `VMULH` (R181). High half of lane-wise integer products. -/
  | vmulh (sm : Bool) (d a b : Fin 16) (m : Fin 8) (x : Bool)
  /-- `VMIN` (R181). Lane-wise minimum. -/
  | vmin (sm : Bool) (d a b : Fin 16) (m : Fin 8) (x : Bool)
  /-- `VMAX` (R181). Lane-wise maximum. -/
  | vmax (sm : Bool) (d a b : Fin 16) (m : Fin 8) (x : Bool)
  /-- `VABS` (R181). Lane-wise absolute value. -/
  | vabs (sm : Bool) (d a : Fin 16) (m : Fin 8)
  /-- `VNEG` (R181). Lane-wise negation. -/
  | vneg (sm : Bool) (d a : Fin 16) (m : Fin 8)
  /-- `VADDSAT` (R181). Saturating integer add. -/
  | vaddsat (sm : Bool) (d a b : Fin 16) (m : Fin 8) (x : Bool)
  /-- `VSUBSAT` (R181). Saturating integer subtract. -/
  | vsubsat (sm : Bool) (d a b : Fin 16) (m : Fin 8) (x : Bool)
  /-- `VSQRT` (R181). Lane-wise square root. -/
  | vsqrt (sm : Bool) (d a : Fin 16) (m : Fin 8)
  /-- `VRCP` (R182). Lane-wise reciprocal, rounded once. -/
  | vrcp (sm : Bool) (d a : Fin 16) (m : Fin 8)
  /-- `VRSQ` (R182). Lane-wise reciprocal square root. -/
  | vrsq (sm : Bool) (d a : Fin 16) (m : Fin 8)
  /-- `VEXP2` (R182). Lane-wise power of two. -/
  | vexp2 (sm : Bool) (d a : Fin 16) (m : Fin 8)
  /-- `VAND` (R183). Tag-agnostic bitwise and over 64-bit lanes. -/
  | vand (sm : Bool) (d a b : Fin 16) (m : Fin 8) (x : Bool)
  /-- `VOR` (R183). Tag-agnostic bitwise or. -/
  | vor (sm : Bool) (d a b : Fin 16) (m : Fin 8) (x : Bool)
  /-- `VXOR` (R183). Tag-agnostic bitwise exclusive or. -/
  | vxor (sm : Bool) (d a b : Fin 16) (m : Fin 8) (x : Bool)
  /-- `VANDN` (R183). Tag-agnostic and-not. -/
  | vandn (sm : Bool) (d a b : Fin 16) (m : Fin 8) (x : Bool)
  /-- `VSHL` (R183). Lane-wise integer left shift. -/
  | vshl (sm : Bool) (d a b : Fin 16) (m : Fin 8) (x : Bool)
  /-- `VSHR` (R183). Lane-wise logical right shift. -/
  | vshr (sm : Bool) (d a b : Fin 16) (m : Fin 8) (x : Bool)
  /-- `VSAR` (R183). Lane-wise arithmetic right shift. -/
  | vsar (sm : Bool) (d a b : Fin 16) (m : Fin 8) (x : Bool)
  /-- `VCLZ` (R183). Lane-wise leading-zero count. -/
  | vclz (sm : Bool) (d a : Fin 16) (m : Fin 8)
  /-- `VPOPC` (R183). Lane-wise population count. -/
  | vpopc (sm : Bool) (d a : Fin 16) (m : Fin 8)
  /-- `VFMA` (R184). Fused multiply-add with VD as addend. -/
  | vfma (sm : Bool) (d a b : Fin 16) (m : Fin 8)
  /-- `VFMS` (R184). Fused multiply-subtract. -/
  | vfms (sm : Bool) (d a b : Fin 16) (m : Fin 8)
  /-- `VFNMA` (R184). Negated fused multiply-add. -/
  | vfnma (sm : Bool) (d a b : Fin 16) (m : Fin 8)
  /-- `VFNMS` (R184). Negated fused multiply-subtract. -/
  | vfnms (sm : Bool) (d a b : Fin 16) (m : Fin 8)
  /-- `VDOT2` (R185). Adds exact pair dot products into 16 lanes. -/
  | vdot2 (sm : Bool) (d a b : Fin 16) (m : Fin 8)
  /-- `VDOT4` (R185). Adds exact quad dot products into 16 lanes. -/
  | vdot4 (sm : Bool) (d a b : Fin 16) (m : Fin 8)
  /-- `VCMP` (R186). Writes a mask from a lane-wise comparison. -/
  | vcmp (sm : Bool) (d : Fin 8) (a b : Fin 16) (m : Fin 8) (x : Bool) (c : Cond)
  /-- `VCLASS` (R187). Writes a mask of lanes in a floating-point class. -/
  | vclass (sm : Bool) (d : Fin 8) (a : Fin 16) (m : Fin 8) (k : VClass)
  /-- `VSEL` (R188). Selects lanes from VA or VB by a selector mask. -/
  | vsel (sm : Bool) (d a b : Fin 16) (k : Fin 8)
  /-- `MAND` (R189). Mask and. -/
  | mand (sm : Bool) (d a b : Fin 8)
  /-- `MOR` (R189). Mask or. -/
  | mor (sm : Bool) (d a b : Fin 8)
  /-- `MNOT` (R189). Mask not. -/
  | mnot (sm : Bool) (d a : Fin 8)
  /-- `MCOUNT` (R189). Counts the ones of a mask into S[D]. -/
  | mcount (sm : Bool) (d : Fin 16) (a : Fin 8)
  /-- `MFIRST` (R189). Writes the index of the lowest set mask bit. -/
  | mfirst (sm : Bool) (d : Fin 16) (a : Fin 8)
  /-- `VBCAST` (R190). Broadcasts S[A] to the active lanes with a given tag. -/
  | vbcast (sm : Bool) (d a : Fin 16) (m : Fin 8) (t : Tag)
  /-- `VINS` (R190). Inserts S[A] into lane S[B]. -/
  | vins (sm : Bool) (d a b : Fin 16)
  /-- `VEXT` (R190). Extracts lane S[B] to S[D]. -/
  | vext (sm : Bool) (d a b : Fin 16)
  /-- `VPERM` (R191). Permutes lanes of VA by indices in VB. -/
  | vperm (sm : Bool) (d a b : Fin 16) (m : Fin 8)
  /-- `VCOMPRESS` (R192). Packs the selected lanes to the bottom. -/
  | vcompress (sm : Bool) (d a : Fin 16) (m : Fin 8)
  /-- `VEXPAND` (R192). Spreads low lanes into the selected lanes. -/
  | vexpand (sm : Bool) (d a : Fin 16) (m : Fin 8)
  /-- `VREDADD` (R193). Sums the active lanes into an s register. -/
  | vredadd (sm : Bool) (d a : Fin 16) (m : Fin 8)
  /-- `VREDMAX` (R193). Maximum of the active lanes. -/
  | vredmax (sm : Bool) (d a : Fin 16) (m : Fin 8)
  /-- `VREDMIN` (R193). Minimum of the active lanes. -/
  | vredmin (sm : Bool) (d a : Fin 16) (m : Fin 8)
  /-- `VSCAN` (R194). Inclusive or exclusive prefix sum over active lanes. -/
  | vscan (sm : Bool) (d a : Fin 16) (m : Fin 8) (x : Bool)
  /-- `VCVT` (R195). Converts lanes to another format by part. -/
  | vcvt (sm : Bool) (d a : Fin 16) (p m : Fin 8) (f : Tag)
  /-- `VQUANT` (R196). Quantises 32 values into one E2M1X or B8 block. -/
  | vquant (sm : Bool) (d a : Fin 16) (p : Fin 4) (f : Bool)
  /-- `VDEQUANT` (R197). Expands block-format elements to full values. -/
  | vdequant (sm : Bool) (d a : Fin 16) (p m : Fin 8) (f : Tag)
  /-- `VTAG` (R198). Copies a vector and sets its tag, or voids it. -/
  | vtag (sm : Bool) (d a : Fin 16) (t : Tag)
  /-- `VSEED` (R199). Fills INT32 lanes from the stochastic-rounding generator. -/
  | vseed (sm : Bool) (d : Fin 16) (m : Fin 8)
  /-- `VLD` (R201). Loads a vector and sets its tag. -/
  | vld (sm : Bool) (d a : Fin 16) (m : Fin 8) (f : Tag) (o : BitVec 7)
  /-- `VST` (R201). Stores a vector. -/
  | vst (sm : Bool) (d a : Fin 16) (m : Fin 8) (f : Tag) (o : BitVec 7)
  /-- `VLDBC` (R200). Loads one element and copies it to every active lane. -/
  | vldbc (sm : Bool) (d a : Fin 16) (m : Fin 8) (f : Tag) (o : BitVec 7)
  /-- `VLDS` (R200). Strided vector load. -/
  | vlds (sm : Bool) (d a : Fin 16) (m : Fin 8) (f : Tag) (o : BitVec 7)
  /-- `VSTS` (R200). Strided vector store. -/
  | vsts (sm : Bool) (d a : Fin 16) (m : Fin 8) (f : Tag) (o : BitVec 7)
  /-- `VGAT` (R205). Gathers lanes from a base plus indices. -/
  | vgat (sm : Bool) (d a b : Fin 16) (m : Fin 8) (t : Tag)
  /-- `VSCT` (R205). Scatters lanes to a base plus indices. -/
  | vsct (sm : Bool) (d a b : Fin 16) (m : Fin 8)
  /-- `VSCTADD` (R205). Scatter-adds lanes as bank atomics. -/
  | vsctadd (sm : Bool) (d a b : Fin 16) (m : Fin 8)
  /-- `HSIFT` (R207). Inserts a (score, index) pair into a top-k min-heap. -/
  | hsift (sm : Bool) (d a b k : Fin 16)
  /-- `TSTEP` (R209). Takes one decision-tree step and absorbs it into a bound digest. -/
  | tstep (sm : Bool) (d a b : Fin 16) (p : Fin 8)
  /-- `DGI` (R211). Binds a digest slot, fresh or re-attached. -/
  | dgi (sm : Bool) (d a : Fin 16) (r : Bool)
  /-- `DGA` (R212). Absorbs n bytes of S[A] into the bound digest. -/
  | dga (sm : Bool) (a : Fin 16) (n : Fin 8)
  /-- `DGO` (R212). Finishes SHAKE256 into VD and latches the seal identifier. -/
  | dgo (sm : Bool) (d : Fin 16) (r : Bool)
  /-- `DGLOG` (R213). Appends a 64-byte record to the sector's digest log. -/
  | dglog (sm : Bool) (a b : Fin 16)
  /-- `MXCFG` (R223). Waits for the context's commands, then sets the matrix configuration. -/
  | mxcfg (sm : Bool) (a : Fin 16) (x : Bool)
  /-- `MXZERO` (R229). Makes an accumulator not live. -/
  | mxzero (sm : Bool) (d : Fin 16) (n : Bool)
  /-- `MXREL` (R228). Waits for commands, then releases both accumulators and the binding. -/
  | mxrel (sm : Bool)
  /-- `MXSAVE` (R229). Stores the 64 KiB of an accumulator. -/
  | mxsave (sm : Bool) (d a : Fin 16) (n : Bool)
  /-- `MXREST` (R229). Loads an accumulator back and makes it live. -/
  | mxrest (sm : Bool) (d a : Fin 16) (n : Bool)
  /-- `MXMM` (R231). Dense matrix multiply into an accumulator. -/
  | mxmm (sm : Bool) (d a b : Fin 16) (q : Fin 4) (p z n : Bool)
  /-- `MXMMG` (R230). Multiply with A rows gathered by an index list. -/
  | mxmmg (sm : Bool) (d a b : Fin 16) (q : Fin 4) (p z n : Bool)
  /-- `MXMMS` (R231). Multiply with B described by a shape record. -/
  | mxmms (sm : Bool) (d a b : Fin 16) (q : Fin 4) (p z n : Bool)
  /-- `MXMMGS` (R231). Gathered A with shape-record B. -/
  | mxmmgs (sm : Bool) (d a b : Fin 16) (q : Fin 4) (p z n : Bool)
  /-- `MXST` (R233). Converts and stores accumulator rows. -/
  | mxst (sm : Bool) (d a : Fin 16) (f : BitVec 4) (q : Fin 4) (p n : Bool)
  /-- `MXSTQ` (R233). Quantises accumulator rows into block format. -/
  | mxstq (sm : Bool) (d a : Fin 16) (f : BitVec 4) (q : Fin 4) (p n : Bool)
  /-- `MXSCALE` (R234). Scales accumulator rows by FP32 factors. -/
  | mxscale (sm : Bool) (d a : Fin 16) (q : Fin 4) (p n : Bool)
  /-- `QSET` (R240). Sets one tile-predicate bit. -/
  | qset (sm : Bool) (d : Fin 4) (a : Fin 16)
  /-- `QCLR` (R240). Clears one tile-predicate bit. -/
  | qclr (sm : Bool) (d : Fin 4) (a : Fin 16)
  /-- `QLD` (R240). Loads a tile-predicate register. -/
  | qld (sm : Bool) (d : Fin 4) (a : Fin 16)
  /-- `QST` (R240). Stores a tile-predicate register. -/
  | qst (sm : Bool) (d : Fin 4) (a : Fin 16)
  /-- `QTEST` (R240). Copies a tile-predicate bit into a predicate. -/
  | qtest (sm : Bool) (d : Fin 8) (a : Fin 4) (b : Fin 16)
  /-- `PGLD` (R260). Loads and checks a pattern program image into a Cirrus slot and binds it. -/
  | pgld (sm : Bool) (d a b : Fin 16) (r : Bool)
  /-- `PGSET` (R261). Writes a slot parameter. -/
  | pgset (sm : Bool) (a b : Fin 16)
  /-- `PGRUN` (R262). Queued command that lists a pattern's blocks into the scratchpad. -/
  | pgrun (sm : Bool) (d a b : Fin 16)
  /-- `PGREL` (R263). Waits, then frees the bound Cirrus slot. -/
  | pgrel (sm : Bool)
  /-- `PGINV` (R264). Queries the position of one block by the inverse section. -/
  | pginv (sm : Bool) (d a : Fin 16)
  /-- `CSET_REG` (R248). Cirrus: sets a counter from a source. -/
  | csetReg (d : Fin 8) (a : Src)
  /-- `CSET_IMM` (R248). Cirrus: sets a counter from an immediate. -/
  | csetImm (d : Fin 8) (i : BitVec 17)
  /-- `CADD_REG` (R248). Cirrus: adds or subtracts a source. -/
  | caddReg (d : Fin 8) (a : Src) (n : Bool) (b : Src)
  /-- `CADD_IMM` (R248). Cirrus: adds or subtracts an immediate. -/
  | caddImm (d : Fin 8) (a : Src) (n : Bool) (i : BitVec 17)
  /-- `CMUL_REG` (R248). Cirrus: low 32 bits of a product. -/
  | cmulReg (d : Fin 8) (a b : Src)
  /-- `CMUL_IMM` (R248). Cirrus: product with an immediate. -/
  | cmulImm (d : Fin 8) (a : Src) (i : BitVec 17)
  /-- `CDIV_REG` (R248). Cirrus: quotient; zero divisor ends with PAT ILL. -/
  | cdivReg (d : Fin 8) (a b : Src)
  /-- `CDIV_IMM` (R248). Cirrus: quotient by an immediate. -/
  | cdivImm (d : Fin 8) (a : Src) (i : BitVec 17)
  /-- `CMOD_REG` (R248). Cirrus: remainder. -/
  | cmodReg (d : Fin 8) (a b : Src)
  /-- `CMOD_IMM` (R248). Cirrus: remainder by an immediate. -/
  | cmodImm (d : Fin 8) (a : Src) (i : BitVec 17)
  /-- `CHASH_REG` (R248). Cirrus: hash of two values. -/
  | chashReg (d : Fin 8) (a b : Src)
  /-- `CHASH_IMM` (R248). Cirrus: hash with an immediate. -/
  | chashImm (d : Fin 8) (a : Src) (i : BitVec 17)
  /-- `CBR` (R248). Cirrus: conditional branch within a section. -/
  | cbr (c : Cond) (a b : Src) (f : BitVec 14)
  /-- `CLOOP` (R248). Cirrus: increments a counter and loops while below a bound. -/
  | cloop (d : Fin 8) (a : Src) (f : BitVec 14)
  /-- `CNEXT_REG` (R248). Cirrus: first term of a progression at or above c1. -/
  | cnextReg (d : Fin 8) (a b : Src)
  /-- `CNEXT_IMM` (R248). Cirrus: progression with an immediate step. -/
  | cnextImm (d : Fin 8) (a : Src) (i : BitVec 17)
  /-- `CEMIT_REG` (R248). Cirrus: emits one block column at a position. -/
  | cemitReg (d : Fin 8) (a : Src)
  /-- `CEMIT_IMM` (R248). Cirrus: emits an immediate column. -/
  | cemitImm (d : Fin 8) (i : BitVec 17)
  /-- `CRUN_REG` (R248). Cirrus: emits a run of adjacent columns. -/
  | crunReg (d : Fin 8) (a b : Src)
  /-- `CRUN_IMM` (R248). Cirrus: emits a run ending at an immediate. -/
  | crunImm (d : Fin 8) (a : Src) (i : BitVec 17)
  /-- `CKRON_REG` (R248). Cirrus: quotient and remainder into two counters. -/
  | ckronReg (d : Fin 8) (a b : Src)
  /-- `CKRON_IMM` (R248). Cirrus: quotient and remainder by an immediate. -/
  | ckronImm (d : Fin 8) (a : Src) (i : BitVec 17)
  /-- `CINV` (R248). Cirrus: marks the inverse section; executed, it ends the run. -/
  | cinv
  /-- `CSTOP` (R248). Cirrus: ends the run. -/
  | cstop
  /-- `SEND` (R275). Copy-unit command that writes scratchpad bytes to a destination as a release. -/
  | send (sm : Bool) (d a b : Fin 16) (k : Bool)
  /-- `SENDM` (R275). Multicasts scratchpad bytes to a set of clusters. -/
  | sendm (sm : Bool) (d a b : Fin 16) (k : Bool)
  /-- `FETCH` (R275). Copies bytes into the own scratchpad. -/
  | fetch (sm : Bool) (d a b : Fin 16)
  /-- `FLUSH` (R275). Copies scratchpad bytes out and empties the source words. -/
  | flush (sm : Bool) (d a b : Fin 16) (k : Bool)
  /-- `SENDG` (R282). Appends one record to a receive ring. -/
  | sendg (sm : Bool) (d a b : Fin 16) (k : Bool)
  /-- `WMSET` (R278). Opens or closes a receive channel and clears its marks. -/
  | wmset (sm : Bool) (a b : Fin 16)
  /-- `WMGET` (R280). Reads a channel's OPEN bit and watermark as an acquire. -/
  | wmget (sm : Bool) (d a : Fin 16)
  /-- `XGAT` (R285). Base-die gather of indexed elements into the scratchpad. -/
  | xgat (sm : Bool) (d a b : Fin 16) (w : Bool) (z : BitVec 7)
  /-- `XSCT` (R285). Base-die scatter of elements. -/
  | xsct (sm : Bool) (d a b : Fin 16) (w : Bool) (z : BitVec 7)
  /-- `XSCTADD` (R285). Base-die scatter-add of elements. -/
  | xsctadd (sm : Bool) (d a b : Fin 16) (w f : Bool) (z : BitVec 7)
  /-- `JWAIT` (R268). Parks until a job is no longer running, then reports it. -/
  | jwait (sm : Bool) (d a : Fin 16)
  /-- `JPOLL` (R268). Reports a job without parking. -/
  | jpoll (sm : Bool) (d a : Fin 16)
  /-- `LEASE` (R288). Pins a range page by page and adds it to a lease set. -/
  | lease (sm : Bool) (d a : Fin 16)
  /-- `UNLEASE` (R289). Removes a matching lease entry. -/
  | unlease (sm : Bool) (d a : Fin 16)
  /-- `PF` (R290). Asks for a range to be brought into the LLC. -/
  | pf (sm : Bool) (a : Fin 16)
  /-- `LLCWB` (R291). Writes back dirty LLC lines of a range. -/
  | llcwb (sm : Bool) (d a : Fin 16)
  /-- `PMIG` (R292). Migrates 2 MiB groups to the near or far tier. -/
  | pmig (sm : Bool) (d a : Fin 16) (x : Bool)
  /-- `NSEND` (R293). Posts an RDMA work descriptor. -/
  | nsend (sm : Bool) (d a : Fin 16)
  /-- `NPOLL` (R294). Consumes a receive completion if one waits. -/
  | npoll (sm : Bool) (d a : Fin 16)
  /-- `MFS` (R295). Reads a special register. -/
  | mfs (sm : Bool) (d : Fin 16) (n : BitVec 12)
  /-- `MTS` (R295). Writes a special register that has no row of its own. -/
  | mts (sm : Bool) (a : Fin 16) (n : BitVec 12)
  /-- `PTBR_WRITE` (R339). Replaces the translation root of the current ASID for later walks. -/
  | ptbrWrite (x : Sec) (asid : BitVec 16) (v : BitVec 64)
  /-- `SYSCTL_PM_WRITE` (R34). Sets the progress mode of the selected core, or of all cores with PMALL. -/
  | sysctlPmWrite (x : Sec) (tsel : BitVec 10) (pm all : Bool)
  /-- `PROGRESS_MODE_APPLY` (R369). A new progress mode takes effect at the core's rotation boundary. -/
  | progressModeApply (x : Sec) (cl : Fin 96) (co : Fin 8)
  /-- `HXMBOX_LOCK_REQUEST` (R37). Requests the Horizon mailbox lock. -/
  | hxmboxLockRequest (x : Sec) (horizonToo : Bool)
  /-- `HXMBOX_LOCK_RELEASE` (R37). Releases the mailbox lock if held. -/
  | hxmboxLockRelease (x : Sec)
  /-- `HXMBOX_DBI_CLEAR` (R37). Writing 1 to DBI clears the incoming doorbell. -/
  | hxmboxDbiClear (x : Sec)
  /-- `TRAP` (R298). Raises SYS with the operand as subcause. -/
  | trap (sm : Bool) (n : BitVec 7)
  /-- `ERET` (R299). Checks EPC and returns at the saved level. -/
  | eret (sm : Bool)
  /-- `WFI` (R299). Parks the master core until an interrupt is pending. -/
  | wfi (sm : Bool)
  /-- `BRK` (R298). Raises BRK with the operand as subcause. -/
  | brk (sm : Bool) (n : BitVec 7)
  /-- `TLBI` (R300). Starts invalidation of a range for one ASID. -/
  | tlbi (sm : Bool) (a b : Fin 16)
  /-- `TLBI_ALL` (R300). Starts invalidation of a range for every ASID. -/
  | tlbiAll (sm : Bool) (a : Fin 16)
  /-- `TLBSYNC` (R301). Parks until earlier invalidations are complete; triggers ring and lease retries. -/
  | tlbsync (sm : Bool)
  /-- `SEAL` (R302). Seals a range, measures it and extends MRS. -/
  | seal (sm : Bool) (d a : Fin 16)
  /-- `IPI` (R304). Sends NOTE, PREEMPT or RELEASE to a target. -/
  | ipi (sm : Bool) (a b : Fin 16)
  /-- `DADD` (R136). FP64 add. -/
  | dadd (sm : Bool) (d a b : Fin 16)
  /-- `DSUB` (R136). FP64 subtract. -/
  | dsub (sm : Bool) (d a b : Fin 16)
  /-- `DMUL` (R136). FP64 multiply. -/
  | dmul (sm : Bool) (d a b : Fin 16)
  /-- `DDIV` (R136). FP64 divide. -/
  | ddiv (sm : Bool) (d a b : Fin 16)
  /-- `DFMA` (R136). FP64 fused multiply-add with S[D] as addend. -/
  | dfma (sm : Bool) (d a b : Fin 16)
  /-- `DSQRT` (R136). FP64 square root. -/
  | dsqrt (sm : Bool) (d a : Fin 16)
  /-- `DCMP` (R136). FP64 compare into a predicate. -/
  | dcmp (sm : Bool) (d : Fin 8) (a b : Fin 16) (c : Cond)
  /-- `DCVT` (R137). FP64 conversion selected by MOD. -/
  | dcvt (sm : Bool) (d a : Fin 16) (k : DcvtKind)
  /-- `VDFMA` (R138). FP64 vector fused multiply-add. -/
  | vdfma (sm : Bool) (d a b : Fin 16) (m : Fin 8)
  /-- `FADD` (R131). FP32 add. -/
  | fadd (sm : Bool) (d a b : Fin 16)
  /-- `FSUB` (R131). FP32 subtract. -/
  | fsub (sm : Bool) (d a b : Fin 16)
  /-- `FMUL` (R131). FP32 multiply. -/
  | fmul (sm : Bool) (d a b : Fin 16)
  /-- `FDIV` (R131). FP32 divide. -/
  | fdiv (sm : Bool) (d a b : Fin 16)
  /-- `FFMA` (R131). FP32 fused multiply-add with S[D] as addend. -/
  | ffma (sm : Bool) (d a b : Fin 16)
  /-- `FMIN` (R132). FP32 minimum. -/
  | fmin (sm : Bool) (d a b : Fin 16)
  /-- `FMAX` (R132). FP32 maximum. -/
  | fmax (sm : Bool) (d a b : Fin 16)
  /-- `FABS` (R131). Clears the FP32 sign bit. -/
  | fabs (sm : Bool) (d a : Fin 16)
  /-- `FNEG` (R131). Inverts the FP32 sign bit. -/
  | fneg (sm : Bool) (d a : Fin 16)
  /-- `FSQRT` (R131). FP32 square root. -/
  | fsqrt (sm : Bool) (d a : Fin 16)
  /-- `FCMP` (R133). FP32 compare into a predicate. -/
  | fcmp (sm : Bool) (d : Fin 8) (a b : Fin 16) (c : Cond)
  /-- `FCVT` (R134). FP32 conversion selected by MOD. -/
  | fcvt (sm : Bool) (d a : Fin 16) (k : FcvtKind)
  /-- `HIMM` (R61). Wide-immediate prefix forming a chain. -/
  | himm (i : BitVec 21)
  /-- `HLOC` (R64). Hint of the LLC replacement class of a line. -/
  | hloc (r : Fin 16) (c : Fin 4) (x : BitVec 15)
  /-- `HBR` (R64). Branch prediction hint. -/
  | hbr (h : Fin 4) (x : BitVec 19)
  /-- `HPRI` (R64). Sets the request class at Stratus arbiters. -/
  | hpri (x : BitVec 19) (c : Fin 4)
  /-- `HMU` (R65). Must-understand hint; raises HMU on this device. -/
  | hmu (k : BitVec 5) (a : BitVec 16)
  /-- `HINT_RESERVED` (R63). Reserved hint kind, ignored when no chain is pending. -/
  | hintReserved (k : Fin 16) (x : BitVec 21)
  /-- `INTERRUPT_TAKEN` (R392). A pending IRQ or CHL is taken at an instruction boundary while IE is 1. -/
  | interruptTaken (x : Sec) (n : Fin 16)
  /-- `WATCHDOG_EXPIRE` (R372). In mode Y a holder reaching 2^20 cycles takes WDG NOYIELD. -/
  | watchdogExpire (x : Sec) (cl : Fin 96) (co : Fin 8)
  /-- `REGISTER_FILL_WAKE` (R13). A read parked on an empty s register completes when it fills. -/
  | registerFillWake (g : Agent)
  /-- `FE_WORD_WAKE` (R148). Parked full/empty forms complete in park order when a word changes state. -/
  | feWordWake (x : Sec) (cl : Fin 96) (word : Fin 262144)
  /-- `WATERMARK_WAKE` (R24). A read parked below a watermark completes when WM passes it. -/
  | watermarkWake (x : Sec) (cl : Fin 96)
  /-- `SLEEP_WAKE` (R168). A sleeping context wakes on a change, deposit or spurious wake and reloads the word.
  -/
  | sleepWake (g : Agent)
  /-- `JOIN_COMPLETE` (R154). A parked join completes when the instance ends. -/
  | joinComplete (g : Agent)
  /-- `JWAIT_COMPLETE` (R268). A parked jwait completes when its job stops running. -/
  | jwaitComplete (g : Agent)
  /-- `QUEUE_ENTRY_FREE` (R215). An issue parked on a full engine, copy or job-record queue completes. -/
  | queueEntryFree (g : Agent)
  /-- `POOL_ENTRY_FREE` (R361). A spawn parked on a full pool proceeds when an entry frees. -/
  | poolEntryFree (x : Sec)
  /-- `D_SLOT_FREE` (R68). A context parked for a D slot moves when one frees. -/
  | dSlotFree (x : Sec) (cl : Fin 96)
  /-- `DEPOSIT_ARRIVE` (R14). A register-window deposit reaches its cluster and lands or waits. -/
  | depositArrive (id : Nat)
  /-- `DEPOSIT_LAND` (R14). A waiting deposit lands when its register becomes empty. -/
  | depositLand (id : Nat)
  /-- `PUSH_ACCEPT` (R170). A push is accepted at a scratchpad bank and sets arrival marks. -/
  | pushAccept (id : Nat)
  /-- `BANK_READ` (R309). A read is served at its home LLC bank. -/
  | bankRead (id : Nat)
  /-- `BANK_WRITE` (R309). A write is accepted at its home bank and becomes visible to all. -/
  | bankWrite (id : Nat)
  /-- `BANK_ATOMIC` (R332). A bank unit applies an atomic or scatter-add element. -/
  | bankAtomic (id : Nat)
  /-- `PEER_REQUEST` (R357). A peer-window access is checked at the exporting home and performed. -/
  | peerRequest (id : Nat)
  /-- `ZENITH_CYCLE` (R159). Requests to a Zenith register in one cycle combine in a tree and complete. -/
  | zenithCycle (x : Sec) (uid : Nat) (z : Fin 16) (order : List Nat)
  /-- `DRAW_REQUEST` (R363). A context's draw takes a replay number or increments the draw register. -/
  | drawRequest (g : Agent)
  /-- `VT_START` (R44). A drawn number arrives and the context begins the vt with its start state. -/
  | vtStart (g : Agent)
  /-- `INDEX_ASSIGN` (R361). A freed instance index goes to the oldest WAITIDX entry. -/
  | indexAssign (x : Sec)
  /-- `LEASE_RESIDENCY_CHECK` (R348). Stratus checks every leased page and the save area before the instance
  becomes READY. -/
  | leaseResidencyCheck (x : Sec) (uid : Nat)
  /-- `READY_BROADCAST` (R362). The broadcast message of a READY entry reaches each eligible cluster. -/
  | readyBroadcast (x : Sec) (uid : Nat)
  /-- `CONTEXT_CHOOSE` (R364). A released context chooses an instance by priority, bypass and probe. -/
  | contextChoose (g : Agent)
  /-- `RESIDENCY_PROBE` (R365). Every 1,024 Stratus cycles the spawn unit probes a READY entry's first lease
  line. -/
  | residencyProbe (x : Sec) (uid : Nat)
  /-- `INSTANCE_END` (R153). An instance ends when its numbers, vts, accesses and children are done. -/
  | instanceEnd (x : Sec) (uid : Nat)
  /-- `ENGINE_STEP` (R375). The matrix engine grants a runnable queue a step of up to 128 cycles. -/
  | engineStep (x : Sec) (cl : Fin 96)
  /-- `MATRIX_COMMAND_COMPLETE` (R216). A matrix command or pgrun finishes and its job record becomes held. -/
  | matrixCommandComplete (x : Sec) (cl : Fin 96) (co : Fin 8)
  /-- `ACCUMULATOR_CLAIM` (R227). A claim through Stratus makes another engine spill a context's accumulator. -/
  | accumulatorClaim (x : Sec) (home : Fin 6144) (slot : Fin 2)
  /-- `COPY_COMMAND_START` (R376). The copy unit starts the head of the next queue. -/
  | copyCommandStart (x : Sec) (cl : Fin 96)
  /-- `COPY_COMPLETE` (R275). A copy command's bytes are all accepted and its job completes. -/
  | copyComplete (x : Sec) (cl : Fin 96) (id : Nat)
  /-- `XG_COMPLETE` (R286). A gather or scatter job ends, with the lowest failing element's fault if any. -/
  | xgComplete (x : Sec) (id : Nat)
  /-- `JOB_COMPLETE` (R267). A lease, llcwb, pmig or nsend job completes and its record becomes held. -/
  | jobComplete (x : Sec) (id : Nat)
  /-- `DETACHED_JOB_END` (R269). A detached job finishes and is recorded in the status block if not DONE. -/
  | detachedJobEnd (x : Sec) (id : Nat)
  /-- `RING_RESERVATION` (R282). A ring header's home reserves space and a sequence number indivisibly. -/
  | ringReservation (x : Sec) (cl : Fin 96) (id : Nat)
  /-- `TLBI_COMPLETE` (R301). An invalidation finishes with TLBs, lines and old-mapping accesses cleared. -/
  | tlbiComplete (x : Sec) (id : Nat)
  /-- `MIGRATION_GROUP_MOVE` (R353). The migration engine moves one 2 MiB group to the other tier. -/
  | migrationGroupMove (x : Sec) (asid : BitVec 16) (va : BitVec 64) (far : Bool)
  /-- `MIGRATION_MESSAGE_ARRIVE` (R166). A migration message reaches its destination cluster and takes a slot or
  waits. -/
  | migrationMessageArrive (id : Nat)
  /-- `MIGRATION_ADMIT` (R378). A waiting message is admitted to a freed slot and its sequence window is
  applied. -/
  | migrationAdmit (x : Sec) (cl : Fin 96)
  /-- `INBOX_OVERFLOW` (R379). The service context moves 16 inbox entries to overflow heaps. -/
  | inboxOverflow (x : Sec) (cl : Fin 96) (id : Nat)
  /-- `HEAP_REPLAY` (R379). The service context replays the oldest heap record through the loop-back port. -/
  | heapReplay (x : Sec) (cl : Fin 96)
  /-- `BACKPRESSURE_RETRY` (R381). A refused message is offered again after 1,024 Stratus cycles. -/
  | backpressureRetry (id : Nat)
  /-- `PROBE_TOKEN` (R382). A probe token arrives and is forwarded, dropped, or admits to the reserve buffer. -/
  | probeToken (id : Nat)
  /-- `PREEMPT` (R401). A thread core stops issuing, drains and diverts its traffic to the spill queue. -/
  | preempt (x : Sec) (cl : Fin 96) (co : Fin 8) (issuer : Fin 16)
  /-- `PREEMPT_IMAGES_SAVED` (R401). After draining, images are written and IRQ PREEMPTED is sent. -/
  | preemptImagesSaved (x : Sec) (cl : Fin 96) (co : Fin 8)
  /-- `CORE_RELEASE` (R403). ipi RELEASE returns a stopped core to allocation. -/
  | coreRelease (x : Sec) (cl : Fin 96) (co : Fin 8)
  /-- `IMAGE_RESTORE` (R404). A freed slot takes a saved image by priority and age. -/
  | imageRestore (x : Sec) (idx : Fin 6144)
  /-- `SPILL_QUEUE_APPEND` (R406). A diverted deposit or message is appended to the spill queue or back-
  pressured. -/
  | spillQueueAppend (id : Nat)
  /-- `NPOOL_PUSH` (R337). A write to NPOOL pushes a near-tier frame. -/
  | npoolPush (x : Sec) (v : BitVec 64)
  /-- `NPOOL_POP` (R337). A read of NPOOL pops a near-tier frame or returns 0. -/
  | npoolPop (x : Sec)
  /-- `FPOOL_PUSH` (R337). A write to FPOOL pushes a far-tier frame. -/
  | fpoolPush (x : Sec) (v : BitVec 64)
  /-- `FPOOL_POP` (R337). A read of FPOOL pops a far-tier frame. -/
  | fpoolPop (x : Sec)
  /-- `EXPORT_OPEN` (R355). Writing VALID = 1 opens an export entry when its range is legal. -/
  | exportOpen (x : Sec) (e : Fin 4096)
  /-- `EXPORT_REVOKE` (R358). BUMP or clearing VALID increments GEN and sets BUSY. -/
  | exportRevoke (x : Sec) (e : Fin 4096) (bump : Bool)
  /-- `REVOCATION_DRAINED` (R358). BUSY clears when requests past the check have settled. -/
  | revocationDrained (x : Sec) (e : Fin 4096)
  /-- `IMPORT_HANDLE_WRITE` (R356). Writing HANDLE clears the slot and queries the home. -/
  | importHandleWrite (x : Sec) (slot : Fin 256) (v : BitVec 64)
  /-- `IMPORT_QUERY` (R356). The home answers a handle query with VALID data or ERR. -/
  | importQuery (x : Sec) (slot : Fin 256)
  /-- `CONTROL_WINDOW_WRITE` (R337). A write to a control-window register with no row of its own. -/
  | controlWindowWrite (x : Sec) (off : BitVec 24) (v : BitVec 64)
  /-- `ECC_EVENT` (R407). An ECC event is retried once and classified. -/
  | eccEvent (site : EccSite) (retry : EccRetry)
  /-- `LINK_CRC_ERROR` (R414). A flit failing CRC is retried; a second failure, which has a requester, is reported to
  Horizon. -/
  | linkCrcError (l : Link) (again : Option ErrReq)
  /-- `BRIDGE_FENCE` (R414). A failed bridge is fenced and traffic rerouted via a third sector. -/
  | bridgeFence (b : Fin 6)
  /-- `CHIPLET_FENCE` (R417). Stratus fences a chiplet, completes accepted requests and sends CHL. -/
  | chipletFence (x : Sec) (ch : Fin 4)
  /-- `CHIPLET_ADMIT` (R419). A fenced chiplet is reset, tested and returned to service. -/
  | chipletAdmit (x : Sec) (ch : Fin 4) (entry : BitVec 64)
  /-- `MODULE_POWER_ON` (R415). Horizon starts, powers rails, verifies firmware and boots sectors. -/
  | modulePowerOn
  /-- `SECTOR_RELEASE` (R416). Horizon releases a sector into its start state. -/
  | sectorRelease (x : Sec)
  /-- `SECTOR_RESET_ORDERLY` (R420). A sector aborts, quiesces neighbours, writes back and restarts. -/
  | sectorResetOrderly (x : Sec)
  /-- `SECTOR_RESET_FORCED` (R420). A sector resets without write-back or waiting for neighbours. -/
  | sectorResetForced (x : Sec)
  /-- `QUIESCE_REQUEST` (R421). A neighbour fences its bridge end, drains and answers with error completions. -/
  | quiesceRequest (x n : Sec)
  /-- `QUIESCE_DONE` (R420). A neighbour's quiesce-done answer reaches the resetting sector. -/
  | quiesceDone (x n : Sec)
  /-- `QUIESCE_TIMEOUT` (R420). A resetting neighbour counts as answered after 2^24 Stratus cycles. -/
  | quiesceTimeout (x n : Sec)
  /-- `HX_QUOTE` (R430). Mailbox command returning a signed quote over the nonce. -/
  | hxQuote (x : Sec)
  /-- `HX_READLOG` (R429). Mailbox command returning measurement log entries. -/
  | hxReadlog (x : Sec)
  /-- `HX_TELEM` (R425). Mailbox command returning the telemetry record. -/
  | hxTelem (x : Sec)
  /-- `HX_FENCE` (R424). Mailbox command to fence a chiplet. -/
  | hxFence (x : Sec)
  /-- `HX_ADMIT` (R424). Mailbox command to admit a chiplet with an entry address. -/
  | hxAdmit (x : Sec)
  /-- `HX_SRESET` (R424). Mailbox command to reset the sector. -/
  | hxSreset (x : Sec)
  /-- `HX_NETCFG` (R432). Mailbox command setting the network table base. -/
  | hxNetcfg (x : Sec)
  /-- `HX_PCIECFG` (R435). Mailbox command setting the PCIe ring, DMA ASID and message address. -/
  | hxPciecfg (x : Sec)
  /-- `HX_PCAP` (R424). Mailbox command setting the sector power cap. -/
  | hxPcap (x : Sec)
  /-- `HORIZON_RESPONSE` (R423). Horizon posts a response word with DBI and sends IRQ HXM. -/
  | horizonResponse (x : Sec)
  /-- `MGMT_TELEMETRY` (R422). Management request for telemetry. -/
  | mgmtTelemetry
  /-- `MGMT_FIRMWARE` (R422). Management request to stage, verify or commit firmware. -/
  | mgmtFirmware (r : FirmwareRequest)
  /-- `MGMT_BOOT_RESET` (R422). Management request to release or reset a sector. -/
  | mgmtBootReset (x : Sec) (reset forced scrub : Bool)
  /-- `MGMT_FENCE` (R422). Management request to fence or admit a chiplet or fence a bridge. -/
  | mgmtFence (r : FenceRequest)
  /-- `MGMT_POWER` (R422). Management request to set sector caps. -/
  | mgmtPower (x : Sec) (cap : BitVec 32)
  /-- `MGMT_ATTESTATION` (R422). Management request for quotes or measurement logs. -/
  | mgmtAttestation (x : Sec) (nonce : BitVec 512)
  /-- `CLOCK_STEP` (R437). Horizon lowers or raises the core clock by 100 MHz under caps or heat. -/
  | clockStep (x : Sec) (up : Bool)
  /-- `THERMAL_TRIP` (R437). A die at 110 °C or loss of flow forces a sector reset. -/
  | thermalTrip (x : Sec)
  /-- `RAIL_FAULT` (R437). A rail fault forces reset of the affected sectors. -/
  | railFault (sectors : List Sec)
  /-- `RDMA_WRITE_IN` (R433). An incoming RDMA WRITE is checked against its region and stored. -/
  | rdmaWriteIn (x : Sec) (r : RdmaIn)
  /-- `RDMA_READ_IN` (R433). An incoming RDMA READ is checked and served. -/
  | rdmaReadIn (x : Sec) (r : RdmaIn)
  /-- `RDMA_SEND_IN` (R434). An incoming SEND fills a buffer and writes a completion entry. -/
  | rdmaSendIn (x : Sec) (r : RdmaIn)
  /-- `PCIE_DESCRIPTOR_RING` (R435). A tail change starts the root port on posted descriptors. -/
  | pcieDescriptorRing (x : Sec)
  /-- `PCIE_DMA` (R435). An endpoint DMA access is translated in the DMA ASID. -/
  | pcieDma (x : Sec) (r : PcieDma)
  /-- `PCIE_MESSAGE_WRITE` (R435). An endpoint write to the message address is delivered as an ipi NOTE. -/
  | pcieMessageWrite (x : Sec) (v : BitVec 64)
  /-- `SCRATCHPAD_FLIT_ARRIVE` (R279). A 64-byte flit written by fetch or an xgat burst lands in the own
  scratchpad, sets arrival marks, advances WM and wakes parked reads. -/
  | scratchpadFlitArrive (x : Sec) (cl : Fin 96) (id : Nat)
  /-- `PCIE_COMPLETION` (R435). An endpoint's completion for a posted descriptor arrives and the port writes the
  status and read data back into the descriptor as a release. -/
  | pcieCompletion (x : Sec) (slot : Nat) (status : BitVec 16) (data : List (BitVec 8))
  /-- `RECEIVER_NOT_READY_NAK` (R434). A receiver-not-ready NAK arrives for an outgoing SEND and the sender
  retries it. -/
  | receiverNotReadyNak (x : Sec) (id : Nat)
  deriving DecidableEq, Repr

end Sys2Proof
end

