-- ==== Sys2Proof/WellFormed.lean ====
section
/-! DEFINITION. Well-formedness: what the specification forbids of an instruction beyond the values that its fields'
types admit (R54, R66 and the forms' own descriptions). A word whose fields break one of these raises ILL. -/

namespace Sys2Proof

/-- Why a word is not an instruction (R66). Every one of them raises ILL. -/
inductive Reject where
  /-- Fewer than four bytes were given. -/
  | short
  /-- OP 0x30 to 0x3E, or a reserved COP of a Cirrus word. -/
  | opcode
  /-- A SUB, KIND or IMM[16:12] beyond the group's list. -/
  | sub
  /-- A reserved field is not zero, `ldi` with A, `st` with X, or an atomic size code 0 or 1. -/
  | res0
  /-- A code that names no format, class, conversion or source. -/
  | code
  /-- An H-format word with S = 1. -/
  | hintSync
  /-- A pair whose first register is s15 (R54). -/
  | pair
  /-- `st` with ORD = 11 (R56). -/
  | stOrder
  /-- `fence` with order rlx (R169). -/
  | fenceOrder
  /-- A format tag that the form does not take (R190, R195, R197, R201, R205). -/
  | tag
  /-- A packed format under a mask or in a broadcast or strided form (R201). -/
  | packed
  /-- `hsift` with a size outside 1 to 8 (R207). -/
  | heapSize
  /-- A hint kind that is not reserved in the reserved-hint row (R63). -/
  | hintKind
  /-- `cnext` or `ckron` with CD = 7 (R248). -/
  | counter
  deriving DecidableEq, Repr

/-- A register pair sX:sX+1 must not start at s15 (R54). -/
def pairOk (r : Fin 16) : Option Reject := if r = 15 then some .pair else none

/-- The first of two complaints. -/
def orElse (a b : Option Reject) : Option Reject := match a with | some r => some r | none => b

/-- Tags 0 to 11, which `vbcast` and `vgat` take (R190, R204). -/
def tagPlain (t : Tag) : Option Reject :=
  match t with
  | .e2m1x | .b8 | .inv => some .tag
  | _ => none

/-- Tags 1 to 11, which `vcvt` takes (R195). -/
def tagConvert (t : Tag) : Option Reject :=
  match t with
  | .raw | .e2m1x | .b8 | .inv => some .tag
  | _ => none

/-- Tags 7 to 9, which `vdequant` takes (R197). -/
def tagDequant (t : Tag) : Option Reject :=
  match t with
  | .f32 | .bf16 | .f16 => none
  | _ => some .tag

/-- FMT of a VM form (R201): never 15, and 12 or 13 only in an unmasked `vld` or `vst`. -/
def vmFormat (f : Tag) (m : Fin 8) (contiguous : Bool) : Option Reject :=
  match f with
  | .inv => some .tag
  | .e2m1x | .b8 => if contiguous ∧ m = 0 then none else some .packed
  | _ => none

/-- The first complaint against an instruction, if there is one. -/
def check : Instr → Option Reject
  | .st _ _ _ _ o _ => if o = .ro then some .stOrder else none
  | .acas _ _ _ b _ _ _ => pairOk b
  | .psmb _ _ a _ _ _ => pairOk a
  | .fence _ _ o => if o = .rlx then some .fenceOrder else none
  | .vbcast _ _ _ _ t => tagPlain t
  | .vcvt _ _ _ _ _ f => tagConvert f
  | .vdequant _ _ _ _ _ f => tagDequant f
  | .vld _ _ _ m f _ => vmFormat f m true
  | .vst _ _ _ m f _ => vmFormat f m true
  | .vldbc _ _ _ m f _ => vmFormat f m false
  | .vlds _ _ a m f _ => orElse (pairOk a) (vmFormat f m false)
  | .vsts _ _ a m f _ => orElse (pairOk a) (vmFormat f m false)
  | .vgat _ _ _ _ _ t => tagPlain t
  | .hsift _ _ _ _ k => if 1 ≤ k.val ∧ k.val ≤ 8 then none else some .heapSize
  | .mxcfg _ a _ => pairOk a
  | .mxmm _ _ a b _ _ _ _ => orElse (pairOk a) (pairOk b)
  | .mxmmg _ _ a b _ _ _ _ => orElse (pairOk a) (pairOk b)
  | .mxmms _ _ a b _ _ _ _ => orElse (pairOk a) (pairOk b)
  | .mxmmgs _ _ a b _ _ _ _ => orElse (pairOk a) (pairOk b)
  | .mxst _ _ a _ _ _ _ => pairOk a
  | .mxstq _ _ a _ _ _ _ => pairOk a
  | .pgld _ _ a _ r => if r ∧ a ≠ 0 then some .res0 else none
  | .pgrun _ _ a b => orElse (pairOk a) (pairOk b)
  | .cnextReg d _ _ => if d = 7 then some .counter else none
  | .cnextImm d _ _ => if d = 7 then some .counter else none
  | .ckronReg d _ _ => if d = 7 then some .counter else none
  | .ckronImm d _ _ => if d = 7 then some .counter else none
  | .send _ _ _ b _ => pairOk b
  | .sendm _ _ a b _ => orElse (pairOk a) (pairOk b)
  | .fetch _ _ _ b => pairOk b
  | .flush _ _ _ b _ => pairOk b
  | .sendg _ _ _ b _ => pairOk b
  | .wmset _ _ b => pairOk b
  | .xgat _ _ a b _ _ => orElse (pairOk a) (pairOk b)
  | .xsct _ _ a b _ _ => orElse (pairOk a) (pairOk b)
  | .xsctadd _ _ a b _ _ _ => orElse (pairOk a) (pairOk b)
  | .lease _ _ a => pairOk a
  | .unlease _ _ a => pairOk a
  | .pf _ a => pairOk a
  | .llcwb _ _ a => pairOk a
  | .pmig _ _ a _ => pairOk a
  | .tlbi _ a _ => pairOk a
  | .tlbiAll _ a => pairOk a
  | .seal _ _ a => pairOk a
  | .hintReserved k _ => if 4 ≤ k.val ∧ k.val ≤ 14 then none else some .hintKind
  | _ => none

/-- An instruction that the specification's encodings admit. -/
abbrev WellFormed (i : Instr) : Prop := check i = none

/-- The word spaces (R50, R246). -/
inductive WordSpace where
  | cpu | cirrus | event
  deriving DecidableEq, Repr

/-- Which word space an instruction belongs to: the words that contexts execute, the words of a pattern program,
or none (a step of the machine without an encoding). -/
def wordSpace : Instr → WordSpace
  | .add _ _ _ _ => .cpu
  | .sub _ _ _ _ => .cpu
  | .addw _ _ _ _ => .cpu
  | .subw _ _ _ _ => .cpu
  | .and _ _ _ _ => .cpu
  | .or _ _ _ _ => .cpu
  | .xor _ _ _ _ => .cpu
  | .andn _ _ _ _ => .cpu
  | .shl _ _ _ _ => .cpu
  | .shr _ _ _ _ => .cpu
  | .sar _ _ _ _ => .cpu
  | .min _ _ _ _ => .cpu
  | .max _ _ _ _ => .cpu
  | .minu _ _ _ _ => .cpu
  | .maxu _ _ _ _ => .cpu
  | .abs _ _ _ => .cpu
  | .neg _ _ _ => .cpu
  | .mov _ _ _ => .cpu
  | .sh1add _ _ _ _ => .cpu
  | .sh2add _ _ _ _ => .cpu
  | .sh3add _ _ _ _ => .cpu
  | .addi _ _ _ _ => .cpu
  | .andi _ _ _ _ => .cpu
  | .ori _ _ _ _ => .cpu
  | .xori _ _ _ _ => .cpu
  | .ldi _ _ _ => .cpu
  | .shli _ _ _ _ => .cpu
  | .shri _ _ _ _ => .cpu
  | .sari _ _ _ _ => .cpu
  | .cmpi _ _ _ _ _ => .cpu
  | .mul _ _ _ _ => .cpu
  | .mulh _ _ _ _ => .cpu
  | .mulhu _ _ _ _ => .cpu
  | .mulw _ _ _ _ => .cpu
  | .div _ _ _ _ => .cpu
  | .divu _ _ _ _ => .cpu
  | .rem _ _ _ _ => .cpu
  | .remu _ _ _ _ => .cpu
  | .clz _ _ _ => .cpu
  | .ctz _ _ _ => .cpu
  | .popc _ _ _ => .cpu
  | .bswap _ _ _ => .cpu
  | .bfx _ _ _ _ => .cpu
  | .bfxu _ _ _ _ => .cpu
  | .bfi _ _ _ _ => .cpu
  | .cmp _ _ _ _ _ => .cpu
  | .test _ _ _ _ _ => .cpu
  | .sel _ _ _ _ _ => .cpu
  | .pand _ _ _ _ => .cpu
  | .por _ _ _ _ => .cpu
  | .pxor _ _ _ _ => .cpu
  | .pnot _ _ _ => .cpu
  | .pget _ _ => .cpu
  | .pset _ _ => .cpu
  | .ld _ _ _ _ _ _ _ => .cpu
  | .st _ _ _ _ _ _ => .cpu
  | .aadd _ _ _ _ _ _ _ => .cpu
  | .aand _ _ _ _ _ _ _ => .cpu
  | .aor _ _ _ _ _ _ _ => .cpu
  | .axor _ _ _ _ _ _ _ => .cpu
  | .amin _ _ _ _ _ _ _ => .cpu
  | .amax _ _ _ _ _ _ _ => .cpu
  | .aminu _ _ _ _ _ _ _ => .cpu
  | .amaxu _ _ _ _ _ _ _ => .cpu
  | .aswp _ _ _ _ _ _ _ => .cpu
  | .acas _ _ _ _ _ _ _ => .cpu
  | .aincb _ _ _ _ _ _ _ => .cpu
  | .afadd _ _ _ _ _ _ => .cpu
  | .afmax _ _ _ _ _ _ => .cpu
  | .ldfe _ _ _ => .cpu
  | .ldff _ _ _ => .cpu
  | .stfe _ _ _ => .cpu
  | .stef _ _ _ => .cpu
  | .fen _ _ _ => .cpu
  | .fstat _ _ _ => .cpu
  | .remp _ _ => .cpu
  | .bp _ _ _ => .cpu
  | .bnp _ _ _ => .cpu
  | .bz _ _ _ => .cpu
  | .bnz _ _ _ => .cpu
  | .dbnz _ _ _ => .cpu
  | .j _ _ => .cpu
  | .jal _ _ => .cpu
  | .jr _ _ => .cpu
  | .jalr _ _ => .cpu
  | .spawn _ _ _ => .cpu
  | .spawnn _ _ _ => .cpu
  | .join _ _ _ => .cpu
  | .jtest _ _ _ => .cpu
  | .spabort _ _ => .cpu
  | .tres _ _ _ _ _ => .cpu
  | .psm _ _ _ _ _ => .cpu
  | .psmb _ _ _ _ _ _ => .cpu
  | .zset _ _ _ _ => .cpu
  | .zget _ _ _ _ => .cpu
  | .done _ => .cpu
  | .yield _ => .cpu
  | .go _ _ => .cpu
  | .goh _ _ => .cpu
  | .gohome _ => .cpu
  | .sleep _ _ _ => .cpu
  | .fence _ _ _ => .cpu
  | .fpush _ => .cpu
  | .fwait _ => .cpu
  | .xbeg _ _ => .cpu
  | .xcom _ => .cpu
  | .xabt _ _ => .cpu
  | .vadd _ _ _ _ _ _ => .cpu
  | .vsub _ _ _ _ _ _ => .cpu
  | .vmul _ _ _ _ _ _ => .cpu
  | .vmulh _ _ _ _ _ _ => .cpu
  | .vmin _ _ _ _ _ _ => .cpu
  | .vmax _ _ _ _ _ _ => .cpu
  | .vabs _ _ _ _ => .cpu
  | .vneg _ _ _ _ => .cpu
  | .vaddsat _ _ _ _ _ _ => .cpu
  | .vsubsat _ _ _ _ _ _ => .cpu
  | .vsqrt _ _ _ _ => .cpu
  | .vrcp _ _ _ _ => .cpu
  | .vrsq _ _ _ _ => .cpu
  | .vexp2 _ _ _ _ => .cpu
  | .vand _ _ _ _ _ _ => .cpu
  | .vor _ _ _ _ _ _ => .cpu
  | .vxor _ _ _ _ _ _ => .cpu
  | .vandn _ _ _ _ _ _ => .cpu
  | .vshl _ _ _ _ _ _ => .cpu
  | .vshr _ _ _ _ _ _ => .cpu
  | .vsar _ _ _ _ _ _ => .cpu
  | .vclz _ _ _ _ => .cpu
  | .vpopc _ _ _ _ => .cpu
  | .vfma _ _ _ _ _ => .cpu
  | .vfms _ _ _ _ _ => .cpu
  | .vfnma _ _ _ _ _ => .cpu
  | .vfnms _ _ _ _ _ => .cpu
  | .vdot2 _ _ _ _ _ => .cpu
  | .vdot4 _ _ _ _ _ => .cpu
  | .vcmp _ _ _ _ _ _ _ => .cpu
  | .vclass _ _ _ _ _ => .cpu
  | .vsel _ _ _ _ _ => .cpu
  | .mand _ _ _ _ => .cpu
  | .mor _ _ _ _ => .cpu
  | .mnot _ _ _ => .cpu
  | .mcount _ _ _ => .cpu
  | .mfirst _ _ _ => .cpu
  | .vbcast _ _ _ _ _ => .cpu
  | .vins _ _ _ _ => .cpu
  | .vext _ _ _ _ => .cpu
  | .vperm _ _ _ _ _ => .cpu
  | .vcompress _ _ _ _ => .cpu
  | .vexpand _ _ _ _ => .cpu
  | .vredadd _ _ _ _ => .cpu
  | .vredmax _ _ _ _ => .cpu
  | .vredmin _ _ _ _ => .cpu
  | .vscan _ _ _ _ _ => .cpu
  | .vcvt _ _ _ _ _ _ => .cpu
  | .vquant _ _ _ _ _ => .cpu
  | .vdequant _ _ _ _ _ _ => .cpu
  | .vtag _ _ _ _ => .cpu
  | .vseed _ _ _ => .cpu
  | .vld _ _ _ _ _ _ => .cpu
  | .vst _ _ _ _ _ _ => .cpu
  | .vldbc _ _ _ _ _ _ => .cpu
  | .vlds _ _ _ _ _ _ => .cpu
  | .vsts _ _ _ _ _ _ => .cpu
  | .vgat _ _ _ _ _ _ => .cpu
  | .vsct _ _ _ _ _ => .cpu
  | .vsctadd _ _ _ _ _ => .cpu
  | .hsift _ _ _ _ _ => .cpu
  | .tstep _ _ _ _ _ => .cpu
  | .dgi _ _ _ _ => .cpu
  | .dga _ _ _ => .cpu
  | .dgo _ _ _ => .cpu
  | .dglog _ _ _ => .cpu
  | .mxcfg _ _ _ => .cpu
  | .mxzero _ _ _ => .cpu
  | .mxrel _ => .cpu
  | .mxsave _ _ _ _ => .cpu
  | .mxrest _ _ _ _ => .cpu
  | .mxmm _ _ _ _ _ _ _ _ => .cpu
  | .mxmmg _ _ _ _ _ _ _ _ => .cpu
  | .mxmms _ _ _ _ _ _ _ _ => .cpu
  | .mxmmgs _ _ _ _ _ _ _ _ => .cpu
  | .mxst _ _ _ _ _ _ _ => .cpu
  | .mxstq _ _ _ _ _ _ _ => .cpu
  | .mxscale _ _ _ _ _ _ => .cpu
  | .qset _ _ _ => .cpu
  | .qclr _ _ _ => .cpu
  | .qld _ _ _ => .cpu
  | .qst _ _ _ => .cpu
  | .qtest _ _ _ _ => .cpu
  | .pgld _ _ _ _ _ => .cpu
  | .pgset _ _ _ => .cpu
  | .pgrun _ _ _ _ => .cpu
  | .pgrel _ => .cpu
  | .pginv _ _ _ => .cpu
  | .csetReg _ _ => .cirrus
  | .csetImm _ _ => .cirrus
  | .caddReg _ _ _ _ => .cirrus
  | .caddImm _ _ _ _ => .cirrus
  | .cmulReg _ _ _ => .cirrus
  | .cmulImm _ _ _ => .cirrus
  | .cdivReg _ _ _ => .cirrus
  | .cdivImm _ _ _ => .cirrus
  | .cmodReg _ _ _ => .cirrus
  | .cmodImm _ _ _ => .cirrus
  | .chashReg _ _ _ => .cirrus
  | .chashImm _ _ _ => .cirrus
  | .cbr _ _ _ _ => .cirrus
  | .cloop _ _ _ => .cirrus
  | .cnextReg _ _ _ => .cirrus
  | .cnextImm _ _ _ => .cirrus
  | .cemitReg _ _ => .cirrus
  | .cemitImm _ _ => .cirrus
  | .crunReg _ _ _ => .cirrus
  | .crunImm _ _ _ => .cirrus
  | .ckronReg _ _ _ => .cirrus
  | .ckronImm _ _ _ => .cirrus
  | .cinv => .cirrus
  | .cstop => .cirrus
  | .send _ _ _ _ _ => .cpu
  | .sendm _ _ _ _ _ => .cpu
  | .fetch _ _ _ _ => .cpu
  | .flush _ _ _ _ _ => .cpu
  | .sendg _ _ _ _ _ => .cpu
  | .wmset _ _ _ => .cpu
  | .wmget _ _ _ => .cpu
  | .xgat _ _ _ _ _ _ => .cpu
  | .xsct _ _ _ _ _ _ => .cpu
  | .xsctadd _ _ _ _ _ _ _ => .cpu
  | .jwait _ _ _ => .cpu
  | .jpoll _ _ _ => .cpu
  | .lease _ _ _ => .cpu
  | .unlease _ _ _ => .cpu
  | .pf _ _ => .cpu
  | .llcwb _ _ _ => .cpu
  | .pmig _ _ _ _ => .cpu
  | .nsend _ _ _ => .cpu
  | .npoll _ _ _ => .cpu
  | .mfs _ _ _ => .cpu
  | .mts _ _ _ => .cpu
  | .trap _ _ => .cpu
  | .eret _ => .cpu
  | .wfi _ => .cpu
  | .brk _ _ => .cpu
  | .tlbi _ _ _ => .cpu
  | .tlbiAll _ _ => .cpu
  | .tlbsync _ => .cpu
  | .seal _ _ _ => .cpu
  | .ipi _ _ _ => .cpu
  | .dadd _ _ _ _ => .cpu
  | .dsub _ _ _ _ => .cpu
  | .dmul _ _ _ _ => .cpu
  | .ddiv _ _ _ _ => .cpu
  | .dfma _ _ _ _ => .cpu
  | .dsqrt _ _ _ => .cpu
  | .dcmp _ _ _ _ _ => .cpu
  | .dcvt _ _ _ _ => .cpu
  | .vdfma _ _ _ _ _ => .cpu
  | .fadd _ _ _ _ => .cpu
  | .fsub _ _ _ _ => .cpu
  | .fmul _ _ _ _ => .cpu
  | .fdiv _ _ _ _ => .cpu
  | .ffma _ _ _ _ => .cpu
  | .fmin _ _ _ _ => .cpu
  | .fmax _ _ _ _ => .cpu
  | .fabs _ _ _ => .cpu
  | .fneg _ _ _ => .cpu
  | .fsqrt _ _ _ => .cpu
  | .fcmp _ _ _ _ _ => .cpu
  | .fcvt _ _ _ _ => .cpu
  | .himm _ => .cpu
  | .hloc _ _ _ => .cpu
  | .hbr _ _ => .cpu
  | .hpri _ _ => .cpu
  | .hmu _ _ => .cpu
  | .hintReserved _ _ => .cpu
  | .ptbrWrite _ _ _ => .event
  | .sysctlPmWrite _ _ _ _ => .event
  | .progressModeApply _ _ _ => .event
  | .hxmboxLockRequest _ _ => .event
  | .hxmboxLockRelease _ => .event
  | .hxmboxDbiClear _ => .event
  | .interruptTaken _ _ => .event
  | .watchdogExpire _ _ _ => .event
  | .registerFillWake _ => .event
  | .feWordWake _ _ _ => .event
  | .watermarkWake _ _ => .event
  | .sleepWake _ => .event
  | .joinComplete _ => .event
  | .jwaitComplete _ => .event
  | .queueEntryFree _ => .event
  | .poolEntryFree _ => .event
  | .dSlotFree _ _ => .event
  | .depositArrive _ => .event
  | .depositLand _ => .event
  | .pushAccept _ => .event
  | .bankRead _ => .event
  | .bankWrite _ => .event
  | .bankAtomic _ => .event
  | .peerRequest _ => .event
  | .zenithCycle _ _ _ _ => .event
  | .drawRequest _ => .event
  | .vtStart _ => .event
  | .indexAssign _ => .event
  | .leaseResidencyCheck _ _ => .event
  | .readyBroadcast _ _ => .event
  | .contextChoose _ => .event
  | .residencyProbe _ _ => .event
  | .instanceEnd _ _ => .event
  | .engineStep _ _ => .event
  | .matrixCommandComplete _ _ _ => .event
  | .accumulatorClaim _ _ _ => .event
  | .copyCommandStart _ _ => .event
  | .copyComplete _ _ _ => .event
  | .xgComplete _ _ => .event
  | .jobComplete _ _ => .event
  | .detachedJobEnd _ _ => .event
  | .ringReservation _ _ _ => .event
  | .tlbiComplete _ _ => .event
  | .migrationGroupMove _ _ _ _ => .event
  | .migrationMessageArrive _ => .event
  | .migrationAdmit _ _ => .event
  | .inboxOverflow _ _ _ => .event
  | .heapReplay _ _ => .event
  | .backpressureRetry _ => .event
  | .probeToken _ => .event
  | .preempt _ _ _ _ => .event
  | .preemptImagesSaved _ _ _ => .event
  | .coreRelease _ _ _ => .event
  | .imageRestore _ _ => .event
  | .spillQueueAppend _ => .event
  | .npoolPush _ _ => .event
  | .npoolPop _ => .event
  | .fpoolPush _ _ => .event
  | .fpoolPop _ => .event
  | .exportOpen _ _ => .event
  | .exportRevoke _ _ _ => .event
  | .revocationDrained _ _ => .event
  | .importHandleWrite _ _ _ => .event
  | .importQuery _ _ => .event
  | .controlWindowWrite _ _ _ => .event
  | .eccEvent _ _ => .event
  | .linkCrcError _ _ => .event
  | .bridgeFence _ => .event
  | .chipletFence _ _ => .event
  | .chipletAdmit _ _ _ => .event
  | .modulePowerOn => .event
  | .sectorRelease _ => .event
  | .sectorResetOrderly _ => .event
  | .sectorResetForced _ => .event
  | .quiesceRequest _ _ => .event
  | .quiesceDone _ _ => .event
  | .quiesceTimeout _ _ => .event
  | .hxQuote _ => .event
  | .hxReadlog _ => .event
  | .hxTelem _ => .event
  | .hxFence _ => .event
  | .hxAdmit _ => .event
  | .hxSreset _ => .event
  | .hxNetcfg _ => .event
  | .hxPciecfg _ => .event
  | .hxPcap _ => .event
  | .horizonResponse _ => .event
  | .mgmtTelemetry => .event
  | .mgmtFirmware _ => .event
  | .mgmtBootReset _ _ _ _ => .event
  | .mgmtFence _ => .event
  | .mgmtPower _ _ => .event
  | .mgmtAttestation _ _ => .event
  | .clockStep _ _ => .event
  | .thermalTrip _ => .event
  | .railFault _ => .event
  | .rdmaWriteIn _ _ => .event
  | .rdmaReadIn _ _ => .event
  | .rdmaSendIn _ _ => .event
  | .pcieDescriptorRing _ => .event
  | .pcieDma _ _ => .event
  | .pcieMessageWrite _ _ => .event
  | .scratchpadFlitArrive _ _ _ => .event
  | .pcieCompletion _ _ _ _ => .event
  | .receiverNotReadyNak _ _ => .event

end Sys2Proof
end

