-- ==== Sys2Proof/Machine/State.lean ====
section
/-! DEFINITION. The state of the module: plain data, everything that the specification gives the machine, and the few
fields that are the model's own (log entries 1 and 2). -/

namespace Sys2Proof.Machine

/-! ## Why a step can stop -/

/-- Why the model stops without a next state. -/
inductive Fault where
  /-- `step` raises it: nothing is due, no context can issue and no input is left, so the machine waits for the
  outside world without limit. Safe: no state is claimed. -/
  | nothingDue
  deriving DecidableEq, Repr

/-- Why an instruction has no meaning here. -/
inductive Refusal where
  /-- Raised by the dispatcher for an instruction that has no meaning yet. Safe: no state is claimed. -/
  | notModelled (mnemonic : String)
  deriving DecidableEq, Repr

/-! ## Sparse maps -/

/-- A map from numbers with a value for every key: the listed keys rise strictly, and no listed value is the one that
an unlisted key reads as. -/
abbrev Sparse (α : Type) := List (Nat × α)

/-! ## Registers -/

/-- An s register (R13): its value, whether it is full, and whether a local write to it is outstanding (R14). -/
structure SReg where
  val : Word
  full : Bool
  claimed : Bool
  deriving DecidableEq, Repr

/-- A v register (R12, R15): void exactly when its tag is INV. -/
structure VReg where
  tag : Tag
  body : VBody
  side : Word
  deriving DecidableEq, Repr

/-- An m register (R12, R15). -/
structure MReg where
  val : Word
  void : Bool
  deriving DecidableEq, Repr

/-- A q register (R12, R15). -/
structure QReg where
  val : BitVec 128
  void : Bool
  deriving DecidableEq, Repr

/-- A fault of an instruction or of a job (R388, R391, R396): cause, subcause, address, job identifier (0 for none)
and the lowest faulting lane or element. -/
structure Flt where
  cause : Nat
  sub : Nat
  addr : Word
  job : Nat
  detail : Nat
  deriving DecidableEq, Repr

/-- A transaction in progress (R172, R173, R175). -/
structure Tx where
  depth : Nat
  regs : Vector SReg 16
  preds : Vector Bool 8
  dest : Fin 16
  resume : Word
  /-- Lines of the read set, oldest first. -/
  reads : List Nat
  /-- Lines of the write set, oldest first. -/
  writes : List Nat
  /-- The transactional bytes, by byte key. -/
  buf : Sparse (Option Byte)
  vs : List (Fin 16)
  ms : List (Fin 8)
  qs : List (Fin 4)
  /-- The deposited values that no instruction had read before the transaction (R325). -/
  unread : List (Fin 16)
  deriving DecidableEq, Repr

/-- The full/empty forms that park on a word (R146, R148). -/
inductive FeKind where
  | ldfe | ldff | stfe
  deriving DecidableEq, Repr

/-- The queues an issue can park on (R215, R267, R273). -/
inductive QueueKind where
  | engine | copy | jobs
  deriving DecidableEq, Repr

/-- Why an agent that is not parked cannot issue (R371): a wait by interlock, or a stall of issue until earlier work is
done. The holder of a core in mode Y keeps its role meanwhile. -/
inductive Wait where
  /-- A predicate whose write is outstanding (R121). -/
  | pred (k : Fin 8)
  /-- An s register for which a local write is outstanding (R13, R149). -/
  | result (d : Fin 16)
  /-- The agent's own outstanding accesses, as for a sync marker (R51, R311), and, if `engines`, its engine commands
  (R165). -/
  | drain (engines : Bool)
  /-- The agent's stores, pushes, deposits and atomics, which `fwait` waits for (R169). -/
  | stores
  /-- The agent's earlier releases, which an acquire waits for (R311). -/
  | releases
  /-- Every matrix command and `pgrun` that the context issued under its present Cirrus binding (R260, R263). -/
  | binding
  deriving DecidableEq, Repr

/-- Why a context or master core is parked (R373). -/
inductive Park where
  /-- A read of an empty s register. -/
  | reg (r : Fin 16)
  /-- `ldfe`, `ldff` or `stfe` on a scratchpad word: the word's key, the form, its data register and its place in the
  order of parking (R148). -/
  | fe (word : Nat) (kind : FeKind) (d : Fin 16) (order : Nat)
  /-- A read of scratchpad bytes at or above a channel's watermark (R24): the offset past the last byte read. -/
  | mark (cl : Nat) (off len : Nat)
  /-- `sleep`: the watched word's home sector, address space and address there, and the address that names it (R168). -/
  | sleep (sec asid va : Nat) (ea : Word)
  /-- `join` on an instance. -/
  | join (uid : Nat) (d : Fin 16)
  /-- `jwait` on a job. -/
  | jwait (job : Nat) (d : Fin 16)
  /-- A full engine, copy or job-record queue. -/
  | queue (kind : QueueKind)
  /-- `spawn` or `spawnn` without a free pool entry (R361): the instance that it will create, from the record that it
  has read (R152), and the handle register. -/
  | pool (uid : Nat) (d : Fin 16)
  /-- `spawn` or `spawnn` in WAITIDX: the instance and the handle register (R361). -/
  | index (uid : Nat) (d : Fin 16)
  /-- A D-extension instruction without a free slot on core 6 or 7 (R68). -/
  | dslot
  /-- `mxcfg` and `mxrel`, until every matrix command and `pgrun` of the context has completed (R223, R228). -/
  | commands
  /-- `pginv` while its run is in progress (R264): the result register. -/
  | pginv (d : Fin 16)
  /-- A fault that is recorded (R395), and the address behind the faulting instruction (R399). -/
  | fault (next : Word)
  /-- `wfi` (R299). -/
  | wfi
  /-- `tlbsync`, until the master core's invalidations are complete (R301). -/
  | tlbis
  deriving DecidableEq, Repr

/-- The registers of an agent (R12, R26) and the state of its issue. -/
structure Hart where
  s : Vector SReg 16
  p : Vector Bool 8
  /-- An outstanding predicate write (R121, R157). -/
  pBusy : Vector Bool 8
  v : Vector VReg 16
  m : Vector MReg 8
  q : Vector QReg 4
  pc : Word
  fmode : Word
  fflags : Word
  srseed : Word
  instret : Word
  /-- The payloads of the `himm` words met so far, first to last (R61). -/
  chain : List (BitVec 21)
  /-- The address of the first of them (R62). -/
  chainPc : Word
  tx : Option Tx
  park : Option Park
  /-- The wait that a sync marker asks for (R51). -/
  sWait : Bool
  /-- Request class (R64). -/
  hpri : Fin 4
  /-- How many `fpush` the agent has executed (R170). -/
  pushEpoch : Nat
  /-- The next job identifier (R266). -/
  jobCtr : BitVec 16
  /-- The place in the sector's write record at the latest acquire (R124). -/
  roSeq : Nat
  /-- The s registers that hold a deposited value which no instruction has read (R325). -/
  unread : List (Fin 16)
  /-- The places in the write record of the latest reads of open channels by the vt's matrix commands and by those of
  its Cirrus binding, which become acquires of the vt once an instruction has waited for them (R306, R324). -/
  engSeq : Nat × Nat
  /-- What the next instruction waits for without being parked (R121, R371). -/
  wait : Option Wait
  deriving DecidableEq, Repr

/-- An asynchronous event pending at a master core (R392): its subcause and EADDR. -/
structure Pending where
  sub : Nat
  addr : Word
  deriving DecidableEq, Repr

/-- A master core's own state (R26, R32 to R35, R38, R392). -/
structure Master where
  asid : BitVec 16
  evec : Word
  epc : Word
  ecause : Word
  eaddr : Word
  estat : Word
  escratch : Word
  /-- Privilege: sys level or app level (R38). -/
  sys : Bool
  ie : Bool
  tsel : BitVec 10
  csel : BitVec 7
  /-- Pending IRQ subcauses (R394). -/
  irqs : Sparse (Option Word)
  /-- Pending CHL: its chiplet and handle (R392, R410). -/
  chl : Option Pending
  /-- The instance most recently created by `spawn` here, for the Z forms (R158). -/
  lastInst : Option Nat
  /-- Its final Zenith values once it has been joined (R21, R154). -/
  finalZ : Option (Vector Word 16)
  /-- Invalidations started by `tlbi` and not complete (R301). -/
  tlbis : List Nat
  /-- The place in the sector's write record that instruction fetch sees (R130). -/
  codeSeq : Nat
  /-- A `fence` since the last control transfer (R130). -/
  fenced : Bool
  deriving DecidableEq, Repr

/-! ## Thread contexts -/

/-- The name of a virtual thread: its instance and number. -/
structure VtName where
  uid : Nat
  n : Nat
  deriving DecidableEq, Repr

/-- What a context holds (R8, R162, R364). -/
inductive Holding where
  /-- No instance. -/
  | released
  /-- Bound to an instance and waiting to draw a number. -/
  | bound (uid : Nat)
  /-- A number has been drawn and the vt has not begun (R44). -/
  | drawn (uid n : Nat)
  /-- A virtual thread. -/
  | running (vt : VtName)
  deriving DecidableEq, Repr

/-- A thread context's own state beside its registers. -/
structure Ctx where
  holds : Holding
  /-- The vt away from home for which this home slot is kept (R162). -/
  reserved : Option VtName
  /-- The origin slot of an extension migration (R68). -/
  extFrom : Option Nat
  /-- The instance for which the slot itself draws once its migrant has left (R68). -/
  drawAfter : Option Nat
  vtn : Word
  sph : Word
  homec : Word
  /-- Accumulator binding (R12, R18, R226): bound, live bits of a0 and a1, and the INT32 format, which follows the
  matrix configuration. -/
  accBound : Bool
  accLive : Vector Bool 2
  accInt : Bool
  /-- Cirrus and digest bindings (R12, R20). -/
  cirrus : Option (Fin 8)
  digest : Option (Fin 8)
  /-- The matrix configuration: configuration and stride words (R222, R225). -/
  mxcfg : Option (Word × Word)
  /-- The next outgoing sequence number of the home context (R167). -/
  seq : BitVec 16
  deriving DecidableEq, Repr

/-! ## Memory -/

/-- The permission bits that an LLC line holds (R343). -/
structure Perm where
  rd : Bool
  w : Bool
  x : Bool
  u : Bool
  nc : Bool
  deriving DecidableEq, Repr

/-- Replacement classes (R64, R330). -/
inductive LineClass where
  | stream | normal | keep
  deriving DecidableEq, Repr

/-- A line of the LLC (R329, R330, R343): its 128 bytes from the lowest address up. -/
structure Line where
  data : List Byte
  dirty : Bool
  cls : LineClass
  age : Nat
  perm : Perm
  poison : Bool
  deriving DecidableEq, Repr

/-- A copy of an LLC line in a master core's L2, and in its L1 caches (R334, R335): the core, the bytes, and the
permission bits taken from the LLC with the line (R343). -/
structure Copy where
  core : Fin 16
  data : List Byte
  perm : Perm
  l1i : Bool
  l1d : Bool
  order : Nat
  deriving DecidableEq, Repr

/-- The race state of a granule (R321). -/
inductive Race where
  | rd (n : Nat) | rdm | wr (n : Nat)
  deriving DecidableEq, Repr

/-- The access tags and transactional marks of a line, whether it is held or spilled (R333). -/
structure Marks where
  /-- Per granule 0 to 7: the tag instance and its state; absent means NONE. -/
  gran : Sparse (Option (Nat × Race))
  writer : Option Agent
  /-- Reading transactions, oldest first. -/
  readers : List Agent
  deriving DecidableEq, Repr

/-- A cached translation (R345): the frame's physical address and the leaf's bits. -/
structure Tlb where
  pa : Nat
  perm : Perm
  m : Bool
  c : Bool
  block : Bool
  order : Nat
  deriving DecidableEq, Repr

/-- A table entry that a walker has cached (R345). -/
structure Walk where
  entry : Nat
  order : Nat
  deriving DecidableEq, Repr

/-! ## Instances and jobs -/

/-- The fields of a spawn record (R39). -/
structure SpawnRec where
  addr : Nat
  entry : Word
  count : Nat
  first : Nat
  clusters : Nat
  perCore : Nat
  mask : Nat
  prio : Nat
  domain : Nat
  chk : Bool
  re : Bool
  nest : Bool
  save : Nat
  deriving DecidableEq, Repr

/-- The states of a pool entry (R361). -/
inductive Phase where
  | waitIdx | lease | ready | drained | ended
  deriving DecidableEq, Repr

/-- Final statuses (R150). -/
inductive Final where
  | done | aborted | lost
  deriving DecidableEq, Repr

/-- The owner of an instance (R151): a master core or a vt. -/
inductive Owner where
  | master (n : Fin 16)
  | vt (v : VtName)
  /-- An owner that no longer exists: no agent can join the instance (R9, R386). -/
  | gone
  deriving DecidableEq, Repr

/-- A drawn vt that has not finished (R153): its number, home context, and the context that runs it (none while it is
in a message, an inbox, a heap or a saved image). -/
structure Vt where
  n : Nat
  home : Nat
  running : Option Nat
  deriving DecidableEq, Repr

/-- A spawn instance: its pool entry (R361) and everything it owns (R8, R21, R362, R363). -/
structure Inst where
  uid : Nat
  idx : Option (Fin 64)
  handle : Word
  rcd : SpawnRec
  asid : BitVec 16
  owner : Owner
  /-- The master core of the tree's top-level spawn (R394). -/
  top : Fin 16
  /-- The instance whose vt created this one. -/
  parent : Option Nat
  /-- The lease set: base and length (R347). -/
  leases : List (Nat × Nat)
  /-- The base of the first entry of the lease list: the residency probe (R365). -/
  probe : Option Nat
  z : Vector Word 16
  regs : Vector Word 12
  fmode : Word
  srseed : Word
  /-- Race checking is in force (R34, R320). -/
  chk : Bool
  phase : Phase
  /-- The next page of the residency check (R348). -/
  leasePage : Nat
  draw : Nat
  replay : List Nat
  vts : List Vt
  aborted : Bool
  lost : Bool
  final : Option Final
  /-- The order in which it became READY (R364), the bypass count (R366), the latest probe (R365). -/
  readySeq : Nat
  bypass : Nat
  probeHit : Bool
  /-- Clusters that keep the broadcast message (R362). -/
  broadcast : Bool
  /-- The place in the sector's write record that instruction fetch of its vts sees (R130). -/
  codeSeq : Nat
  /-- An OVFL notification has been sent in the present refusal episode (R381). -/
  ovfl : Bool
  /-- The overflow heap has been written (R379). -/
  heapUsed : Bool
  deriving DecidableEq, Repr

/-- The owner of a Cirrus or digest slot or of an accumulator slot (R18, R210, R242). -/
structure SlotOwner where
  asid : BitVec 16
  uid : Nat
  home : Nat
  deriving DecidableEq, Repr

/-- A job record (R266 to R269). -/
structure Job where
  running : Bool
  /-- The command has not been started by its unit (R269). -/
  queued : Bool
  /-- Status byte (R268) and the 56 bits above it. -/
  status : Nat
  info : Nat
  flt : Option Flt
  reported : Bool
  /-- The vt that issued it; none for a master core. -/
  vt : Option VtName
  detached : Bool
  /-- The order of creation, for the freeing of the oldest (R267). -/
  order : Nat
  deriving DecidableEq, Repr

/-- Who a command acts for (R305): its issuer, address space, vt and job. -/
structure Actor where
  agent : Agent
  asid : BitVec 16
  /-- The vt and its home context's index; none on a master core. -/
  vt : Option VtName
  home : Nat
  sys : Bool
  /-- The identifier of the job, 0 for none, and its place in the order of creation. -/
  job : Nat
  seq : Nat
  epoch : Nat
  /-- Accesses of the issuer with a number below this one come before the command (R311). -/
  after : Nat
  deriving DecidableEq, Repr

/-! ## Messages -/

/-- A migration message (R166) with what the fabric needs to deliver it. -/
structure Migration where
  regs : Vector Word 16
  pc : Word
  srseed : Word
  fflags : Word
  fmode : Word
  preds : Vector Bool 8
  hpri : Fin 4
  vt : VtName
  home : Nat
  seq : BitVec 16
  bound : Bool
  from_ : Nat
  /-- The place in the write record at the latest acquire (R124), and the deposited values not read (R325). -/
  roSeq : Nat
  unread : List (Fin 16)
  deriving DecidableEq, Repr

/-- What travels to a cluster (R14, R166, R170). -/
inductive Parcel where
  /-- Bytes for the scratchpad: offset, bytes, and the words whose bytes the command completes (R279). -/
  | push (off : Nat) (data : List Byte)
  /-- A deposit: context within the sector, register and value. -/
  | deposit (ctx : Fin 6144) (reg : Fin 16) (val : Word)
  | migrate (m : Migration)
  deriving DecidableEq, Repr

/-- A message in flight to a cluster of a sector, or waiting there. -/
structure Flight where
  id : Nat
  sec : Sec
  cl : Fin 96
  actor : Actor
  body : Parcel
  /-- It is a release: a deposit, or a release store (R308). -/
  rel : Bool
  /-- The order in which it reached its cluster (R14); absent on the way. -/
  arrived : Option Nat
  /-- The vt for which a deposit that cannot land yet is kept (R14); absent before it has reached its context. -/
  kept : Option VtName
  deriving DecidableEq, Repr

/-- A message that stands as a record in an overflow heap or in the spill queue (R379, R406): the heap's instance, none
for the spill queue; the record's number; and the message, for which its issuer still waits. -/
structure Stored where
  heap : Option Nat
  number : Nat
  flight : Flight
  deriving DecidableEq, Repr

/-- A probe token (R382): the cluster it names, where it is, and its hops. -/
structure Token where
  id : Nat
  sec : Sec
  name : Fin 96
  at_ : Fin 96
  hops : Nat
  deriving DecidableEq, Repr

/-- What a Zenith request does (R157). -/
inductive ZOp where
  | add (v : Word) | addBounded (v limit : Word) (k : Fin 8) | set (v : Word) | get
  deriving DecidableEq, Repr

/-- A Zenith request (R157, R159): its issuer, instance, register, operation and result register. -/
structure ZReq where
  id : Nat
  sec : Sec
  agent : Agent
  /-- The vt that issued it; none for a master core. -/
  vt : Option VtName
  uid : Nat
  z : Fin 16
  op : ZOp
  d : Option (Fin 16)
  /-- It is a release, an acquire (R308). -/
  rel : Bool
  acq : Bool
  deriving DecidableEq, Repr

/-! ## Clusters -/

/-- A receive channel (R23). -/
structure Channel where
  isOpen : Bool
  base : Nat
  len : Nat
  wm : Nat
  deriving DecidableEq, Repr

/-- A thread core: progress mode, role and pre-emption (R34, R369 to R372, R401). -/
structure CoreSt where
  modeY : Bool
  /-- A mode written and not yet in effect (R369). -/
  next : Option Bool
  holder : Option (Fin 8)
  /-- The slot that held the role last (R371). -/
  last : Fin 8
  watchdog : Nat
  /-- Stopped by pre-emption, and the issuer of the `ipi`. -/
  stopped : Option (Fin 16)
  /-- The images have been written and PREEMPTED sent. -/
  saved : Bool
  /-- The accumulators that are live of vts that have ended and left commands in the core's queue (R226, R269). -/
  orphans : List (VtName × Fin 2)
  deriving DecidableEq, Repr

/-- The sequence window of one origin (R167): the highest number and the marked numbers among the last 256. -/
structure Window where
  high : BitVec 16
  marks : List (BitVec 16)
  deriving DecidableEq, Repr

/-- A slot of the Cirrus generator (R242). -/
structure CirrusSlot where
  owner : Option SlotOwner
  prog : List Nat
  inv : Option Nat
  k : Vector (BitVec 32) 8
  par0 : BitVec 32
  par1 : BitVec 32
  nr : BitVec 32
  nc : BitVec 32
  deriving DecidableEq, Repr

/-- A slot of the digest unit (R210): the bytes absorbed stand for the sponge. -/
structure DigestSlot where
  owner : Option SlotOwner
  bytes : List Byte
  sid : Option Word
  lsid : Word
  deriving DecidableEq, Repr

/-- The commands of the matrix engine's queues (R215, R262). -/
inductive MxOp where
  | zero | save | rest | mm | mmg | mms | mmgs | st | stq | scale | run
  deriving DecidableEq, Repr

/-- A queued matrix command or `pgrun` with what it captured at issue (R215 to R240, R262). -/
structure MxCmd where
  op : MxOp
  actor : Actor
  n : Fin 2
  z : Bool
  a : Word
  a2 : Word
  b : Word
  b2 : Word
  fmt : Nat
  cfg : Word × Word
  fmode : Word
  seed : Word
  /-- The row-index list of a gathered A (R230), and the eight words of a shape record (R235). -/
  rows : List Nat
  shape : List Nat
  /-- The parameters of the bound Cirrus slot, read at issue (R244). -/
  slot : Option CirrusSlot
  /-- Array time still to be granted, in cycles; absent until the command has started (R375). -/
  left : Option Nat
  /-- The enumerated blocks of a sparse command: u, v and rank; the row ranks read so far (R256): u, first, next. -/
  blocks : List (Nat × Nat × Nat)
  ranks : List (Nat × Nat × Nat)
  /-- The number of that slot: the binding under which the command was issued (R260). -/
  bind_ : Option (Fin 8)
  /-- Scratchpad bytes that the enumeration waits for (R24): offset and length. -/
  wait : Option (Nat × Nat)
  enumerated : Bool
  /-- The first fault of the enumeration (R257). -/
  flt : Option Flt
  deriving DecidableEq, Repr

/-- The copy unit's commands (R271). -/
inductive CpOp where
  | send | sendm | fetch | flush | sendg
  deriving DecidableEq, Repr

/-- A reserved record of a receive ring (R281, R282): its offset and number, and the ring's data area. -/
structure RingSlot where
  off : Nat
  q : Nat
  data : Nat
  size : Nat
  deriving DecidableEq, Repr

/-- A copy command (R273 to R283). -/
structure CpCmd where
  id : Nat
  op : CpOp
  actor : Actor
  core : Fin 8
  /-- Pc and word of the instruction that issued it, for the remainder descriptor (R396). -/
  pc : Word
  instr : BitVec 32
  dst : Word
  src : Word
  len : Nat
  pk : Bool
  /-- The clusters of `sendm`. -/
  set : List Nat
  /-- The flits not yet moved: offset and length. -/
  todo : List (Nat × Nat)
  /-- Bytes moved and not yet accepted; 1 for a `sendg` that is not finished. -/
  unaccepted : Nat
  /-- The page at which a copy stops PARTIAL (R277): the failure, with the address of the resume point. -/
  stop : Option Flt
  flt : Option Flt
  /-- `sendg`: the reservation (R282), and the bytes of the record's payload that have been moved. -/
  ring : Option RingSlot
  got : List Byte
  full : Bool
  deriving DecidableEq, Repr

/-- Accumulator slot tag (R18): the owner, and whether the owner's contents are live. -/
structure AccTag where
  owner : SlotOwner
  live : Bool
  deriving DecidableEq, Repr

/-- A cluster: the state that belongs to it and not to a context. -/
structure Cluster where
  channels : Vector Channel 16
  cores : Vector CoreSt 8
  /-- D cores fused off (R28). -/
  dFused : Bool
  migdup : BitVec 32
  weights : BitVec 32
  cirrus : Vector CirrusSlot 8
  digest : Vector DigestSlot 8
  /-- Matrix queues, by core, head first; the queue and remaining steps of the present visit (R375). -/
  mx : Vector (List MxCmd) 8
  visit : Fin 8
  stepsLeft : Nat
  /-- Cycles left of the present step (R375). -/
  budget : Nat
  /-- Owner tags of a0 and a1 of each core (R18). -/
  accTags : Vector (Vector (Option AccTag) 2) 8
  /-- Copy queues by core, head first; running commands; the queue last started from (R273, R376). -/
  cp : Vector (List CpCmd) 8
  cpRunning : List CpCmd
  cpLast : Fin 8
  /-- Migration inbox, receive inbox, reserve buffer, oldest first (R377, R382). -/
  migInbox : List Flight
  recvInbox : List Flight
  reserveBuf : List Flight
  windows : Sparse (Option Window)
  /-- The order in which contexts have parked on words (R148). -/
  parkOrder : Nat
  deriving DecidableEq, Repr

/-! ## Sectors -/

/-- A translation root (R339). -/
structure Root where
  root : Nat
  v : Bool
  deriving DecidableEq, Repr

/-- A sealed region (R302, R303): its pages' frames as they were at the seal. -/
structure SealRegion where
  id : Nat
  asid : BitVec 16
  base : Nat
  len : Nat
  frames : List (Nat × Nat)
  deriving DecidableEq, Repr

/-- An export entry (R355). -/
structure Export where
  base : Nat
  len : Nat
  asid : BitVec 16
  rd : Bool
  wr : Bool
  valid : Bool
  busy : Bool
  gen : BitVec 16
  deriving DecidableEq, Repr

/-- An import slot (R356). -/
structure Import where
  handle : Word
  valid : Bool
  err : Bool
  rd : Bool
  wr : Bool
  len : Nat
  deriving DecidableEq, Repr

/-- An invalidation in progress (R300, R301). -/
structure Tlbi where
  id : Nat
  asid : BitVec 16
  base : Nat
  len : Nat
  all : Bool
  deriving DecidableEq, Repr

/-- A saved image in an instance's resume list (R404). -/
structure Saved where
  uid : Nat
  idx : Nat
  vt : VtName
  needsD : Bool
  /-- The slot that it ran on, by which its fault record and deposits name it. -/
  ran : Nat
  /-- Parked on a fault, and the address behind the faulting instruction (R399, R404). -/
  fault : Option Word
  /-- Its place in the sector's write record at its latest acquire (R124), the deposited values not read (R325), and the
  reads of its commands in open channels (R324), and the count of its `fpush` (R170). -/
  roSeq : Nat
  unread : List (Fin 16)
  engSeq : Nat × Nat
  epoch : Nat
  order : Nat
  deriving DecidableEq, Repr

/-- An asynchronous lease, write-back, migration or network job (R288, R291 to R293), or a gather or scatter. -/
inductive AsyncKind where
  | lease | llcwb | pmig (far : Bool) | nsend (op port queue : Nat) (remote key : Nat)
  | xgat | xsct | xsctadd (f32 : Bool)
  deriving DecidableEq, Repr

/-- A job that a Stratus unit runs. -/
structure Async where
  id : Nat
  kind : AsyncKind
  actor : Actor
  /-- The unit has begun it (R155). -/
  started : Bool
  /-- Pc and word of the instruction that issued it, for the remainder descriptor (R396). -/
  pc : Word
  instr : BitVec 32
  base : Nat
  len : Nat
  /-- Scratchpad side, index list, element size and index width of a gather or scatter. -/
  side : Word
  list : Word
  size : Nat
  wide : Bool
  /-- Elements not yet performed. -/
  todo : List Nat
  flt : Option Flt
  /-- Groups moved by `pmig` or the syndrome of a refusal. -/
  count : Nat
  deriving DecidableEq, Repr

/-- What a request of a unit does at its home (R309, R332). -/
inductive BankOp where
  | read | write
  /-- An added element (R285): its size, or FP32. -/
  | add (f32 : Bool)
  /-- A ring record (R282). -/
  | record
  deriving DecidableEq, Repr

/-- A request of a copy unit or gather unit on its way to a home bank or over a peer window (R309, R332, R357): the
command, the flit's offset or the element's number, the address, and the bytes. -/
structure BankReq where
  id : Nat
  sec : Sec
  cl : Fin 96
  actor : Actor
  copy : Bool
  cmd : Nat
  elem : Nat
  ea : Nat
  len : Nat
  op : BankOp
  data : List Byte
  /-- The ranges of a ring record in its data area; none for another request. -/
  spans : List (Nat × Nat)
  /-- The bytes have been read and are on their way back. -/
  back : Bool
  deriving DecidableEq, Repr

/-- A held ring record (R283): the port of the home that received it, the home's address space, the record's number, the
virtual address of its offset o, and the bytes to be written with their addresses, the number's word last. -/
structure HeldRecord where
  port : Nat
  asid : BitVec 16
  q : Nat
  va : Nat
  segs : List (Nat × List Byte)
  deriving DecidableEq, Repr

/-- The state of a sector in the boot and reset sequences (R415, R416, R420): held in reset, booted and not released,
running, stopped while the work that it has accepted completes, for an orderly or a forced reset, or resetting in order
with the neighbours that have not answered. -/
inductive Power where
  | down | ready | running
  | settling (forced : Bool)
  | resetting (waiting : List Sec)
  deriving DecidableEq, Repr

/-- A request for a sector that Horizon has received and executes when the release or reset under way is over (R426): a
fence and whether the management port answers it, an admission with its entry address, a reset and whether it is forced
and scrubs memory. -/
inductive Later where
  | fence (ch : Fin 4) (answer : Bool)
  | readmit (ch : Fin 4) (entry : Word)
  | reset (forced scrub : Bool)
  deriving DecidableEq, Repr

/-- The root port's answer to a DMA access (R435). -/
inductive DmaReply where
  | success | unsupported | abort
  deriving DecidableEq, Repr

/-- What the network ports answer to a request from the network (R303, R433, R434). -/
inductive NetReply where
  | accepted (data : List Byte)
  | remoteAccess
  | notReady
  deriving DecidableEq, Repr

/-- Counters of the telemetry record (R425). -/
structure Telemetry where
  soft : Nat
  correctable : Nat
  uncorrectable : Nat
  retries : Nat
  deriving DecidableEq, Repr

/-- A mailbox request that has been carried out and not answered (R423): the response word, and the response body as
offsets in the mailbox page and bytes. -/
structure HxResponse where
  word : BitVec 32
  body : List (Nat × List Byte)
  deriving DecidableEq, Repr

/-- A sector's own state. -/
structure Sector where
  power : Power
  /-- The boot image's slot, and whether the reset that has been asked for scrubs memory (R424). -/
  bootSlot : Nat
  scrub : Bool
  /-- Requests that wait for the end of a release or reset, oldest first (R426). -/
  later : List Later
  rce : Bool
  ovp : Bool
  /-- SPILLQ and DGLOGB as stored (R36). -/
  spillq : Word
  dglogb : Word
  /-- HXMBOX (R37). -/
  hxLock : Bool
  hxHorizon : Bool
  hxDbi : Bool
  hxDbo : Bool
  hxIn : BitVec 32
  hxOut : BitVec 32
  /-- The word that Horizon has still to take, and a request for the lock that has not been granted. -/
  hxSent : BitVec 32
  hxWant : Bool
  /-- Mailbox requests that have not been answered, oldest first (R423). -/
  hxResps : List HxResponse
  /-- Digest log: write offset and sequence counter (R213). -/
  dgP : Nat
  dgSeq : Nat
  roots : Sparse Root
  tlb : Sparse (Option Tlb)
  tlbOrder : Nat
  /-- Table entries cached by the controllers' walkers (R345). -/
  walker : Sparse (Option Walk)
  lineAge : Nat
  insts : List Inst
  /-- Instances whose `spawn` is parked on the full pool, oldest first (R152, R361). -/
  poolWait : List Inst
  readySeq : Nat
  jobs : Sparse (Option Job)
  jobOrder : Nat
  /-- Jobs that run on without a record after the `done` of their vt, by order of creation (R269). -/
  jobsLeft : List Nat
  asyncs : List Async
  /-- Master lease sets by ASID (R288). -/
  masterLeases : Sparse (List (Nat × Nat))
  seals : List SealRegion
  sealCount : Nat
  mrb : BitVec 256
  mrs : BitVec 256
  mlog : List (List Byte)
  npool : List Nat
  fpool : List Nat
  exports : Sparse Export
  imports : Sparse Import
  tlbis : List Tlbi
  /-- Saved images (R404), oldest first. -/
  saved : List Saved
  savedOrder : Nat
  spillFull : Bool
  /-- Messages refused with back-pressure (R381). -/
  refused : List Flight
  /-- Messages that stand as records in memory. -/
  stored : List Stored
  held : List HeldRecord
  /-- AREA notifications of the present episode (R459). -/
  areaSeen : List Nat
  /-- Physical lines that are poisoned, scratchpad words and LLC lines with a lasting error (R408). -/
  poison : List Nat
  badWords : List Nat
  /-- Physical lines whose device fails a write (R409). -/
  badDevice : List Nat
  /-- The entries in use of the access-tag spill store (R333): line key and entry number. -/
  spillStore : List (Nat × Nat)
  /-- Fenced chiplets; chiplets held in reset (R417). -/
  fenced : Vector Bool 4
  /-- Network (R432 to R434): the table's physical base, the table as the engines loaded it last, and by receive queue
  how many buffers have been filled and how many completion entries consumed. -/
  netBase : Option Nat
  netTable : Sparse Byte
  rxDone : Sparse Nat
  rxTaken : Sparse Nat
  /-- Answers to requests from the network, newest first (R433, R434). -/
  netReplies : List NetReply
  /-- PCIe (R435): ring base, DMA ASID, message address, the descriptors begun, those that have not been answered, and
  the answers to DMA accesses, newest first. -/
  pcieRing : Nat
  pcieAsid : BitVec 16
  pcieMsg : Nat
  pcieHead : Nat
  pcieOut : List Nat
  pcieReplies : List (DmaReply × List Byte)
  telemetry : Telemetry
  /-- Power cap in units of 10 W and core clock in MHz (R424, R437). -/
  cap : Nat
  clock : Nat
  /-- The record of overwritten bytes of application space (sequence, byte key, old byte), newest first: what
  instruction fetch still sees (R130). -/
  wlog : List (Nat × Nat × Byte)
  deriving DecidableEq, Repr

/-- A staged firmware image (R422, R427). -/
structure Image where
  kind : Nat
  version : Nat
  verified : Bool
  bytes : List Byte
  deriving DecidableEq, Repr

/-- Horizon (R422 to R430). -/
structure Horizon where
  images : Sparse (Option Image)
  /-- Rollback counters by kind (R427). -/
  rollback : Sparse Nat
  /-- Answers of the management port, newest first. -/
  reports : List (List Byte)
  /-- The version of the firmware that Horizon runs (R430). -/
  running : Nat
  deriving DecidableEq, Repr

/-! ## The generator and the order of steps -/

/-- What a run of the Cirrus generator is for (R254, R255, R262, R264). -/
inductive GenFor where
  /-- The enumeration of the command at the head of a core's matrix queue. -/
  | command (x : Sec) (cl : Fin 96) (co : Fin 8)
  /-- A `pgrun` at the head of a core's matrix queue. -/
  | list (x : Sec) (cl : Fin 96) (co : Fin 8)
  /-- A `pginv` of a context: its result register and its word, and the register before, which a fault restores, with
  whether it held an unread deposit. -/
  | query (g : Agent) (d : Fin 16) (w : BitVec 32) (was : SReg) (unread : Bool)
  deriving DecidableEq, Repr

/-- A run in progress (R250 to R253). -/
structure GenRun where
  for_ : GenFor
  slot : CirrusSlot
  inverse : Bool
  c : Vector (BitVec 32) 8
  index : Nat
  u : Nat
  vlo : Nat
  vhi : Nat
  v : Nat
  /-- Row-rank entries u and u + 1, when a table is in use (R256). -/
  rank : Option (Nat × Nat)
  /-- Steps spent by the operation so far (R251). -/
  steps : Nat
  prev : Option (Nat × Nat)
  /-- The answer of an inverse run. -/
  answer : Option Nat
  /-- Entries that a `pgrun` has written. -/
  written : Nat
  ended : Bool
  flt : Option Nat
  deriving DecidableEq, Repr

/-- The steps of the machine that are due. -/
inductive Due where
  | interruptTaken (x : Sec) (n : Fin 16)
  | registerFillWake (g : Agent)
  | feWordWake (x : Sec) (cl : Fin 96) (word : Fin 262144)
  | watermarkWake (x : Sec) (cl : Fin 96)
  | sleepWake (g : Agent)
  | joinComplete (g : Agent)
  | jwaitComplete (g : Agent)
  | queueEntryFree (g : Agent)
  | poolEntryFree (x : Sec)
  | dSlotFree (x : Sec) (cl : Fin 96)
  | depositArrive (id : Nat)
  | depositLand (id : Nat)
  | pushAccept (id : Nat)
  | bankRead (id : Nat)
  | bankWrite (id : Nat)
  | bankAtomic (id : Nat)
  | peerRequest (id : Nat)
  | zenithCycle (x : Sec) (uid : Nat) (z : Fin 16) (order : List Nat)
  | drawRequest (g : Agent)
  | vtStart (g : Agent)
  | indexAssign (x : Sec)
  | leaseResidencyCheck (x : Sec) (uid : Nat)
  | readyBroadcast (x : Sec) (uid : Nat)
  | contextChoose (g : Agent)
  | instanceEnd (x : Sec) (uid : Nat)
  | engineStep (x : Sec) (cl : Fin 96)
  | matrixCommandComplete (x : Sec) (cl : Fin 96) (co : Fin 8)
  | accumulatorClaim (x : Sec) (home : Fin 6144) (slot : Fin 2)
  | cirrus (word : Nat)
  | copyCommandStart (x : Sec) (cl : Fin 96)
  | copyComplete (x : Sec) (cl : Fin 96) (id : Nat)
  | flitArrive (x : Sec) (cl : Fin 96) (id : Nat)
  | ringReservation (x : Sec) (cl : Fin 96) (id : Nat)
  | xgComplete (x : Sec) (id : Nat)
  | jobComplete (x : Sec) (id : Nat)
  | detachedJobEnd (x : Sec) (key : Nat)
  | tlbiComplete (x : Sec) (id : Nat)
  | migrationGroupMove (x : Sec) (asid : BitVec 16) (va : Word) (far : Bool)
  | migrationMessageArrive (id : Nat)
  | migrationAdmit (x : Sec) (cl : Fin 96)
  | inboxOverflow (x : Sec) (cl : Fin 96) (id : Nat)
  | heapReplay (x : Sec) (cl : Fin 96)
  | backpressureRetry (id : Nat)
  | probeToken (id : Nat)
  | progressModeApply (x : Sec) (cl : Fin 96) (co : Fin 8)
  | preempt (x : Sec) (cl : Fin 96) (co : Fin 8) (issuer : Fin 16)
  | preemptImagesSaved (x : Sec) (cl : Fin 96) (co : Fin 8)
  | coreRelease (x : Sec) (cl : Fin 96) (co : Fin 8)
  | imageRestore (x : Sec) (idx : Fin 6144)
  | spillQueueAppend (id : Nat)
  | revocationDrained (x : Sec) (e : Fin 4096)
  | importQuery (x : Sec) (slot : Fin 256)
  | chipletFence (x : Sec) (ch : Fin 4)
  | bridgeFence (b : Fin 6)
  | sectorRelease (x : Sec)
  | sectorResetForced (x : Sec)
  | sectorResetOrderly (x : Sec)
  | quiesceRequest (x n : Sec)
  | quiesceDone (x n : Sec)
  | quiesceTimeout (x n : Sec)
  | hx (x : Sec) (cmd : Fin 9)
  | horizonResponse (x : Sec)
  | pcieDescriptorRing (x : Sec)
  deriving DecidableEq, Repr

/-- One entry of the input tape (log entry 1): which due step comes next, which agent issues next, or an event from
outside. -/
inductive Turn where
  | due (k : Nat)
  | agent (g : Agent)
  | event (i : Instr)
  deriving DecidableEq, Repr

/-- The state of the module. -/
structure State where
  /-- Model: the agent whose instruction is being executed, and its word. -/
  cur : Agent
  curWord : BitVec 32
  /-- Model: the round of agents, the steps that are due, the input tape, the counters (log entries 1 and 2). -/
  turns : List Agent
  agenda : List Due
  tape : List Turn
  freeCtr : Nat
  nextId : Nat
  /-- The count of writes to application space of any sector: the moments of the records of overwritten bytes (R124,
  R130). -/
  wseq : Nat
  /-- Registers of every agent, by agent key. -/
  harts : Sparse Hart
  masters : Sparse Master
  ctxs : Sparse Ctx
  clusters : Sparse Cluster
  sectors : Vector Sector 4
  /-- Scratchpad bytes, words that are empty (R22), words with an arrival mark (R279), by key. -/
  spad : Sparse Byte
  spadEmpty : Sparse Bool
  spadMarks : Sparse Bool
  /-- Accumulator elements (R18), by key. -/
  accs : Sparse (BitVec 32)
  /-- Physical memory (R336), by key. -/
  mem : Sparse Byte
  /-- LLC lines and their tags, by line key (R329, R333). -/
  llc : Sparse (Option Line)
  /-- The Stratus directory: the copies of each line in the master cores' caches, by line key (R334, R335). -/
  copies : Sparse (List Copy)
  marks : Sparse Marks
  /-- Messages in flight, in the order of issue. -/
  flight : List Flight
  tokens : List Token
  /-- Requests of copy and gather units that have not been served. -/
  bankq : List BankReq
  /-- Zenith requests not yet combined (R159), by order of issue. -/
  zreqs : List ZReq
  /-- The run of a Cirrus generator in progress. -/
  gen : Option GenRun
  bridges : Vector Bool 6
  hz : Horizon
  deriving DecidableEq, Repr

/-! ## Reset: the state of release (R416) -/

/-- The key of an agent: thread contexts first, by sector and sector index, then master cores. -/
def agentKey : Agent → Nat
  | .thread x i => x.val * 6144 + i.val
  | .master x n => 24576 + x.val * 16 + n.val

/-- The agent of a key. -/
def agentOfKey (k : Nat) : Agent :=
  if k < 24576 then .thread (Fin.ofNat 4 (k / 6144)) (Fin.ofNat 6144 (k % 6144))
  else .master (Fin.ofNat 4 ((k - 24576) / 16)) (Fin.ofNat 16 ((k - 24576) % 16))

/-- Registers of a thread context before it has begun a vt (log entry 5, DESIGN CHOICE). -/
def Hart.resetThread : Hart :=
  { s := Vector.replicate 16 ⟨0, true, false⟩
    p := Vector.replicate 8 false
    pBusy := Vector.replicate 8 false
    v := Vector.replicate 16 ⟨.inv, 0, 0⟩
    m := Vector.replicate 8 ⟨0, true⟩
    q := Vector.replicate 4 ⟨0, true⟩
    pc := 0, fmode := 0, fflags := 0, srseed := 0, instret := 0, chain := [], chainPc := 0, tx := none
    park := none, sWait := false, hpri := 0, pushEpoch := 0, jobCtr := 1, roSeq := 0, unread := []
    engSeq := (0, 0), wait := none }

/-- Registers of a master core at release (R416): s0 is its number, s1 the base of the boot mapping, all others zero;
the entry address is 0 (log entry 3, DESIGN CHOICE). -/
def Hart.resetMaster (n : Nat) : Hart :=
  { Hart.resetThread with
    s := ((Vector.replicate 16 ⟨0, true, false⟩).set 0 ⟨BitVec.ofNat 64 n, true, false⟩).set 1
      ⟨0x00FF000000000000#64, true, false⟩
    v := Vector.replicate 16 ⟨.raw, 0, 0⟩
    m := Vector.replicate 8 ⟨0, false⟩
    q := Vector.replicate 4 ⟨0, false⟩ }

/-- Reset registers by agent key. -/
def Hart.reset (key : Nat) : Hart :=
  if key < 24576 then Hart.resetThread else Hart.resetMaster ((key - 24576) % 16)

/-- A master core at release (R38, R416). -/
def Master.reset : Master :=
  { asid := 0, evec := 0, epc := 0, ecause := 0, eaddr := 0, estat := 0, escratch := 0, sys := true, ie := false
    tsel := 0, csel := 0, irqs := [], chl := none, lastInst := none, finalZ := none, tlbis := [], codeSeq := 0
    fenced := false }

/-- CTXID of a thread context (R27). -/
def ctxidThread (key : Nat) : Word := BitVec.ofNat 64 (key / 6144 * 65536 + key % 6144)

/-- A thread context at release (R416). -/
def Ctx.reset (key : Nat) : Ctx :=
  { holds := .released, reserved := none, extFrom := none, drawAfter := none, vtn := 0, sph := 0, homec := ctxidThread key
    accBound := false, accLive := Vector.replicate 2 false, accInt := false, cirrus := none, digest := none
    mxcfg := none, seq := 0 }

/-- A free Cirrus slot (R242). -/
def CirrusSlot.reset : CirrusSlot :=
  { owner := none, prog := [], inv := none, k := Vector.replicate 8 0, par0 := 0, par1 := 0, nr := 0, nc := 0 }

/-- A cluster after its reset (R22, R23, R35, R210, R242, R416). -/
def Cluster.reset : Cluster :=
  { channels := Vector.replicate 16 ⟨false, 0, 0, 0⟩
    cores := Vector.replicate 8 ⟨false, none, none, 7, 0, none, false, []⟩
    dFused := false, migdup := 0, weights := 0x11111111#32
    cirrus := Vector.replicate 8 CirrusSlot.reset
    digest := Vector.replicate 8 ⟨none, [], none, 0⟩
    mx := Vector.replicate 8 [], visit := 0, stepsLeft := 0, budget := 0
    accTags := Vector.replicate 8 (Vector.replicate 2 none)
    cp := Vector.replicate 8 [], cpRunning := [], cpLast := 7
    migInbox := [], recvInbox := [], reserveBuf := [], windows := [], parkOrder := 0 }

/-- Translation roots after sector reset (R339): only ASID 0 has one. -/
def Root.reset (asid : Nat) : Root := ⟨0, asid == 0⟩

/-- A closed export entry (R355). -/
def Export.reset : Export := ⟨0, 0, 0, false, false, false, false, 0⟩

/-- An empty import slot (R356). -/
def Import.reset : Import := ⟨0, false, false, false, false, 0⟩

/-- A sector at release (R34, R36, R37, R416). -/
def Sector.reset : Sector :=
  { power := .running, bootSlot := 0, scrub := false, later := [], rce := true, ovp := false, spillq := 0, dglogb := 0
    hxLock := false, hxHorizon := false, hxDbi := false, hxDbo := false, hxIn := 0, hxOut := 0
    hxSent := 0, hxWant := false, hxResps := []
    dgP := 0, dgSeq := 0, roots := [], tlb := [], tlbOrder := 0, walker := [], lineAge := 0, insts := [], poolWait := []
    readySeq := 0, jobs := [], jobOrder := 0, jobsLeft := [], asyncs := [], masterLeases := []
    seals := [], sealCount := 0, mrb := 0, mrs := 0, mlog := [], npool := [], fpool := [], exports := [], imports := [], tlbis := []
    saved := [], savedOrder := 0, spillFull := false, refused := [], stored := [], held := [], areaSeen := []
    poison := [], badWords := [], badDevice := [], spillStore := [], fenced := Vector.replicate 4 false
    netBase := none, netTable := [], rxDone := [], rxTaken := [], netReplies := []
    pcieRing := 0, pcieAsid := 0, pcieMsg := 0
    pcieHead := 0, pcieOut := [], pcieReplies := [], telemetry := ⟨0, 0, 0, 0⟩, cap := 0, clock := 2700, wlog := [] }

/-- The master cores of the module in the order in which the round of agents starts (log entry 1). -/
def masterRound : List Agent :=
  (List.range 64).map fun k => .master (Fin.ofNat 4 (k / 16)) (Fin.ofNat 16 (k % 16))

/-- The module right after reset: every sector in the state of R416. -/
def State.reset : State :=
  { cur := .master 0 0, curWord := 0, turns := masterRound, agenda := [], tape := [], freeCtr := 0, nextId := 0, wseq := 0
    harts := [], masters := [], ctxs := [], clusters := [], sectors := Vector.replicate 4 Sector.reset
    spad := [], spadEmpty := [], spadMarks := [], accs := [], mem := [], llc := [], copies := [], marks := []
    flight := [], tokens := [], bankq := [], zreqs := [], gen := none
    bridges := Vector.replicate 6 true
    hz := { images := [], rollback := [], reports := [], running := 0 } }

end Sys2Proof.Machine
end

