-- ==== Sys2Proof/Machine/Bits.lean ====
section
/-! DEFINITION. Sparse maps, byte order, sign extension and the small arithmetic that the meanings share (R3 to R5). -/

namespace Sys2Proof.Machine

/-! ## Sparse maps -/

/-- The listed value of a key. -/
def Sparse.find {α : Type} : List (Nat × α) → Nat → Option α
  | [], _ => none
  | (j, v) :: m, k => if k = j then some v else Sparse.find m k

/-- The value of a key, `d` where it is not listed. -/
def Sparse.get {α : Type} (d : α) (m : List (Nat × α)) (k : Nat) : α := (Sparse.find m k).getD d

/-- List a value for a key. -/
def Sparse.insert {α : Type} : List (Nat × α) → Nat → α → List (Nat × α)
  | [], k, v => [(k, v)]
  | (j, w) :: m, k, v =>
    if k = j then (k, v) :: m
    else if k < j then (k, v) :: (j, w) :: m
    else (j, w) :: Sparse.insert m k v

/-- Take a key out of the list. -/
def Sparse.erase {α : Type} : List (Nat × α) → Nat → List (Nat × α)
  | [], _ => []
  | (j, w) :: m, k => if k = j then Sparse.erase m k else (j, w) :: Sparse.erase m k

/-- Set the value of a key and keep the canonical form: the default `d` is never listed. -/
def Sparse.put {α : Type} [DecidableEq α] (d : α) (m : List (Nat × α)) (k : Nat) (v : α) : List (Nat × α) :=
  if v = d then Sparse.erase m k else Sparse.insert m k v

/-- The values of `n` keys from the first one on, where the list holds no key below it. -/
def Sparse.denseFrom {α : Type} (d : α) : List (Nat × α) → Nat → Nat → List α
  | _, _, 0 => []
  | [], k, n + 1 => d :: Sparse.denseFrom d [] (k + 1) n
  | (j, v) :: m, k, n + 1 =>
    if j = k then v :: Sparse.denseFrom d m (k + 1) n else d :: Sparse.denseFrom d ((j, v) :: m) (k + 1) n

/-- The values of `n` keys from `k` on. -/
def Sparse.dense {α : Type} (d : α) (m : List (Nat × α)) (k n : Nat) : List α :=
  Sparse.denseFrom d (m.dropWhile fun e => decide (e.1 < k)) k n

/-- Set the values of the keys from `k` on, keeping the canonical form. -/
def Sparse.setRange {α : Type} [DecidableEq α] (d : α) (m : List (Nat × α)) (k : Nat) (vs : List α) :
    List (Nat × α) :=
  (m.filter fun e => decide (e.1 < k))
    ++ (vs.zipIdx.filterMap fun v => if v.1 = d then none else some (k + v.2, v.1))
    ++ m.filter fun e => decide (k + vs.length ≤ e.1)

/-- Every key of the list is above `k`, the keys rise, and no value is the default of its key. -/
def Sparse.wfFrom {α : Type} [DecidableEq α] (d : Nat → α) : Nat → List (Nat × α) → Bool
  | _, [] => true
  | k, (j, v) :: m => decide (k ≤ j) && !(decide (v = d j)) && Sparse.wfFrom d (j + 1) m

/-- The canonical form: keys rising strictly, no default listed. -/
def Sparse.wf {α : Type} [DecidableEq α] (d : Nat → α) (m : List (Nat × α)) : Bool := Sparse.wfFrom d 0 m

/-! ## Words and bytes -/

/-- The value of bytes in ascending address order (R3). -/
def leNat : List Byte → Nat
  | [] => 0
  | b :: bs => b.toNat + 256 * leNat bs

/-- The low `n` bytes of a number in ascending address order (R3). -/
def leBytes : Nat → Nat → List Byte
  | 0, _ => []
  | n + 1, v => BitVec.ofNat 8 v :: leBytes n (v / 256)

/-- Bits [lo+n-1:lo] of a 64-bit value, as a number. -/
def bitsOf (w : Word) (lo n : Nat) : Nat := w.toNat / 2 ^ lo % 2 ^ n

/-- Bit `i` of a 64-bit value. -/
def bitAt (w : Word) (i : Nat) : Bool := w.getLsbD i

/-- A number taken as `n` bits, sign-extended to 64. -/
def sextNat (n v : Nat) : Word :=
  let u := v % 2 ^ n
  if 2 ^ n ≤ 2 * u then BitVec.ofNat 64 (u + (2 ^ 64 - 2 ^ n)) else BitVec.ofNat 64 u

/-- Sign-extend the low `n` bits of a word (1 to 64). -/
def sext (n : Nat) (w : Word) : Word := sextNat n w.toNat

/-- The low `n` bits of a word. -/
def zext (n : Nat) (w : Word) : Word := BitVec.ofNat 64 (w.toNat % 2 ^ n)

/-- A 64-bit word of a number. -/
def word (n : Nat) : Word := BitVec.ofNat 64 n

/-- The two's-complement value of an `n`-bit number. -/
def signedOf (n v : Nat) : Int := if 2 ^ n ≤ 2 * (v % 2 ^ n) then (v % 2 ^ n : Nat) - (2 ^ n : Nat) else (v % 2 ^ n : Nat)

/-- An integer modulo 2^n. -/
def modPow (n : Nat) (i : Int) : Nat := (i % (2 ^ n : Nat)).toNat

/-- `n` elements of `w` bits of a number, lowest first. -/
def lanesOf (n w v : Nat) : List Nat := (List.range n).map fun i => v / 2 ^ (w * i) % 2 ^ w

/-- The number whose `w`-bit elements are given, lowest first. -/
def ofLanes (w : Nat) : List Nat → Nat
  | [] => 0
  | l :: ls => l % 2 ^ w + 2 ^ w * ofLanes w ls

/-- Round up to a multiple. -/
def roundUp (n m : Nat) : Nat := (n + m - 1) / m * m

/-- Round down to a multiple. -/
def roundDown (n m : Nat) : Nat := n / m * m

/-- Every element satisfies the test, in the order of the list, with the first failure's answer. -/
def firstSome {α β : Type} (f : α → Option β) : List α → Option β
  | [] => none
  | a :: as => match f a with
    | some b => some b
    | none => firstSome f as

/-- Bytes `off` to `off + n - 1` of a list. -/
def slice (bs : List Byte) (off n : Nat) : List Byte := (bs.drop off).take n

/-- A list with the bytes from `off` on replaced. -/
def splice (bs : List Byte) (off : Nat) (new : List Byte) : List Byte :=
  bs.take off ++ new ++ bs.drop (off + new.length)

end Sys2Proof.Machine
end

