-- ==== Sys2Proof/Machine/Access.lean ====
section
/-! DEFINITION. Reading and writing the parts of the state: every register and table has one home, reached through the
functions of this file. -/

namespace Sys2Proof.Machine

/-! ## Agents, contexts, clusters and sectors -/

/-- The sector of an agent. -/
def secOf : Agent → Sec
  | .thread x _ => x
  | .master x _ => x

/-- An agent is a master core. -/
def isMaster : Agent → Bool
  | .thread _ _ => false
  | .master _ _ => true

/-- The place of an agent in orders by sector index: master cores after thread contexts (R10). -/
def orderIndex : Agent → Nat
  | .thread _ i => i.val
  | .master _ n => 6144 + n.val

/-- Cluster, core and slot of a sector index (R10). -/
def clusterOf (i : Nat) : Fin 96 := Fin.ofNat 96 (i / 64)
def coreOf (i : Nat) : Fin 8 := Fin.ofNat 8 (i / 8)
def slotOf (i : Nat) : Fin 8 := Fin.ofNat 8 i

/-- The sector index of a slot. -/
def indexOf (cl : Fin 96) (co sl : Fin 8) : Fin 6144 := Fin.ofNat 6144 (cl.val * 64 + co.val * 8 + sl.val)

/-- The chiplet of a cluster (R10, R412). -/
def chipletOf (cl : Fin 96) : Fin 4 := Fin.ofNat 4 (cl.val / 24)

/-- The chiplet of an agent (R412). -/
def chipletOfAgent : Agent → Fin 4
  | .thread _ i => chipletOf (clusterOf i.val)
  | .master _ n => Fin.ofNat 4 (n.val / 4)

/-- The cluster of an agent; a master core lies in none. -/
def clusterOfAgent : Agent → Option (Fin 96)
  | .thread _ i => some (clusterOf i.val)
  | .master _ _ => none

/-- A service context: slot 7 of core 0 of its cluster (R11). -/
def isService (i : Nat) : Bool := i % 64 == 7

/-- The thread context of a sector index. -/
def ctxAgent (x : Sec) (i : Nat) : Agent := .thread x (Fin.ofNat 6144 i)

/-- The key of a cluster. -/
def clusterKey (x : Sec) (cl : Fin 96) : Nat := x.val * 96 + cl.val

/-- The registers of an agent. -/
def State.hart (s : State) (g : Agent) : Hart := Sparse.get (Hart.reset (agentKey g)) s.harts (agentKey g)

/-- Set the registers of an agent. -/
def State.setHart (s : State) (g : Agent) (h : Hart) : State :=
  { s with harts := Sparse.put (Hart.reset (agentKey g)) s.harts (agentKey g) h }

/-- Change the registers of an agent. -/
def State.modHart (s : State) (g : Agent) (f : Hart → Hart) : State := s.setHart g (f (s.hart g))

/-- The executing agent's registers. -/
def State.me (s : State) : Hart := s.hart s.cur

/-- Change the executing agent's registers. -/
def State.modMe (s : State) (f : Hart → Hart) : State := s.modHart s.cur f

/-- A master core's own state. -/
def State.master (s : State) (x : Sec) (n : Fin 16) : Master :=
  Sparse.get Master.reset s.masters (agentKey (.master x n))

/-- Set a master core's own state. -/
def State.setMaster (s : State) (x : Sec) (n : Fin 16) (m : Master) : State :=
  { s with masters := Sparse.put Master.reset s.masters (agentKey (.master x n)) m }

/-- Change a master core's own state. -/
def State.modMaster (s : State) (x : Sec) (n : Fin 16) (f : Master → Master) : State :=
  s.setMaster x n (f (s.master x n))

/-- A thread context's own state. -/
def State.ctx (s : State) (x : Sec) (i : Nat) : Ctx :=
  Sparse.get (Ctx.reset (agentKey (ctxAgent x i))) s.ctxs (agentKey (ctxAgent x i))

/-- Set a thread context's own state. -/
def State.setCtx (s : State) (x : Sec) (i : Nat) (c : Ctx) : State :=
  { s with ctxs := Sparse.put (Ctx.reset (agentKey (ctxAgent x i))) s.ctxs (agentKey (ctxAgent x i)) c }

/-- Change a thread context's own state. -/
def State.modCtx (s : State) (x : Sec) (i : Nat) (f : Ctx → Ctx) : State := s.setCtx x i (f (s.ctx x i))

/-- A cluster. -/
def State.cluster (s : State) (x : Sec) (cl : Fin 96) : Cluster :=
  Sparse.get Cluster.reset s.clusters (clusterKey x cl)

/-- Set a cluster. -/
def State.setCluster (s : State) (x : Sec) (cl : Fin 96) (c : Cluster) : State :=
  { s with clusters := Sparse.put Cluster.reset s.clusters (clusterKey x cl) c }

/-- Change a cluster. -/
def State.modCluster (s : State) (x : Sec) (cl : Fin 96) (f : Cluster → Cluster) : State :=
  s.setCluster x cl (f (s.cluster x cl))

/-- A sector. -/
def State.sec (s : State) (x : Sec) : Sector := s.sectors.get x

/-- Set a sector. -/
def State.setSec (s : State) (x : Sec) (c : Sector) : State := { s with sectors := s.sectors.set x.val c x.isLt }

/-- Change a sector. -/
def State.modSec (s : State) (x : Sec) (f : Sector → Sector) : State := s.setSec x (f (s.sec x))

/-- The thread core of a context. -/
def State.coreSt (s : State) (x : Sec) (cl : Fin 96) (co : Fin 8) : CoreSt := (s.cluster x cl).cores.get co

/-- Change a thread core. -/
def State.modCore (s : State) (x : Sec) (cl : Fin 96) (co : Fin 8) (f : CoreSt → CoreSt) : State :=
  s.modCluster x cl fun c => { c with cores := c.cores.set co.val (f (c.cores.get co)) co.isLt }

/-- Write an s register: the result lands and the register is full (R13). -/
def Hart.putS (h : Hart) (r : Fin 16) (v : Word) : Hart :=
  { h with s := h.s.set r.val ⟨v, true, false⟩ r.isLt, unread := h.unread.filter (· ≠ r) }

/-- A parked agent executes its instruction again. -/
def State.unpark (s : State) (g : Agent) : State := s.modHart g fun h => { h with park := none, sWait := false }

/-- A parked agent's instruction completes with an effect on its registers. -/
def State.completeParked (s : State) (g : Agent) (f : Hart → Hart) : State :=
  s.modHart g fun h =>
    let h := f h
    { h with pc := h.pc + 4, instret := h.instret + 1, chain := [], park := none }

/-- The units of a sector work while it runs, and on what has been accepted while it is being reset (R420). -/
def State.unitsRun (s : State) (x : Sec) : Bool :=
  match (s.sec x).power with
  | .running => true
  | .settling _ => true
  | .resetting _ => true
  | _ => false

/-! ## Due steps and fresh names -/

/-- Add a due step at the end of the agenda, unless it already stands there. -/
def State.post (s : State) (d : Due) : State :=
  if s.agenda.contains d then s else { s with agenda := s.agenda ++ [d] }

/-- Put a due step at the front of the agenda. -/
def State.postFront (s : State) (d : Due) : State := { s with agenda := d :: s.agenda }

/-- Add several due steps. -/
def State.postAll (s : State) (ds : List Due) : State := ds.foldl State.post s

/-- The next fresh identifier. -/
def State.fresh (s : State) : State := { s with nextId := s.nextId + 1 }

/-! ## Instances -/

/-- The instance of a unique number. -/
def State.inst (s : State) (x : Sec) (uid : Nat) : Option Inst := (s.sec x).insts.find? fun i => i.uid == uid

/-- An instance by its unique number, in whatever sector it lies. -/
def State.instAny (s : State) (uid : Nat) : Option Inst := firstSome (fun (x : Sec) => s.inst x uid) [0, 1, 2, 3]

/-- Change an instance. -/
def State.modInst (s : State) (x : Sec) (uid : Nat) (f : Inst → Inst) : State :=
  s.modSec x fun c => { c with insts := c.insts.map fun i => if i.uid == uid then f i else i }

/-- The vt that a context holds, if it runs one. -/
def State.vtAt (s : State) (x : Sec) (i : Nat) : Option VtName :=
  match (s.ctx x i).holds with
  | .running v => some v
  | _ => none

/-- The vt of an agent: none for a master core or a context without one. -/
def State.vtOf (s : State) (g : Agent) : Option VtName :=
  match g with
  | .thread x i => s.vtAt x i.val
  | .master _ _ => none

/-- The instance of the vt that an agent runs. -/
def State.instOf (s : State) (g : Agent) : Option Inst :=
  match s.vtOf g with
  | some v => s.inst (secOf g) v.uid
  | none => none

/-- The address space in which an agent's accesses are made: a master core's ASID, an instance's ASID. -/
def State.asidOf (s : State) (g : Agent) : BitVec 16 :=
  match g with
  | .master x n => (s.master x n).asid
  | .thread _ _ => match s.instOf g with
    | some i => i.asid
    | none => 0

/-- The agent runs at sys level (R38). -/
def State.sysLevel (s : State) (g : Agent) : Bool :=
  match g with
  | .master x n => (s.master x n).sys
  | .thread _ _ => false

/-- The home context's sector index of a context's vt (R10), from HOMEC. -/
def State.homeIdx (s : State) (x : Sec) (i : Nat) : Nat := (s.ctx x i).homec.toNat % 8192

/-- The owner index of an agent's job records: its home context, or 6,144 plus a master core's number (R266). -/
def State.jobOwner (s : State) (g : Agent) : Nat :=
  match g with
  | .thread x i => s.homeIdx x i.val
  | .master _ n => 6144 + n.val

/-- Who an agent acts as in a command (R305). -/
def State.actor (s : State) (g : Agent) (job : Nat) : Actor :=
  { agent := g, asid := s.asidOf g, vt := s.vtOf g, home := s.jobOwner g, sys := s.sysLevel g, job := job, seq := 0
    epoch := (s.hart g).pushEpoch, after := s.nextId }

/-- An actor is the agent that runs here: a vt stays the same agent wherever it runs (R305). -/
def State.isActor (s : State) (g : Agent) (a : Actor) : Bool :=
  decide (secOf g = secOf a.agent) && match s.vtOf g with
    | some v => a.vt == some v
    | none => a.vt.isNone && decide (a.agent = g)

/-- Two actors are the same agent (R305). -/
def Actor.same (a b : Actor) : Bool :=
  decide (secOf a.agent = secOf b.agent) && a.vt == b.vt && (a.vt.isSome || decide (a.agent = b.agent))

/-- A Zenith request was issued by an actor, or by the agent that runs here (R305). -/
def ZReq.by (r : ZReq) (a : Actor) : Bool :=
  decide (secOf r.agent = secOf a.agent) && r.vt == a.vt && (a.vt.isSome || decide (r.agent = a.agent))
def State.zBy (s : State) (g : Agent) (r : ZReq) : Bool :=
  decide (secOf g = secOf r.agent) && match s.vtOf g with
    | some v => r.vt == some v
    | none => r.vt.isNone && decide (r.agent = g)

/-- A push or deposit that has not been accepted (R14, R170): in flight, in an inbox, refused, or a record in an
overflow heap or in the spill queue. -/
def State.anyMessage (s : State) (x : Sec) (p : Flight → Bool) : Bool :=
  s.flight.any (fun f => f.sec == x && p f)
    || s.clusters.any (fun e => e.1 / 96 == x.val && (e.2.recvInbox.any p || e.2.reserveBuf.any p))
    || (s.sec x).refused.any p || (s.sec x).stored.any fun r => p r.flight

/-- The message that reached its cluster first (R14, R377). -/
def firstArrived (l : List Flight) : Option Flight :=
  l.foldl (fun b f => match b with
    | none => some f
    | some g => if f.arrived.getD 0 < g.arrived.getD 0 then some f else some g) none

/-- Deposits that wait for the registers of a context's vt, in a context where it has come to run, are tried again (R14,
R166). -/
def State.landWaiting (s : State) (x : Sec) (i : Nat) : State :=
  let k := s.cluster x (clusterOf i)
  s.postAll ((k.recvInbox ++ k.reserveBuf).filterMap fun f => match f.body with
    | .deposit c _ _ => if c.val = i ∧ f.kept = s.vtAt x i then some (.depositLand f.id) else none
    | _ => none)

/-- The name of a slot owner for a context (R18, R210, R242). -/
def State.slotOwner (s : State) (x : Sec) (i : Nat) : Option SlotOwner :=
  match s.vtAt x i with
  | some v => some ⟨s.asidOf (ctxAgent x i), v.uid, s.homeIdx x i⟩
  | none => none

end Sys2Proof.Machine
end

