-- ==== Sys2Proof/Machine/Tx.lean ====
section
/-! DEFINITION. The physical bytes of a sector and the marks of lines (R333, R336), notifications to master cores (R392
to R394) and the abort of a transaction (R172, R175): the effects that an access of one agent can have on another. -/

namespace Sys2Proof.Machine

/-! ## Physical memory (R336) -/

/-- The key of a physical byte. -/
def memKey (x : Sec) (pa : Nat) : Nat := x.val * 2 ^ 52 + pa

/-- A byte of physical memory; a byte that nothing has written reads 0 (log entry 4, DESIGN CHOICE). -/
def State.memByte (s : State) (x : Sec) (pa : Nat) : Byte := Sparse.get 0 s.mem (memKey x pa)

/-- Bytes of physical memory from `pa` up. -/
def State.readPhys (s : State) (x : Sec) (pa : Nat) : Nat → List Byte
  | 0 => []
  | n + 1 => s.memByte x pa :: s.readPhys x (pa + 1) n

/-- Write bytes of physical memory from `pa` up. -/
def State.writePhys (s : State) (x : Sec) (pa : Nat) : List Byte → State
  | [] => s
  | b :: bs => State.writePhys { s with mem := Sparse.put 0 s.mem (memKey x pa) b } x (pa + 1) bs

/-! ## Lines (R329) -/

/-- The key of the line that holds an address. -/
def lineKey (x : Sec) (asid : BitVec 16) (va : Nat) : Nat := (x.val * 2 ^ 16 + asid.toNat) * 2 ^ 49 + va / 128

/-- The parts of a line key. -/
def lineAsid (k : Nat) : BitVec 16 := BitVec.ofNat 16 (k / 2 ^ 49)
def lineVa (k : Nat) : Nat := k % 2 ^ 49 * 128
def lineSec (k : Nat) : Sec := Fin.ofNat 4 (k / 2 ^ 65)

/-! ## The access-tag spill store (R333) -/

/-- The number of entries of the store, and the physical address of an entry: the top 256 MiB of stack 0's populated
memory. -/
def spillEntries : Nat := 2097152
def spillEntryAddr (n : Nat) : Nat := 96000000000 - 2 ^ 28 + 128 * n

/-- The identifier of an agent's transaction. -/
def State.txId (s : State) (g : Agent) : Nat := 2 ^ 15 + s.jobOwner g % 2 ^ 15

/-- The 8 bytes of a granule's access tag: the index of the instance that set it, which may be one of another sector
that reached the line through a peer window. -/
def State.granuleWord (s : State) (q : Option (Nat × Race)) : Nat :=
  match q with
  | none => 0
  | some (uid, r) =>
    let idx := (((s.instAny uid).bind (·.idx)).map (·.val)).getD 0
    match r with
    | .rd n => 1 + idx * 4 + n % 2 ^ 40 * 2 ^ 8
    | .rdm => 2 + idx * 4
    | .wr n => 3 + idx * 4 + n % 2 ^ 40 * 2 ^ 8

/-- The 128 bytes of an entry. -/
def State.spillBytes (s : State) (k : Nat) (m : Marks) : List Byte :=
  leBytes 8 (lineVa k / 128) ++ leBytes 8 ((lineAsid k).toNat + 2 ^ 16)
    ++ (List.range 8).flatMap (fun g => leBytes 8 (s.granuleWord (Sparse.get none m.gran g)))
    ++ leBytes 4 ((m.writer.map s.txId).getD 0)
    ++ (List.range 11).flatMap fun i => leBytes 4 ((m.readers[i]?.map s.txId).getD 0)

/-- Marks that hold nothing. -/
def Marks.empty (m : Marks) : Bool := m.gran.isEmpty && m.writer.isNone && m.readers.isEmpty

/-- The entry that holds the marks of a line. -/
def State.spillEntry (s : State) (k : Nat) : Option Nat :=
  ((s.sec (lineSec k)).spillStore.find? fun e => e.1 == k).map (·.2)

/-- Free the entry of a line. -/
def State.freeSpill (s : State) (k n : Nat) : State :=
  (s.writePhys (lineSec k) (spillEntryAddr n + 8) (leBytes 8 0)).modSec (lineSec k) fun c =>
    { c with spillStore := c.spillStore.filter fun e => e.1 != k }

/-- The marks of a line. -/
def State.marksOf (s : State) (k : Nat) : Marks := Sparse.get ⟨[], none, []⟩ s.marks k

/-- The line with a key, if the LLC holds it. -/
def State.line (s : State) (k : Nat) : Option Line := Sparse.get none s.llc k

/-- Set the marks of a line; those of an evicted line stand in its entry of the spill store, which is freed once they
hold nothing. -/
def State.setMarks (s : State) (k : Nat) (m : Marks) : State :=
  let t := { s with marks := Sparse.put ⟨[], none, []⟩ s.marks k m }
  match s.spillEntry k with
  | none => t
  | some n =>
    if m.empty then t.freeSpill k n
    else if (s.line k).isSome then t
    else t.writePhys (lineSec k) (spillEntryAddr n) (t.spillBytes k m)

/-! ## Pending events of master cores -/

/-- IRQ subcauses (R394). -/
def irqSwarm : Nat := 0x01
def irqCopy : Nat := 0x02
def irqIpi : Nat := 0x03
def irqPreempted : Nat := 0x04
def irqLease : Nat := 0x05
def irqRing : Nat := 0x06
def irqWblost : Nat := 0x07
def irqPeerpf : Nat := 0x08
def irqOvfl : Nat := 0x09
def irqSpill : Nat := 0x0A
def irqMclog : Nat := 0x0B
def irqHxm : Nat := 0x0C
def irqArea : Nat := 0x0D
def irqRingdrop : Nat := 0x0E

/-- A chiplet of a sector is fenced. -/
def State.isFenced (s : State) (x : Sec) (ch : Fin 4) : Bool := (s.sec x).fenced.get ch

/-- Hold an IRQ pending at a master core (R392): one that is already pending keeps its first EADDR, and the payloads of
NOTE are ORed (R304). Events for a core of a fenced chiplet are lost (R418). -/
def State.irq (s : State) (x : Sec) (n : Fin 16) (sub : Nat) (addr : Word) : State :=
  if s.isFenced x (chipletOfAgent (.master x n)) then s
  else
    let m := s.master x n
    let v := match Sparse.get none m.irqs sub with
      | none => addr
      | some old => if sub = irqIpi then old ||| addr else old
    (s.setMaster x n { m with irqs := Sparse.put none m.irqs sub (some v) }).post (.interruptTaken x n)

/-- The sector's interrupt master (R393): the lowest-numbered master core of a chiplet in service. -/
def State.intMaster (s : State) (x : Sec) : Option (Fin 16) :=
  ((List.range 16).map (Fin.ofNat 16)).find? fun n => !s.isFenced x (chipletOfAgent (.master x n))

/-- An event for the sector (R393). -/
def State.irqSector (s : State) (x : Sec) (sub : Nat) (addr : Word) : State :=
  match s.intMaster x with
  | some n => s.irq x n sub addr
  | none => s

/-- Hold a CHL pending (R392, R410): the first event's chiplet and handle stay. -/
def State.chl (s : State) (x : Sec) (n : Fin 16) (ch : Fin 4) (handle : Word) : State :=
  if s.isFenced x (chipletOfAgent (.master x n)) then s
  else
    let m := s.master x n
    (s.setMaster x n { m with chl := some (m.chl.getD ⟨ch.val, handle⟩) }).post (.interruptTaken x n)

/-! ## Aborting a transaction -/

/-- Causes of an abort (R175). -/
def txConflict : Nat := 1
def txWcap : Nat := 2
def txRcap : Nat := 3
def txExplicit : Nat := 4
def txNest : Nat := 5
def txFault : Nat := 6
def txIllop : Nat := 7
def txAsync : Nat := 8
def txAborted : Nat := 9

/-- The abort code (R175): depth, retry bit, detail and cause. -/
def txCode (depth cause detail : Nat) : Word :=
  word (depth % 8 * 2 ^ 17 + (if cause = txConflict ∨ cause = txAsync then 2 ^ 16 else 0) + detail % 256 * 256 + cause)

/-- Take an agent's transactional marks off every line (R333). -/
def State.clearMarks (s : State) (g : Agent) (lines : List Nat) : State :=
  lines.foldl (fun s k =>
    let m := s.marksOf k
    s.setMarks k
      { m with writer := if m.writer = some g then none else m.writer, readers := m.readers.filter (· ≠ g) }) s

/-- The registers after an abort (R172): the checkpoint restored, the vector, mask and tile-predicate registers that
were written made void, the abort code in the outermost destination, and the pc behind the outermost `xbeg`. A deposited
value of the checkpoint that nothing had read is unread again (R325). The wait of a completed instruction with a sync
marker goes on (R51). -/
def Hart.abort (h : Hart) (t : Tx) (cause detail : Nat) : Hart :=
  { h with
    s := (t.regs.set t.dest.val ⟨txCode t.depth cause detail, true, false⟩ t.dest.isLt)
    p := t.preds
    v := t.vs.foldl (fun v i => v.set i.val ⟨.inv, 0, 0⟩ i.isLt) h.v
    m := t.ms.foldl (fun m i => if i = 0 then m else m.set i.val ⟨0, true⟩ i.isLt) h.m
    q := t.qs.foldl (fun q i => q.set i.val ⟨0, true⟩ i.isLt) h.q
    unread := t.unread.filter (· ≠ t.dest)
    pc := t.resume, chain := [], tx := none, park := none, wait := none, sWait := h.park.isNone && h.sWait }

/-- Abort the transaction of an agent, if it is in one (R172, R175). -/
def State.abortTx (s : State) (g : Agent) (cause detail : Nat) : State :=
  match (s.hart g).tx with
  | none => s
  | some t => (s.setHart g ((s.hart g).abort t cause detail)).clearMarks g (t.reads ++ t.writes)

/-- Abort every transaction of the list. -/
def State.abortAll (s : State) (gs : List Agent) (cause : Nat) : State :=
  gs.foldl (fun s g => s.abortTx g cause 0) s

/-- A non-transactional access at a line (R174): a write aborts every transaction that holds the line, a read those
whose write set holds it. -/
def State.conflictPlain (s : State) (g : Agent) (k : Nat) (write : Bool) : State :=
  let m := s.marksOf k
  let ws := match m.writer with
    | some u => if u = g then [] else [u]
    | none => []
  s.abortAll (ws ++ if write then m.readers.filter (· ≠ g) else []) txConflict

end Sys2Proof.Machine
end

