-- ==== Sys2Proof/Machine/Memory.lean ====
section
/-! DEFINITION. Memory: the physical space of a sector, translation, the LLC as the home of application space, and the
scratchpads with their channels (R22 to R24, R328 to R346). Byte order is decided by `leNat` and `leBytes` alone. -/

namespace Sys2Proof.Machine

/-! ## Physical ranges (R336) -/

/-- What a physical range is. -/
inductive PhysKind where
  | near | far | control | none
  deriving DecidableEq, Repr

/-- The kind of the range of `n` bytes at `pa` (R336): 96 GB of each near stack and 1,024 GB of the far tier are
populated (decimal, R6). -/
def physKind (pa n : Nat) : PhysKind :=
  if pa < 6 * 0x2000000000 then
    if pa % 0x2000000000 + n ≤ 96000000000 then .near else .none
  else if 0x10000000000 ≤ pa ∧ pa + n ≤ 0x10000000000 + 1024000000000 then .far
  else if 0xFFF0000000000 ≤ pa ∧ pa + n ≤ 0xFFF0000040000 then .control
  else .none

/-! ## Translation (R338 to R345) -/

/-- The controller whose TLB translates an address (R338). -/
def controllerOf (asid : BitVec 16) (va : Nat) : Nat :=
  let h := (va / 2 ^ 16 % 2 ^ 16) ^^^ (va / 2 ^ 32 % 2 ^ 16) ^^^ (va / 2 ^ 48 % 2 ^ 8) ^^^ asid.toNat
  h % 6

/-- The key of a page entry and of a block entry of a controller's TLB. -/
def pageKey (asid : BitVec 16) (va : Nat) : Nat := asid.toNat * 2 ^ 40 + va / 2 ^ 16
def blockKey (asid : BitVec 16) (va : Nat) : Nat :=
  2 ^ 60 + (asid.toNat * 2 ^ 27 + va / 2 ^ 29) * 8 + controllerOf asid va

/-- Subcauses of PGF and LSE (R342, R388). -/
def subNomap : Nat := 1
def subPerm : Nat := 2
def subBadpte : Nat := 3
def subBadpa : Nat := 4
def subOutside : Nat := 5

/-- Bits of a page-table entry (R341). -/
def pteKind (e : Nat) : Nat := e % 4
def ptePa (e : Nat) : Nat := e / 2 ^ 16 % 2 ^ 36 * 2 ^ 16
def pteBit (e i : Nat) : Bool := e / 2 ^ i % 2 == 1
def pteRes0 (e : Nat) : Bool := e / 2 ^ 52 != 0 || e / 2 ^ 10 % 2 ^ 6 != 0 || pteBit e 2
def ptePerm (e : Nat) : Perm := ⟨pteBit e 3, pteBit e 4, pteBit e 5, pteBit e 6, pteBit e 9⟩

/-- A poisoned physical line (R408). -/
def State.poisoned (s : State) (x : Sec) (pa : Nat) : Bool := (s.sec x).poison.contains (pa / 128)

/-- Mark or clear the poison of a physical line (R408). -/
def State.setPoison (s : State) (x : Sec) (pa : Nat) (b : Bool) : State :=
  s.modSec x fun c =>
    let rest := c.poison.filter (· ≠ pa / 128)
    { c with poison := if b then pa / 128 :: rest else rest }

/-- Why an access fails at translation or at its home. -/
inductive HomeErr where
  /-- PGF on a master core, LSE on a thread context, with its subcause (R342). -/
  | page (sub : Nat)
  /-- PRV SEALMAP (R303). -/
  | sealMap
  | seal
  | race
  /-- MCE with its subcause (R388). -/
  | mce (sub : Nat)
  /-- No way of the line's set can be given up yet: the access waits (R331). -/
  | busy
  deriving DecidableEq, Repr

/-- The entry of a table (R340); a poisoned line is not read (R408). -/
def State.pte (s : State) (x : Sec) (table idx : Nat) : Except HomeErr Nat :=
  if s.poisoned x (table + 8 * idx) then .error (.mce 3) else .ok (leNat (s.readPhys x (table + 8 * idx) 8))

/-- The checks of a leaf entry (R341, R342), and the translation it gives. -/
def leafOf (e va : Nat) (block : Bool) : Except Nat Tlb :=
  let pa := ptePa e
  let p := ptePerm e
  let size := if block then 2 ^ 29 else 2 ^ 16
  if pteRes0 e then .error subBadpte
  else if block && (pteBit e 8 || pa % 2 ^ 29 != 0) then .error subBadpte
  else if !block && pteBit e 8 && pa / 2 ^ 16 % 32 != va / 2 ^ 16 % 32 then .error subBadpte
  else match physKind pa size with
    | .none => .error subBadpa
    | .control => if p.nc && !p.u then .ok ⟨pa, p, pteBit e 7, pteBit e 8, block, 0⟩ else .error subBadpte
    | _ => .ok ⟨pa, p, pteBit e 7, pteBit e 8, block, 0⟩

/-- A table entry on the way down (R340, R341): the next table. -/
def tableOf (e : Nat) (leafAllowed : Bool) : Except Nat (Option Nat) :=
  match pteKind e with
  | 0 => .error subNomap
  | 1 => if pteRes0 e then .error subBadpte else .ok (some (ptePa e))
  | 2 => if leafAllowed then .ok none else .error subBadpte
  | _ => .error subBadpte

/-- The key of a table entry in the walker's cache of a controller: level 1 or 2, address space, and the address bits
that lead to it (R345). -/
def walkKey (level : Nat) (asid : BitVec 16) (va : Nat) : Nat :=
  ((level * 2 ^ 16 + asid.toNat) * 2 ^ 27 + va / (if level = 1 then 2 ^ 42 else 2 ^ 29)) * 8 + controllerOf asid va

/-- The entry that a walk meets at level 1 or 2: a cached one, or the one in memory (R345). -/
def State.tableEntryAt (s : State) (x : Sec) (asid : BitVec 16) (va level table idx : Nat) : Except HomeErr Nat :=
  match Sparse.get none (s.sec x).walker (walkKey level asid va) with
  | some w => .ok w.entry
  | none => s.pte x table idx

/-- A subcause as a failure at translation. -/
def liftPage {α : Type} (r : Except Nat α) : Except HomeErr α :=
  match r with
  | .ok a => .ok a
  | .error e => .error (.page e)

/-- The walk (R339, R340): the leaf of an address and the table entries of levels 1 and 2 on the way, or the failure. -/
def State.walkAll (s : State) (x : Sec) (asid : BitVec 16) (va : Nat) : Except HomeErr (Tlb × List (Nat × Nat)) := do
  let r := Sparse.get (Root.reset asid.toNat) (s.sec x).roots asid.toNat
  if !r.v then throw (.page subNomap)
  let e0 ← s.pte x r.root (va / 2 ^ 55 % 2)
  match ← liftPage (tableOf e0 false) with
  | none => throw (.page subBadpte)
  | some t1 =>
    let e1 ← s.tableEntryAt x asid va 1 t1 (va / 2 ^ 42 % 2 ^ 13)
    match ← liftPage (tableOf e1 false) with
    | none => throw (.page subBadpte)
    | some t2 =>
      let e2 ← s.tableEntryAt x asid va 2 t2 (va / 2 ^ 29 % 2 ^ 13)
      match ← liftPage (tableOf e2 true) with
      | none => (liftPage (leafOf e2 va true)).map fun t => (t, [(1, e1)])
      | some t3 =>
        let e3 ← s.pte x t3 (va / 2 ^ 16 % 2 ^ 13)
        match pteKind e3 with
        | 0 => throw (.page subNomap)
        | 2 => (liftPage (leafOf e3 va false)).map fun t => (t, [(1, e1), (2, e2)])
        | _ => throw (.page subBadpte)

/-- The leaf of an address. -/
def State.walk (s : State) (x : Sec) (asid : BitVec 16) (va : Nat) : Except HomeErr Tlb := (s.walkAll x asid va).map (·.1)

/-- The physical address of an address under its translation. -/
def Tlb.addr (t : Tlb) (va : Nat) : Nat := t.pa + va % (if t.block then 2 ^ 29 else 2 ^ 16)

/-- A cached translation of an address, if its controller holds one (R345). -/
def State.tlbHit (s : State) (x : Sec) (asid : BitVec 16) (va : Nat) : Option Tlb :=
  match Sparse.get none (s.sec x).tlb (pageKey asid va) with
  | some t => some t
  | none => Sparse.get none (s.sec x).tlb (blockKey asid va)

/-- How many entries of one kind a controller's TLB holds, and how many table entries its walker caches (R345). -/
def tlbCapacity (block : Bool) : Nat := if block then 512 else 16384
def walkerCapacity : Nat := 256

/-- The controller of a TLB entry's key. -/
def tlbController (key : Nat) : Nat :=
  if 2 ^ 60 ≤ key then key % 8 else controllerOf (BitVec.ofNat 16 (key / 2 ^ 40)) (key % 2 ^ 40 * 2 ^ 16)

/-- The key with the lowest order in a list of keys and orders. -/
def oldestKey (l : List (Nat × Nat)) : Option Nat :=
  (l.foldl (fun (o : Option (Nat × Nat)) e => match o with
    | none => some e
    | some p => if e.2 < p.2 then some e else some p) none).map (·.1)

/-- A cache makes room for one more entry: when the entries given have reached the capacity, the oldest goes (log entry
12). -/
def makeRoom {α : Type} (m : List (Nat × α)) (same : List (Nat × Nat)) (capacity : Nat) : List (Nat × α) :=
  if same.length < capacity then m else match oldestKey same with
    | some k => Sparse.erase m k
    | none => m

/-- Cache a translation at its controller (R345). -/
def State.tlbFill (s : State) (x : Sec) (asid : BitVec 16) (va : Nat) (t : Tlb) : State :=
  s.modSec x fun c =>
    let same := c.tlb.filterMap fun e => match e.2 with
      | some u => if u.block == t.block && tlbController e.1 == controllerOf asid va then some (e.1, u.order) else none
      | none => none
    { c with
      tlb := Sparse.put none (makeRoom c.tlb same (tlbCapacity t.block))
        (if t.block then blockKey asid va else pageKey asid va) (some { t with order := c.tlbOrder })
      tlbOrder := c.tlbOrder + 1 }

/-- Cache the table entries of a walk that succeeded, in the walker of their controller (R345). -/
def State.walkerFill (s : State) (x : Sec) (asid : BitVec 16) (va : Nat) (es : List (Nat × Nat)) : State :=
  s.modSec x fun c => es.foldl (fun c e =>
    let k := walkKey e.1 asid va
    if (Sparse.get none c.walker k).isSome then c
    else
      let same := c.walker.filterMap fun w => match w.2 with
        | some u => if w.1 % 8 = controllerOf asid va then some (w.1, u.order) else none
        | none => none
      { c with walker := Sparse.put none (makeRoom c.walker same walkerCapacity) k (some ⟨e.2, c.tlbOrder⟩)
               tlbOrder := c.tlbOrder + 1 }) c

/-- A sealed region of an address space that holds an address (R302). -/
def State.sealAt (s : State) (x : Sec) (asid : BitVec 16) (va : Nat) : Option SealRegion :=
  (s.sec x).seals.find? fun r => r.asid == asid && decide (r.base ≤ va) && decide (va < r.base + r.len)

/-- The seal identifier of an address; 0 stands for none (R303). -/
def State.sealId (s : State) (x : Sec) (asid : BitVec 16) (va : Nat) : Nat :=
  match s.sealAt x asid va with
  | some r => r.id
  | none => 0

/-- A walk found the translation of an address: a sealed page must still be mapped to the frame it had at the seal
(R303). -/
def State.sealCheck (s : State) (x : Sec) (asid : BitVec 16) (va : Nat) (r : Except HomeErr Tlb) : Except HomeErr Unit :=
  match s.sealAt x asid va with
  | none => r.map fun _ => ()
  | some reg => match r with
    | .error e => if e = .page subNomap then .error .sealMap else .error e
    | .ok t =>
      let page := va / 2 ^ 16 * 2 ^ 16
      match reg.frames.find? fun f => f.1 == page with
      | some f => if f.2 = t.addr page then .ok () else .error .sealMap
      | none => .ok ()

/-- Translate an address at its controller (R338, R345): a cached entry, or a walk whose result is cached. Stratus's own
accesses to the save-and-fault area check no seal (R459). -/
def State.translateAs (s : State) (x : Sec) (asid : BitVec 16) (va : Nat) (seals : Bool) :
    Except HomeErr (Tlb × State) :=
  match s.tlbHit x asid va with
  | some t => .ok (t, s)
  | none =>
    let r := s.walkAll x asid va
    match (if seals then s.sealCheck x asid va (r.map (·.1)) else .ok ()), r with
    | .ok _, .ok (t, es) => .ok (t, (s.walkerFill x asid va es).tlbFill x asid va t)
    | .error e, _ => .error e
    | _, .error e => .error e
def State.translate (s : State) (x : Sec) (asid : BitVec 16) (va : Nat) : Except HomeErr (Tlb × State) :=
  s.translateAs x asid va true

/-! ## How an access is checked (R342, R343) -/

/-- Kinds of access. -/
inductive AccKind where
  | read | write | atomic | fetch
  deriving DecidableEq, Repr

/-- How an access is checked: its kind, whether it needs U, whether an NC page admits it (a scalar or fetch access of
a master core), and the checked vt that makes it, if any (R320, R333). -/
structure Acc where
  kind : AccKind
  app : Bool
  nc : Bool
  race : Option VtName
  deriving DecidableEq, Repr

/-- The permission bits admit an access (R342). -/
def Acc.permits (a : Acc) (p : Perm) : Bool :=
  (!a.app || p.u) && (!p.nc || a.nc) &&
  match a.kind with
  | .read => p.rd
  | .write => p.w
  | .atomic => p.rd && p.w
  | .fetch => p.x

/-! ## Export entries and import slots (R354 to R356) -/

/-- An export entry. -/
def State.export_ (s : State) (x : Sec) (e : Nat) : Export := Sparse.get Export.reset (s.sec x).exports e

/-- The parts of a handle (R354). -/
def handleSec (h : Nat) : Sec := Fin.ofNat 4 (h / 2 ^ 32)
def handleIndex (h : Nat) : Nat := h / 2 ^ 16 % 4096
def handleGen (h : Nat) : Nat := h % 65536
def handleReserved (h : Nat) : Bool := h / 2 ^ 34 != 0 || h / 2 ^ 28 % 16 != 0

/-- An import slot. -/
def State.import_ (s : State) (x : Sec) (k : Nat) : Import := Sparse.get Import.reset (s.sec x).imports k

/-! ## The LLC (R329 to R333) -/

/-- The bank and set of a line (R329). -/
def bankOf (asid : BitVec 16) (va : Nat) : Nat :=
  (va / 2 ^ 7 % 256) ^^^ (va / 2 ^ 15 % 256) ^^^ (va / 2 ^ 23 % 256) ^^^ (va / 2 ^ 31 % 256) ^^^ (va / 2 ^ 39 % 256)
    ^^^ (va / 2 ^ 47 % 256) ^^^ (va / 2 ^ 55 % 2 * 128) ^^^ (asid.toNat % 256) ^^^ (asid.toNat / 256)
def setOf (va : Nat) : Nat := va / 2 ^ 15 % 512

/-- Set or drop a line. -/
def State.setLine (s : State) (k : Nat) (l : Option Line) : State := { s with llc := Sparse.put none s.llc k l }

/-- The lines of one set of one bank. -/
def State.setLines (s : State) (k : Nat) : List (Nat × Line) :=
  s.llc.filterMap fun e =>
    if lineSec e.1 = lineSec k ∧ setOf (lineVa e.1) = setOf (lineVa k)
        ∧ bankOf (lineAsid e.1) (lineVa e.1) = bankOf (lineAsid k) (lineVa k) then
      e.2.map fun l => (e.1, l)
    else none

/-- Order of victims: class first, then age (R330). -/
def classRank : LineClass → Nat
  | .stream => 0
  | .normal => 1
  | .keep => 2

/-- The victim of a set (R330). -/
def victimOf (ls : List (Nat × Line)) : Option Nat :=
  (ls.foldl (fun (b : Option (Nat × Line)) e => match b with
    | none => some e
    | some (k, l) =>
      if classRank e.2.cls < classRank l.cls ∨ (e.2.cls = l.cls ∧ e.2.age < l.age) then some e else some (k, l))
    none).map (·.1)

/-- What became of a write-back. -/
inductive WriteBack where
  | written
  /-- No valid mapping: the line is lost (R330). -/
  | lost
  /-- The device failed: the line stays dirty (R409). -/
  | failed
  deriving DecidableEq, Repr

/-- Write a dirty line to its frame (R330, R409): a line without a valid mapping is lost and the sector is told; a
device that fails leaves the line as it is. -/
def State.writeBack (s : State) (k : Nat) (l : Line) (notify : Bool) : State × WriteBack :=
  let x := lineSec k
  match s.translate x (lineAsid k) (lineVa k) with
  | .ok (t, s) =>
    let pa := t.addr (lineVa k)
    if (s.sec x).badDevice.contains (pa / 128) then (s, .failed)
    else ((s.writePhys x pa l.data).setPoison x pa l.poison, .written)
  | .error _ => (if notify then s.irqSector x irqWblost (word (lineVa k)) else s, .lost)

/-- The lowest free entry of the access-tag spill store of a sector. -/
def State.freeSpillEntry (s : State) (x : Sec) : Option Nat :=
  let used := ((s.sec x).spillStore.map (·.2)).mergeSort
  let n := (used.zipIdx.find? fun e => e.1 != e.2).elim used.length (·.2)
  if n < spillEntries then some n else none

/-- An evicted line writes its tags and marks to its entry of the spill store, or to a free one (R333): at most eleven
reading transactions fit, and without a free entry the race states are dropped and the transactions aborted. -/
def State.spillMarks (s : State) (k : Nat) : State :=
  let m := s.marksOf k
  let x := lineSec k
  if m.empty then s
  else
    let entry := match s.spillEntry k with
      | some n => some n
      | none => s.freeSpillEntry x
    match entry with
    | some n =>
      let s := s.modSec x fun c => { c with spillStore := (k, n) :: c.spillStore.filter fun e => e.1 != k }
      let s := s.abortAll (m.readers.drop 11) txRcap
      s.setMarks k (s.marksOf k)
    | none =>
      let s := s.setMarks k { m with gran := [] }
      let s := match m.writer with
        | some g => s.abortTx g txWcap 0
        | none => s
      s.abortAll m.readers txRcap

/-- Evict a line (R330, R333): a line whose write-back fails at the device stays (R409). -/
def State.evict (s : State) (k : Nat) : State :=
  match s.line k with
  | none => s
  | some l =>
    if l.dirty then match s.writeBack k l true with
      | (s, .failed) => s
      | (s, _) => (s.setLine k none).spillMarks k
    else (s.setLine k none).spillMarks k

/-- Where an address of a unit's request leads in application space: sector, address space and address there (R354,
R357). -/
def State.reqHome (s : State) (b : BankReq) (ea : Nat) : Option (Sec × BitVec 16 × Nat) :=
  if ea < 2 ^ 56 then some (b.sec, b.actor.asid, ea)
  else if ea / 2 ^ 56 = 0xFE then
    let h := (s.import_ b.sec (ea / 2 ^ 40 % 256)).handle.toNat
    let e := s.export_ (handleSec h) (handleIndex h)
    some (handleSec h, e.asid, e.base + ea % 2 ^ 40)
  else none

/-- The ranges that a request is to reach: a record's pieces, or the one range that it names. -/
def BankReq.targets (b : BankReq) : List (Nat × Nat) := if b.spans.isEmpty then [(b.ea, b.len)] else b.spans

/-- A line is pinned while a transfer in flight is to reach it (R331). -/
def State.pinned (s : State) (k : Nat) : Bool :=
  s.bankq.any fun b => !b.back && b.targets.any fun t => match s.reqHome b t.1 with
    | some (x, asid, va) =>
      lineKey x asid va ≤ k && decide (k ≤ lineKey x asid (va + (t.2 - 1))) && lineSec k == x
    | none => false

/-- Evict a victim of a set, trying the lines in the order of victims until one goes (R330, R331, R409); absent when
none of them can. -/
def State.evictOne (s : State) : Nat → List (Nat × Line) → Option State
  | 0, _ => none
  | n + 1, ls => match victimOf ls with
    | none => none
    | some v =>
      let t := s.evict v
      if (t.line v).isNone then some t else t.evictOne n (ls.filter fun e => e.1 != v)

/-- Allocate a line, evicting a victim from a full set (R330); absent while every way of the set is pinned (R331). -/
def State.allocate (s : State) (k : Nat) (l : Line) : Option State :=
  let ls := s.setLines k
  let room := if ls.length < 16 then some s else s.evictOne 16 (ls.filter fun e => !s.pinned e.1)
  room.map fun s =>
    let age := (s.sec (lineSec k)).lineAge
    (s.modSec (lineSec k) fun c => { c with lineAge := c.lineAge + 1 }).setLine k (some { l with age := age })

/-- A line becomes the most recently used of its set (R330). -/
def State.touch (s : State) (k : Nat) : State :=
  match s.line k with
  | none => s
  | some l =>
    let age := (s.sec (lineSec k)).lineAge
    (s.modSec (lineSec k) fun c => { c with lineAge := c.lineAge + 1 }).setLine k (some { l with age := age })

/-- Where an access is served: a line of the LLC, or the controller for an NC page. -/
inductive Served where
  | line (k : Nat)
  | nc (pa : Nat) (t : Tlb)
  deriving DecidableEq, Repr

/-- Find the place of an access to part of one line (R330, R338, R343): a held line is checked against the bits it
holds; on a miss the page is translated and checked, and the line filled. -/
def State.locate (s : State) (x : Sec) (asid : BitVec 16) (va : Nat) (a : Acc) (whole : Bool) :
    Except HomeErr (Served × State) :=
  let k := lineKey x asid va
  match s.line k with
  | some l => if a.permits l.perm then .ok (.line k, s.touch k) else .error (.page subPerm)
  | none => match s.translate x asid va with
    | .error e => .error e
    | .ok (t, s) =>
      if !a.permits t.perm then .error (.page subPerm)
      else if t.perm.nc then .ok (.nc (t.addr va) t, s)
      else
        let pa := t.addr (va / 128 * 128)
        let l : Line := { data := if whole then List.replicate 128 0 else s.readPhys x pa 128, dirty := false
                          cls := .normal, age := 0, perm := t.perm, poison := !whole && s.poisoned x pa }
        match s.allocate k l with
        | some s => .ok (.line k, s)
        | none => .error .busy

/-! ## Race checking (R320, R321, R333) -/

/-- The state of a granule after a plain access by vt `n`; absent when the access races (R321). -/
def raceNext (r : Option Race) (n : Nat) (write : Bool) : Option Race :=
  match r, write with
  | none, false => some (.rd n)
  | none, true => some (.wr n)
  | some (.rd m), false => if m = n then some (.rd n) else some .rdm
  | some (.rd m), true => if m = n then some (.wr n) else none
  | some .rdm, false => some .rdm
  | some .rdm, true => none
  | some (.wr m), _ => if m = n then some (.wr m) else none

/-- The granules of a line that a range of it touches. -/
def granulesOf (off n : Nat) : List Nat := (List.range 8).filter fun g => off < 16 * (g + 1) ∧ 16 * g < off + n

/-- Check and record a checked access to part of a line (R321, R333): absent when it races, and then no granule
changes. -/
def raceLine (m : Marks) (v : VtName) (write : Bool) (gs : List Nat) : Option Marks :=
  gs.foldl (fun (r : Option Marks) g => match r with
    | none => none
    | some m => match Sparse.get none m.gran g with
      | none => (raceNext none v.n write).map fun q => { m with gran := Sparse.put none m.gran g (some (v.uid, q)) }
      | some (uid, q) =>
        if uid ≠ v.uid then some m
        else (raceNext (some q) v.n write).map fun q' =>
          { m with gran := Sparse.put none m.gran g (some (uid, q')) }) (some m)

/-- The race check of an access to part of one line. -/
def State.raceCheck (s : State) (x : Sec) (asid : BitVec 16) (va n : Nat) (a : Acc) : Option State :=
  match a.race with
  | none => some s
  | some v =>
    let k := lineKey x asid va
    (raceLine (s.marksOf k) v (a.kind == .write) (granulesOf (va % 128) n)).map fun m => s.setMarks k m

/-! ## Master cores' caches (R334, R335, R343) -/

/-- Lines that an L1 cache and L2 of a master core hold: 64 KiB and 2 MiB. -/
def l1Lines : Nat := 512
def l2Lines : Nat := 16384

/-- The copies of a line. -/
def State.copiesAt (s : State) (k : Nat) : List Copy := Sparse.get [] s.copies k

/-- Set the copies of a line. -/
def State.setCopies (s : State) (k : Nat) (cs : List Copy) : State := { s with copies := Sparse.put [] s.copies k cs }

/-- A master core's copy of a line. -/
def State.copyOf (s : State) (n : Fin 16) (k : Nat) : Option Copy := (s.copiesAt k).find? fun c => c.core == n

/-- Change or drop a master core's copy of a line. -/
def State.modCopy (s : State) (n : Fin 16) (k : Nat) (f : Copy → Option Copy) : State :=
  s.setCopies k ((s.copiesAt k).filterMap fun c => if c.core = n then f c else some c)

/-- The lines of a sector of which a master core holds a copy that a test names, with their orders. -/
def State.heldBy (s : State) (x : Sec) (n : Fin 16) (p : Copy → Bool) : List (Nat × Nat) :=
  s.copies.filterMap fun e =>
    if lineSec e.1 = x then (e.2.find? fun c => c.core == n && p c).map fun c => (e.1, c.order) else none

/-- An L1 cache of a master core makes room for a line: the oldest goes (log entry 12). -/
def State.l1Room (s : State) (x : Sec) (n : Fin 16) (p : Copy → Bool) (drop : Copy → Copy) : State :=
  let held := s.heldBy x n p
  if held.length < l1Lines then s else match oldestKey held with
    | some k => s.modCopy n k fun c => some (drop c)
    | none => s

/-- A master core takes a copy of a held line into L2 and an L1 cache, with the line's permission bits (R334, R343). -/
def State.takeCopy (s : State) (x : Sec) (n : Fin 16) (k : Nat) (fetch : Bool) : State :=
  match s.line k with
  | none => s
  | some l =>
    let held := s.heldBy x n fun _ => true
    let s := if held.length < l2Lines then s else match oldestKey held with
      | some o => s.modCopy n o fun _ => none
      | none => s
    let s := if fetch then s.l1Room x n (·.l1i) fun c => { c with l1i := false }
      else s.l1Room x n (·.l1d) fun c => { c with l1d := false }
    let age := (s.sec x).lineAge
    (s.modSec x fun c => { c with lineAge := c.lineAge + 1 }).setCopies k
      ({ core := n, data := l.data, perm := l.perm, l1i := fetch, l1d := !fetch, order := age } :: s.copiesAt k)

/-- A line that a master core reads from its L2 enters the L1 cache too. -/
def State.enterL1 (s : State) (x : Sec) (n : Fin 16) (k : Nat) (c : Copy) (fetch : Bool) : State :=
  if (if fetch then c.l1i else c.l1d) then s
  else
    let s := if fetch then s.l1Room x n (·.l1i) fun c => { c with l1i := false }
      else s.l1Room x n (·.l1d) fun c => { c with l1d := false }
    s.modCopy n k fun c => some (if fetch then { c with l1i := true } else { c with l1d := true })

/-- A bank accepts a write to a line only after the copies have been invalidated (R335). -/
def State.dropCopies (s : State) (k : Nat) : State := if (s.copiesAt k).isEmpty then s else s.setCopies k []

/-- The writer's own copy is brought up to date (R334): it is the held line's bytes. -/
def State.keepCopy (s : State) (k : Nat) (own : Option Copy) : State :=
  match own, s.line k with
  | some c, some l => s.setCopies k ({ c with data := l.data } :: (s.copiesAt k).filter fun d => d.core != c.core)
  | _, _ => s

/-! ## Reading and writing at the home -/

/-- Agents asleep on the 8-byte word that holds an address (R168). -/
def State.sleepers (s : State) (x : Sec) (asid : BitVec 16) (va n : Nat) : List Agent :=
  s.harts.filterMap fun e => match e.2.park with
    | some (.sleep sx sa sv _) =>
      if sx = x.val ∧ sa = asid.toNat ∧ sv < va + n ∧ va < sv + 8 then some (agentOfKey e.1) else none
    | _ => none

/-- Wake the sleepers of a range whose bytes changed, and the PCIe port that watches its ring's tail (R168, R435). -/
def State.wakeRange (s : State) (x : Sec) (asid : BitVec 16) (va n : Nat) : State :=
  let s := s.postAll ((s.sleepers x asid va n).map .sleepWake)
  let c := s.sec x
  if c.pcieRing ≠ 0 ∧ c.pcieAsid = asid ∧ c.pcieRing + Config.pcieTail < va + n ∧ va < c.pcieRing + Config.pcieTail + 8 then
    s.post (.pcieDescriptorRing x)
  else s

/-- The key of a byte of an address space, for the record of overwritten bytes. -/
def vaKey (asid : BitVec 16) (va : Nat) : Nat := asid.toNat * 2 ^ 56 + va

/-- Record the bytes that a write replaces (R130). -/
def State.logOld (s : State) (x : Sec) (asid : BitVec 16) (va : Nat) (old : List Byte) : State :=
  let n := s.wseq + 1
  State.modSec { s with wseq := n } x fun c =>
    { c with wlog := (old.zipIdx.map fun b => (n, vaKey asid (va + b.2), b.1)).reverse ++ c.wlog }

/-- Read part of one line at the home (R309, R408). -/
def State.readChunk (s : State) (x : Sec) (asid : BitVec 16) (va n : Nat) (a : Acc) :
    Except HomeErr (List Byte × State) :=
  match s.locate x asid va a false with
  | .error e => .error e
  | .ok (.nc pa _, s) =>
    if s.poisoned x pa then .error (.mce 3) else .ok (s.readPhys x pa n, s)
  | .ok (.line k, s) => match s.raceCheck x asid va n a with
    | none => .error .race
    | some s => match s.line k with
      | none => .error (.page subNomap)
      | some l => if l.poison then .error (.mce 3) else .ok (slice l.data (va % 128) n, s)

/-- Write bytes of a frame; a write of the whole 128-byte line clears its poison (R408). -/
def State.writeFrame (s : State) (x : Sec) (pa : Nat) (bs : List Byte) : State :=
  let t := s.writePhys x pa bs
  if pa % 128 = 0 ∧ bs.length = 128 then t.setPoison x pa false else t

/-- Put bytes at a place that has passed its checks. -/
def State.putBytes (s : State) (x : Sec) (asid : BitVec 16) (va : Nat) (p : Served) (bs : List Byte) : State :=
  match p with
  | .nc pa _ =>
    (s.logOld x asid va (s.readPhys x pa bs.length)).writeFrame x pa bs
  | .line k => match s.line k with
    | none => s
    | some l =>
      let old := slice l.data (va % 128) bs.length
      let l' := { l with data := splice l.data (va % 128) bs, dirty := true
                         poison := l.poison && !(bs.length == 128) }
      let s := ((s.setLine k (some l')).dropCopies k).logOld x asid va old
      if old = bs then s else s.wakeRange x asid va bs.length

/-- Write part of one line at the home (R309): a sealed line refuses, then the race check, then the bytes. -/
def State.writeChunk (s : State) (x : Sec) (asid : BitVec 16) (va : Nat) (bs : List Byte) (a : Acc) :
    Except HomeErr State :=
  match s.locate x asid va a (bs.length == 128) with
  | .error e => .error e
  | .ok (p, s) =>
    if (s.sealAt x asid va).isSome then .error .seal
    else match p with
      | .nc _ _ => .ok (s.putBytes x asid va p bs)
      | .line _ => match s.raceCheck x asid va bs.length a with
        | none => .error .race
        | some s => .ok (s.putBytes x asid va p bs)

/-- The pieces of a range that lie in one line each: address and length. -/
def chunks (va n : Nat) : List (Nat × Nat) :=
  let first := va / 128
  (List.range (if n = 0 then 0 else (va + n - 1) / 128 - first + 1)).map fun i =>
    let lo := max va ((first + i) * 128)
    let hi := min (va + n) ((first + i + 1) * 128)
    (lo, hi - lo)

/-- Read a range of application space at its home, with the address of the failure. -/
def State.readHome (s : State) (x : Sec) (asid : BitVec 16) (va n : Nat) (a : Acc) :
    Except (HomeErr × Nat) (List Byte × State) :=
  (chunks va n).foldlM (fun (r : List Byte × State) c =>
    match r.2.readChunk x asid c.1 c.2 a with
    | .ok (bs, s) => .ok (r.1 ++ bs, s)
    | .error e => .error (e, c.1)) ([], s)

/-- Write a range of application space at its home, with the address of the failure. -/
def State.writeHome (s : State) (x : Sec) (asid : BitVec 16) (va : Nat) (bs : List Byte) (a : Acc) :
    Except (HomeErr × Nat) State :=
  (chunks va bs.length).foldlM (fun (s : State) c =>
    match s.writeChunk x asid c.1 (slice bs (c.1 - va) c.2) a with
    | .ok s => .ok s
    | .error e => .error (e, c.1)) s

/-! ## Accesses of Stratus to a spawn's save-and-fault area (R459) -/

/-- Bytes of a page of the area, seen by Stratus: those of the LLC line where the LLC holds it, those of the frame
otherwise (log entry 13); zeros and a notification when the page has no valid mapping, one until the page has been
reached again. -/
def State.areaPage (s : State) (x : Sec) (asid : BitVec 16) (va : Nat) : Option Nat × State :=
  match s.translateAs x asid va false with
  | .ok (t, s) =>
    let page := vaKey asid (va / 2 ^ 16 * 2 ^ 16)
    (some (t.addr va), s.modSec x fun c => { c with areaSeen := c.areaSeen.filter (· ≠ page) })
  | .error _ =>
    let page := vaKey asid (va / 2 ^ 16 * 2 ^ 16)
    if (s.sec x).areaSeen.contains page then (none, s)
    else (none, (s.modSec x fun c => { c with areaSeen := page :: c.areaSeen }).irqSector x irqArea
      (word (va / 2 ^ 16 * 2 ^ 16)))

/-- Write bytes that lie in one line of the area (R459). -/
def State.areaWriteChunk (s : State) (x : Sec) (asid : BitVec 16) (va : Nat) (bs : List Byte) : State :=
  match s.areaPage x asid va with
  | (none, s) => s
  | (some pa, s) => match s.line (lineKey x asid va) with
    | some _ => s.putBytes x asid va (.line (lineKey x asid va)) bs
    | none => (((s.dropCopies (lineKey x asid va)).logOld x asid va (s.readPhys x pa bs.length)).writeFrame x pa bs).wakeRange
        x asid va bs.length

/-- Bytes that cannot be delivered to Stratus itself: a line of an area or of the spill queue that is poisoned (R408)
reads as free values, and the sector is told (log entry 105). -/
def State.lostBytes (s : State) (x : Sec) (pa n : Nat) : List Byte × State :=
  ((List.range n).map fun i => BitVec.ofNat 8 (Config.freeWord (s.freeCtr + i)).toNat,
    { s with freeCtr := s.freeCtr + n }.irqSector x irqMclog (word pa))

/-- Read bytes of one line of a frame for Stratus itself. -/
def State.readFrame (s : State) (x : Sec) (pa n : Nat) : List Byte × State :=
  if s.poisoned x pa then s.lostBytes x pa n else (s.readPhys x pa n, s)

/-- Read bytes that lie in one line of the area (R459). -/
def State.areaReadChunk (s : State) (x : Sec) (asid : BitVec 16) (va n : Nat) : List Byte × State :=
  match s.areaPage x asid va with
  | (none, s) => (List.replicate n 0, s)
  | (some pa, s) => match s.line (lineKey x asid va) with
    | some l => if l.poison then s.lostBytes x pa n else (slice l.data (va % 128) n, s)
    | none => s.readFrame x pa n

/-- Read a range of physical memory for Stratus itself. -/
def State.readFrames (s : State) (x : Sec) (pa n : Nat) : List Byte × State :=
  (chunks pa n).foldl (fun (r : List Byte × State) c =>
    let q := r.2.readFrame x c.1 c.2
    (r.1 ++ q.1, q.2)) ([], s)

/-- Write a range of the area. -/
def State.areaWrite (s : State) (x : Sec) (asid : BitVec 16) (va : Nat) (bs : List Byte) : State :=
  (chunks va bs.length).foldl (fun s c => s.areaWriteChunk x asid c.1 (slice bs (c.1 - va) c.2)) s

/-- Read a range of the area. -/
def State.areaRead (s : State) (x : Sec) (asid : BitVec 16) (va n : Nat) : List Byte × State :=
  (chunks va n).foldl (fun (r : List Byte × State) c =>
    let q := r.2.areaReadChunk x asid c.1 c.2
    (r.1 ++ q.1, q.2)) ([], s)

/-! ## Scratchpads and receive channels (R22 to R24, R279) -/

/-- The key of a scratchpad byte and of a scratchpad word. -/
def spadKey (x : Sec) (cl : Fin 96) (off : Nat) : Nat := clusterKey x cl * 2 ^ 21 + off
def spadWord (x : Sec) (cl : Fin 96) (off : Nat) : Nat := clusterKey x cl * 2 ^ 18 + off / 8

/-- Bytes of a scratchpad from an offset up. -/
def State.spadBytes (s : State) (x : Sec) (cl : Fin 96) (off : Nat) : Nat → List Byte
  | 0 => []
  | n + 1 => Sparse.get 0 s.spad (spadKey x cl off) :: s.spadBytes x cl (off + 1) n

/-- Put bytes into a scratchpad from an offset up. -/
def State.spadPut (s : State) (x : Sec) (cl : Fin 96) (off : Nat) : List Byte → State
  | [] => s
  | b :: bs => State.spadPut { s with spad := Sparse.put 0 s.spad (spadKey x cl off) b } x cl (off + 1) bs

/-- The word at an offset is full (R22). -/
def State.spadFull (s : State) (x : Sec) (cl : Fin 96) (off : Nat) : Bool :=
  !(Sparse.get false s.spadEmpty (spadWord x cl off))

/-- Offsets of the words that a range touches. -/
def wordsOf (off n : Nat) : List Nat :=
  (List.range (if n = 0 then 0 else (off + n - 1) / 8 - off / 8 + 1)).map fun i => (off / 8 + i) * 8

/-- Set or clear the full bit of a word. -/
def State.putFull (s : State) (x : Sec) (cl : Fin 96) (off : Nat) (full : Bool) : State :=
  { s with spadEmpty := Sparse.put false s.spadEmpty (spadWord x cl off) (!full) }

/-- A word of a scratchpad whose last error was lasting (R408). -/
def State.badWord (s : State) (x : Sec) (cl : Fin 96) (off : Nat) : Bool :=
  (s.sec x).badWords.contains (cl.val * 2 ^ 18 + off / 8)

/-- Bytes written to a scratchpad (R22, R408): the words are full, and an error is cleared by a store of the whole word.
-/
def State.spadFill (s : State) (x : Sec) (cl : Fin 96) (off : Nat) (bs : List Byte) : State :=
  let s := s.spadPut x cl off bs
  (wordsOf off bs.length).foldl (fun s o =>
    let s := if off ≤ o ∧ o + 8 ≤ off + bs.length ∧ s.badWord x cl o then
      s.modSec x fun c => { c with badWords := c.badWords.filter (· ≠ cl.val * 2 ^ 18 + o / 8) } else s
    s.putFull x cl o true) s

/-- A range reads a byte at or above the watermark and inside the range of an open channel (R24). -/
def channelBlocks (c : Channel) (off n : Nat) : Bool :=
  c.isOpen && decide (max off c.wm < min (off + n) (c.base + c.len))

/-- A read of scratchpad bytes must wait for a watermark (R24). -/
def State.belowMark (s : State) (x : Sec) (cl : Fin 96) (off n : Nat) : Bool :=
  (s.cluster x cl).channels.toList.any fun c => channelBlocks c off n

/-- A read of scratchpad bytes meets a word with a lasting error (R408). -/
def State.spadBad (s : State) (x : Sec) (cl : Fin 96) (off n : Nat) : Bool :=
  (wordsOf off n).any fun o => s.badWord x cl o

/-! ## Contexts parked on words (R148) -/

/-- The form of a context parked on a word that comes next: the earliest in the order of parking that the word's state
allows. -/
def State.feNext (s : State) (x : Sec) (cl : Fin 96) (off : Nat) : Option (Nat × Agent × FeKind × Fin 16) :=
  s.harts.foldl (fun b e => match e.2.park with
    | some (.fe k kind d o) =>
      if k = spadWord x cl off ∧ ((kind == .stfe) != s.spadFull x cl off) = true ∧ b.all (fun q => decide (o < q.1)) = true then
        some (o, agentOfKey e.1, kind, d) else b
    | _ => b) none

/-- That form completes as one step: the state, or none when there is none. A load waits for its watermark, and one of a
word with a lasting error executes again and faults (R24, R408). -/
def State.feServe (s : State) (x : Sec) (cl : Fin 96) (off : Nat) : Option State :=
  match s.feNext x cl off with
  | none => none
  | some (_, g, kind, d) =>
    match kind with
    | .stfe => some ((s.completeParked g id).spadFill x cl off (leBytes 8 ((s.hart g).s.get d).val.toNat))
    | k =>
      if s.belowMark x cl off 8 then none
      else if s.spadBad x cl off 8 then some (s.unpark g)
      else
        let v := word (leNat (s.spadBytes x cl off 8))
        let s := s.completeParked g fun h => { h.putS d v with roSeq := s.wseq }
        some (if k = .ldfe then s.putFull x cl off false else s)

/-- Parked forms complete as long as one can. -/
def State.feServeAll (s : State) (x : Sec) (cl : Fin 96) (off : Nat) : Nat → State
  | 0 => s
  | n + 1 => match s.feServe x cl off with
    | some t => t.feServeAll x cl off n
    | none => s

/-- How many contexts are parked on a word. -/
def State.feCount (s : State) (wkey : Nat) : Nat :=
  (s.harts.filter fun e => match e.2.park with
    | some (.fe w _ _ _) => w == wkey
    | _ => false).length

/-- The contexts parked on a word are served in the order of R148. -/
def State.feSettle (s : State) (x : Sec) (cl : Fin 96) (off : Nat) : State :=
  s.feServeAll x cl off (s.feCount (spadWord x cl off))

/-- Set or clear the full bit of a word, and serve the contexts that wait for it. -/
def State.setFull (s : State) (x : Sec) (cl : Fin 96) (off : Nat) (full : Bool) : State :=
  (s.putFull x cl off full).feSettle x cl off

/-- A write to scratchpad bytes, after which the contexts that wait for a word of them are served. -/
def State.spadWrite (s : State) (x : Sec) (cl : Fin 96) (off : Nat) (bs : List Byte) : State :=
  (wordsOf off bs.length).foldl (fun s o => s.feSettle x cl o) (s.spadFill x cl off bs)

/-! ## Arrival marks (R279) -/

/-- The watermark of a channel from its arrival marks (R279): the lowest word without one. -/
def State.markScan (s : State) (x : Sec) (cl : Fin 96) (off : Nat) : Nat → Nat
  | 0 => off
  | n + 1 => if Sparse.get false s.spadMarks (spadWord x cl off) then s.markScan x cl (off + 8) n else off

/-- Advance the watermarks of a cluster over their marked prefixes and make the wake due (R24, R279). -/
def State.advanceMarks (s : State) (x : Sec) (cl : Fin 96) : State :=
  let c := s.cluster x cl
  let chs := c.channels.map fun ch =>
    if ch.isOpen then { ch with wm := s.markScan x cl ch.wm ((ch.base + ch.len - ch.wm) / 8) } else ch
  if chs = c.channels then s
  else (s.setCluster x cl { c with channels := chs }).post (.watermarkWake x cl)

/-- A word lies in an open channel's range. -/
def inChannel (c : Cluster) (off : Nat) : Bool :=
  c.channels.toList.any fun ch => ch.isOpen && decide (ch.base ≤ off) && decide (off < ch.base + ch.len)

/-- Writes that set arrival marks (R279): the words of the range inside open channels are marked. -/
def State.markArrival (s : State) (x : Sec) (cl : Fin 96) (off n : Nat) : State :=
  let c := s.cluster x cl
  let ws := (wordsOf off n).filter fun o => inChannel c o
  let s := { s with spadMarks := ws.foldl (fun m o => Sparse.put false m (spadWord x cl o) true) s.spadMarks }
  if ws.isEmpty then s else s.advanceMarks x cl

end Sys2Proof.Machine
end

