-- ==== Sys2Proof/Machine/Control.lean ====
section
/-! DEFINITION. The Stratus control window (R337) and what lies in it: export entries, import slots and the frame pools
(R354 to R358). -/

namespace Sys2Proof.Machine

/-! ## Frame pools (R337) -/

/-- The frame that a written value names: bits [51:21]. -/
def frameOf (v : Nat) : Nat := v / 2 ^ 21 % 2 ^ 31 * 2 ^ 21

/-- Push a frame; a push to a pool of 1,024 is discarded. -/
def poolPush (p : List Nat) (v : Nat) : List Nat := if p.length < 1024 then frameOf v :: p else p

/-- The frame that a pop returns, 0 when the pool is empty. -/
def poolTop (p : List Nat) : Nat := p.headD 0

/-- Push or pop a sector's near or far pool. -/
def State.npoolPush (s : State) (x : Sec) (v : Nat) : State := s.modSec x fun c => { c with npool := poolPush c.npool v }
def State.fpoolPush (s : State) (x : Sec) (v : Nat) : State := s.modSec x fun c => { c with fpool := poolPush c.fpool v }
def State.npoolPop (s : State) (x : Sec) : Nat × State :=
  (poolTop (s.sec x).npool, s.modSec x fun c => { c with npool := c.npool.tail })
def State.fpoolPop (s : State) (x : Sec) : Nat × State :=
  (poolTop (s.sec x).fpool, s.modSec x fun c => { c with fpool := c.fpool.tail })

/-! ## Export entries (R355, R358) -/

/-- Change an export entry. -/
def State.modExport (s : State) (x : Sec) (e : Nat) (f : Export → Export) : State :=
  s.modSec x fun c => { c with exports := Sparse.put Export.reset c.exports e (f (Sparse.get Export.reset c.exports e)) }

/-- The range of an entry is legal: a multiple of 64 KiB from 64 KiB to 2^40 that stays in application space. -/
def Export.legal (e : Export) : Bool :=
  decide (e.len % 65536 = 0) && decide (65536 ≤ e.len) && decide (e.len ≤ 2 ^ 40) && decide (e.base + e.len ≤ 2 ^ 56)

/-- Open an entry when its range is legal (R355). -/
def State.exportOpen (s : State) (x : Sec) (e : Nat) : State :=
  let en := s.export_ x e
  if !en.valid && en.legal then s.modExport x e fun en => { en with valid := true } else s

/-- Revoke: the generation advances and BUSY is set until the requests past the check have settled (R358). -/
def State.exportRevoke (s : State) (x : Sec) (e : Nat) (bump : Bool) : State :=
  let en := s.export_ x e
  if bump || en.valid then
    (s.modExport x e fun en => { en with valid := bump && en.valid, busy := true, gen := en.gen + 1 }).post
      (.revocationDrained x (Fin.ofNat 4096 e))
  else s

/-- A word of an export entry as read (R355). -/
def exportWord (e : Export) (w : Nat) : Nat :=
  match w with
  | 0 => e.base
  | 1 => e.len
  | 2 => e.valid.toNat * 2 ^ 31 + e.busy.toNat * 2 ^ 30 + e.wr.toNat * 2 ^ 17 + e.rd.toNat * 2 ^ 16 + e.asid.toNat
  | _ => e.gen.toNat

/-- A write to a word of an export entry (R355, R358). BASE, LEN, ASID, RD and WR hold while VALID = 1. -/
def State.exportWrite (s : State) (x : Sec) (e w v : Nat) : State :=
  let en := s.export_ x e
  match w with
  | 0 => if en.valid then s else s.modExport x e fun en => { en with base := v / 2 ^ 16 % 2 ^ 40 * 2 ^ 16 }
  | 1 => if en.valid then s else s.modExport x e fun en => { en with len := v % 2 ^ 41 }
  | 2 =>
    let valid := v / 2 ^ 31 % 2 == 1
    let bump := v / 2 ^ 29 % 2 == 1
    if en.valid then
      if !valid then s.exportRevoke x e false
      else if bump then s.exportRevoke x e true
      else s
    else if valid && !en.legal then s
    else
      let s := s.modExport x e fun en =>
        { en with asid := BitVec.ofNat 16 v, rd := v / 2 ^ 16 % 2 == 1, wr := v / 2 ^ 17 % 2 == 1 }
      let s := if bump then s.exportRevoke x e true else s
      if valid then s.exportOpen x e else s
  | _ => s

/-! ## Bridges (R412, R414, R421) -/

/-- Two sectors are connected: their own bridge, or a third sector with both bridges in service (R412, R414). -/
def bridgeOf (a b : Sec) : Option (Fin 6) :=
  match min a.val b.val, max a.val b.val with
  | 0, 1 => some 0
  | 0, 2 => some 1
  | 0, 3 => some 2
  | 1, 2 => some 3
  | 1, 3 => some 4
  | 2, 3 => some 5
  | _, _ => none
def State.bridgeUp (s : State) (a b : Sec) : Bool :=
  match bridgeOf a b with
  | some k => s.bridges.get k
  | none => false
def State.reachable (s : State) (a b : Sec) : Bool :=
  s.bridgeUp a b || ([0, 1, 2, 3] : List Sec).any fun c => s.bridgeUp a c && s.bridgeUp c b

/-- Traffic still passes between a sector and a neighbour (R421): a sector that is being reset exchanges requests with a
neighbour until that neighbour has fenced its end of the bridge. -/
def State.bridgeTakes (s : State) (x y : Sec) : Bool :=
  match (s.sec x).power with
  | .running => true
  | .settling _ => true
  | .resetting ws => ws.contains y
  | _ => false

/-! ## Import slots (R354, R356) -/

/-- Set an import slot. -/
def State.setImport (s : State) (x : Sec) (k : Nat) (i : Import) : State :=
  s.modSec x fun c => { c with imports := Sparse.put Import.reset c.imports k i }

/-- A write to HANDLE (R356): VALID and ERR are cleared at once; a handle of the own sector or with a reserved bit gives
ERR without a query, any other non-zero one is sent to its home. DESIGN CHOICE (log entry 120): RD, WR and LEN become 0
too, until a home answers. -/
def State.importHandleWrite (s : State) (x : Sec) (k : Nat) (v : Word) : State :=
  let h := v.toNat
  let s := s.setImport x k { Import.reset with handle := v }
  if h = 0 then s
  else if handleReserved h || handleSec h = x then s.setImport x k { Import.reset with handle := v, err := true }
  else s.post (.importQuery x (Fin.ofNat 256 k))

/-- The home's answer to a handle query (R356); one that cannot reach its home is answered with an error (R414, R421).
-/
def State.importQuery (s : State) (x : Sec) (k : Nat) : State :=
  let i := s.import_ x k
  let h := i.handle.toNat
  if h = 0 ∨ i.valid ∨ i.err then s
  else
    let e := s.export_ (handleSec h) (handleIndex h)
    if s.bridgeTakes (handleSec h) x ∧ s.reachable x (handleSec h) ∧ e.valid ∧ e.gen.toNat = handleGen h then
      s.setImport x k { i with valid := true, rd := e.rd, wr := e.wr, len := e.len }
    else s.setImport x k { i with err := true }

/-- Word +8 of an import slot (R356). -/
def importStatus (i : Import) : Nat :=
  i.valid.toNat * 2 ^ 63 + i.err.toNat * 2 ^ 62 + i.rd.toNat * 2 ^ 61 + i.wr.toNat * 2 ^ 60 + i.len

/-! ## The window (R337) -/

/-- A read of 8 bytes at an offset of the window; a read of a pool pops it. -/
def State.controlRead (s : State) (x : Sec) (off : Nat) : Nat × State :=
  if off < 0x20000 then (exportWord (s.export_ x (off / 32)) (off / 8 % 4), s)
  else if off < 0x21000 then
    let i := s.import_ x ((off - 0x20000) / 16)
    (if off / 8 % 2 = 0 then i.handle.toNat else importStatus i, s)
  else if off = 0x21000 then s.npoolPop x
  else if off = 0x21008 then ((s.sec x).npool.length, s)
  else if off = 0x21010 then s.fpoolPop x
  else if off = 0x21018 then ((s.sec x).fpool.length, s)
  else (0, s)

/-- A write of 8 bytes at an offset of the window. -/
def State.controlWrite (s : State) (x : Sec) (off : Nat) (v : Word) : State :=
  if off < 0x20000 then s.exportWrite x (off / 32) (off / 8 % 4) v.toNat
  else if off < 0x21000 then
    if off / 8 % 2 = 0 then s.importHandleWrite x ((off - 0x20000) / 16) v else s
  else if off = 0x21000 then s.npoolPush x v.toNat
  else if off = 0x21010 then s.fpoolPush x v.toNat
  else s

end Sys2Proof.Machine
end

