-- ==== Sys2Proof/Machine/Ops.lean ====
section
/-! DEFINITION. What every meaning is built from: how an instruction ends, taking an exception and returning from one,
fetching, and the accesses of an agent to memory (R7, R38, R46, R47, R61, R62, R125, R173, R388 to R397). -/

namespace Sys2Proof.Machine

/-! ## Causes (R388) -/

def cILL : Nat := 0x01
def cHMU : Nat := 0x02
def cPRV : Nat := 0x03
def cFMT : Nat := 0x04
def cALN : Nat := 0x05
def cPGF : Nat := 0x06
def cLSE : Nat := 0x07
def cRACE : Nat := 0x08
def cSHP : Nat := 0x09
def cPAT : Nat := 0x0A
def cACC : Nat := 0x0B
def cMIG : Nat := 0x0C
def cREMR : Nat := 0x0D
def cPEER : Nat := 0x0E
def cSEAL : Nat := 0x0F
def cWDG : Nat := 0x10
def cBRK : Nat := 0x11
def cSYS : Nat := 0x12
def cMCE : Nat := 0x13
def cCHL : Nat := 0x14
def cIRQ : Nat := 0x15
def cADR : Nat := 0x16

/-- The order of reporting (R389). -/
def causeOrder : List Nat :=
  [cADR, cILL, cHMU, cPRV, cFMT, cALN, cSHP, cACC, cMIG, cREMR, cLSE, cPGF, cPEER, cSEAL, cRACE, cMCE]

/-- The place of a cause in the order of reporting. -/
def causeRank (c : Nat) : Nat := (causeOrder.findIdx? (· == c)).getD 16

/-- The fault that is reported among several: the first cause in the order of reporting, the earliest of the list. -/
def reported (fs : List Flt) : Option Flt :=
  fs.foldl (fun (b : Option Flt) f => match b with
    | none => some f
    | some g => if causeRank f.cause < causeRank g.cause then some f else some g) none

/-- A fault without an address. -/
def flt (cause sub : Nat) : Flt := ⟨cause, sub, 0, 0, 0⟩

/-- A fault with an address. -/
def fltAt (cause sub : Nat) (addr : Nat) : Flt := ⟨cause, sub, word addr, 0, 0⟩

/-! ## How the body of an instruction ends -/

/-- Where execution goes after an instruction: on, to a target, or nowhere (the registers are already as they must
be). -/
inductive Next where
  | seq
  | jump (pc : Word)
  | stay
  deriving DecidableEq, Repr

/-- Why an instruction does not complete: a fault, a park, a wait without a park (R371), a wait for a way of an LLC set
(R331), an instruction that ends a transaction (R173), or an abort of the own transaction with cause and detail
(R174). -/
inductive Stop where
  | flt (f : Flt)
  | park (p : Park)
  | interlock (w : Wait)
  | stall
  | illop
  | abort (cause detail : Nat)
  deriving DecidableEq, Repr

/-- What the body of an instruction answers. -/
abbrev Body := State → Except Stop (State × Next)

/-- Stop with a fault. -/
def fault {α : Type} (f : Flt) : Except Stop α := .error (.flt f)

/-- Complete and go on to the next instruction. -/
def done (s : State) : Except Stop (State × Next) := .ok (s, .seq)

/-- Continue only if the condition holds, else fault. -/
def require (b : Bool) (f : Flt) : Except Stop Unit := if b then .ok () else .error (.flt f)

/-! ## Taking an exception -/

/-- Causes whose faulting address is reported (R391); a thread context's record also holds that of LSE (R396). -/
def hasAddress (cause : Nat) : Bool :=
  [cADR, cALN, cREMR, cPGF, cLSE, cPEER, cSEAL, cRACE, cMCE].contains cause

/-- A control transfer of a master core makes its instruction fetch see the stores made before its last `fence`
(R130). -/
def State.refetch (s : State) (g : Agent) : State :=
  match g with
  | .thread _ _ => s
  | .master x n =>
    let m := s.master x n
    if m.fenced then s.setMaster x n { m with fenced := false, codeSeq := s.wseq } else s

/-- Enter the handler of a master core (R38, R391): the status keeps the level and IE, the level becomes sys and IE 0,
EPC, ECAUSE, EADDR and ESTAT.SUB are written, and execution continues at EVEC. The wait of a completed instruction with
a sync marker goes on (R51). -/
def State.enterTrap (s : State) (x : Sec) (n : Fin 16) (cause sub : Nat) (addr : Word) (job : Nat) (epc : Word) :
    State :=
  let m := s.master x n
  let estat := word (job % 65536 * 65536 + m.ie.toNat * 512 + m.sys.toNat * 256 + sub % 256)
  ((s.setMaster x n
      { m with estat := estat, sys := true, ie := false, epc := epc, ecause := word cause, eaddr := addr }).modHart
    (.master x n) fun h =>
      { h with pc := m.evec, chain := [], park := none, wait := none, sWait := h.park.isNone && h.sWait }).refetch
    (.master x n)

/-- Return from an exception (R38, R299): EPC, the level in PPL and IE from PIE. -/
def State.leaveTrap (s : State) (x : Sec) (n : Fin 16) : State :=
  let m := s.master x n
  let s := (s.setMaster x n { m with sys := bitAt m.estat 8, ie := bitAt m.estat 9 }).modHart (.master x n) fun h =>
    { h with pc := m.epc, chain := [] }
  (s.refetch (.master x n)).post (.interruptTaken x n)

/-! ## Faults of thread contexts (R395 to R397) -/

/-- Offsets in the save-and-fault area (R42). -/
def areaRecord (i : Nat) : Nat := 0x900000 + i * 64
def areaStatus : Nat := 0xA80000
def areaLost : Nat := 0xA80040
def areaHeap : Nat := 0xAC0000
def areaImage (i : Nat) : Nat := i * 1536
def areaAcc (home : Nat) : Nat := 0x1000000 + home * 0x20000

/-- Write a number of `n` bytes into an instance's area. -/
def State.areaPut (s : State) (x : Sec) (i : Inst) (off n v : Nat) : State :=
  s.areaWrite x i.asid (i.rcd.save + off) (leBytes n v)

/-- Read a number of `n` bytes from an instance's area. -/
def State.areaGet (s : State) (x : Sec) (i : Inst) (off n : Nat) : Nat × State :=
  let r := s.areaRead x i.asid (i.rcd.save + off) n
  (leNat r.1, r.2)

/-- Change a number of `n` bytes in an instance's area. -/
def State.areaMod (s : State) (x : Sec) (i : Inst) (off n : Nat) (f : Nat → Nat) : State :=
  let r := s.areaGet x i off n
  r.2.areaPut x i off n (f r.1)

/-- Saturating increment of an `n`-byte counter. -/
def satInc (n v : Nat) : Nat := if v + 1 < 256 ^ n then v + 1 else v

/-- The bytes of a fault record (R396). -/
def faultRecord (f : Flt) (jobf valid rdesc : Bool) (pc vtn homec : Word) (w : BitVec 32) (rest : Nat) : List Byte :=
  leBytes 8 (f.cause % 256 + f.sub % 256 * 256 + f.job % 65536 * 65536 + valid.toNat * 2 ^ 32 + jobf.toNat * 2 ^ 33
    + rdesc.toNat * 2 ^ 34)
  ++ leBytes 8 pc.toNat ++ leBytes 8 f.addr.toNat ++ leBytes 8 vtn.toNat ++ leBytes 8 homec.toNat
  ++ leBytes 8 w.toNat ++ leBytes 8 f.detail ++ leBytes 8 rest

/-- Tell the tree's owner of a fault or a failed detached job (R394, R397). -/
def State.swarm (s : State) (x : Sec) (i : Inst) : State := s.irq x i.top irqSwarm i.handle

/-- Stratus's part of a fault (R395): the record, the status block, the notification. -/
def State.recordFault (s : State) (x : Sec) (i : Nat) (inst : Inst) (f : Flt) (pc : Word) (w : BitVec 32) : State :=
  let c := s.ctx x i
  let s := s.areaWrite x inst.asid (inst.rcd.save + areaRecord i)
    (faultRecord f (decide (f.job ≠ 0)) true false pc c.vtn c.homec w 0)
  let s := s.areaMod x inst (areaStatus + 8) 4 (satInc 4)
  let s := s.areaMod x inst (areaStatus + 12) 4 (satInc 4)
  let s := s.areaPut x inst (areaStatus + 16) 8 (i % 65536 + f.cause % 256 * 65536)
  s.swarm x inst

/-- In mode Y the holder gives up its role when it parks, faults, yields or ends (R371). -/
def State.dropRole (s : State) (g : Agent) : State :=
  match g with
  | .master _ _ => s
  | .thread x i =>
    s.modCore x (clusterOf i.val) (coreOf i.val) fun c =>
      if c.holder = some (slotOf i.val) then { c with holder := none, last := slotOf i.val, watchdog := 0 } else c

/-- A thread context faults (R395): it parks at the instruction, or at the first `himm` of its chain, and Stratus
records it. -/
def State.threadFault (s : State) (x : Sec) (i : Fin 6144) (f : Flt) (pc : Word) : State :=
  let g : Agent := .thread x i
  let s := (s.modHart g fun h =>
    { h with pc := pc, chain := [], park := some (.fault (h.pc + 4)), sWait := false }).dropRole g
  match s.instOf g with
  | some inst => s.recordFault x i.val inst f pc s.curWord
  | none => s

/-- Where a peer address leads (R354 to R357): the exporting sector and the virtual address there. -/
def State.peerHome (s : State) (x : Sec) (ea : Nat) : Sec × Nat :=
  let h := (s.import_ x (ea / 2 ^ 40 % 256)).handle.toNat
  (handleSec h, (s.export_ (handleSec h) (handleIndex h)).base + ea % 2 ^ 40)

/-- The exporter is told of a page of a peer window that is not resident (R357, R394). -/
def State.peerNotice (s : State) (x : Sec) (f : Flt) : State :=
  if f.cause = cPEER ∧ f.sub = 5 ∧ f.job = 0 then
    let h := s.peerHome x f.addr.toNat
    s.irqSector h.1 irqPeerpf (word h.2)
  else s

/-- The watchdog of an agent's core restarts (R372, R387). -/
def State.restartWatchdog (s : State) (g : Agent) : State :=
  match g with
  | .master _ _ => s
  | .thread x i => s.modCore x (clusterOf i.val) (coreOf i.val) fun c => { c with watchdog := 0 }

/-- A fault of the executing instruction: a transaction in progress aborts with cause FAULT and the fault is not taken
(R175), nor is WDG at the next issue (R387); else a master core traps precisely (R391) and a thread context parks with a
record (R395). The reported pc is that of the first `himm` of a pending chain (R62). -/
def State.raise (s : State) (f : Flt) : State :=
  let h := s.me
  match h.tx with
  | some _ =>
    let t := s.abortTx s.cur txFault f.cause
    if f.cause = cWDG then t.restartWatchdog s.cur else t
  | none =>
    let f := { f with addr := if hasAddress f.cause then f.addr else 0 }
    let s := s.peerNotice (secOf s.cur) f
    let pc := if h.chain.isEmpty then h.pc else h.chainPc
    match s.cur with
    | .master x n => s.enterTrap x n f.cause f.sub f.addr f.job pc
    | .thread x i => s.threadFault x i f pc

/-! ## Issuing an instruction -/

/-- The instruction has completed: it counts, the chain is used up, and a sync marker makes the agent wait (R26, R51,
R61). A control transfer of a master core renews its fetch view. -/
def State.retire (s : State) (sm : Bool) (n : Next) : State :=
  match n with
  | .stay => s
  | .seq => s.modMe fun h =>
      { h with pc := h.pc + 4, instret := h.instret + 1, chain := [], park := none, sWait := sm }
  | .jump pc => (s.modMe fun h =>
      { h with pc := pc, instret := h.instret + 1, chain := [], park := none, sWait := sm }).refetch s.cur

/-- A context that parks on a word takes the next place in the order of parking (R148). -/
def State.countPark (s : State) (p : Park) : State :=
  match p, s.cur with
  | .fe _ _ _ _, .thread x i => s.modCluster x (clusterOf i.val) fun c => { c with parkOrder := c.parkOrder + 1 }
  | _, _ => s

/-- A wait for the generator's answer is none of the parks of R373: the holder keeps its role. -/
def Park.keepsRole (p : Park) : Bool :=
  match p with
  | .pginv _ => true
  | _ => false

/-- The executing agent parks at its instruction, which completes as one step or executes again; a pending chain stays
with it, so that it goes on at that point (R62, R142, R373). A sync marker is kept for the completion (R51). -/
def State.parkMe (s : State) (sm : Bool) (p : Park) : State :=
  let t := s.modMe fun h => { h with park := some p, sWait := sm }
  (if p.keepsRole then t else t.dropRole s.cur).countPark p

/-- The executing agent waits at its instruction, which executes again once the wait is over; a holder keeps its role
(R371). -/
def State.waitMe (s : State) (w : Wait) : State := s.modMe fun h => { h with wait := some w }

/-- The own transaction is aborted by the executing instruction, whose sync marker still makes the agent wait (R51). -/
def State.abortMe (s : State) (sm : Bool) (cause detail : Nat) : State :=
  if s.me.tx.isSome then (s.abortTx s.cur cause detail).modMe fun h => { h with sWait := sm } else s

/-- Carry out a body: complete, or fault, park, wait or abort from the state before it. -/
def State.conclude (s : State) (sm : Bool) (r : Except Stop (State × Next)) :
    Host.Outcome State Fault Refusal :=
  match r with
  | .ok (t, n) => .next (t.retire sm n)
  | .error (.flt f) => .next (s.raise f)
  | .error (.park p) => .next (s.parkMe sm p)
  | .error (.interlock w) => .next (s.waitMe w)
  | .error .stall => .next s
  | .error .illop => .next (s.abortMe sm txIllop 0)
  | .error (.abort c d) => .next (s.abortMe sm c d)

/-- Issue an instruction that is not immediate-bearing: a pending chain makes it raise ILL (R62). -/
def State.issue (s : State) (sm : Bool) (b : Body) : Host.Outcome State Fault Refusal :=
  if s.me.chain.isEmpty then s.conclude sm (b s) else .next (s.raise (flt cILL 0))

/-- Issue an immediate-bearing instruction (R61). -/
def State.issueImm (s : State) (sm : Bool) (b : Body) : Host.Outcome State Fault Refusal := s.conclude sm (b s)

/-- A step of the machine that is not an instruction of a context. -/
def event (s : State) : Host.Outcome State Fault Refusal := .next s

/-! ## Where an instruction may execute (R67, R173) -/

/-- Forms that raise ILL on a master core. -/
def threadOnly (s : State) : Except Stop (Sec × Fin 6144) :=
  match s.cur with
  | .thread x i => .ok (x, i)
  | .master _ _ => fault (flt cILL 0)

/-- Privileged forms: PRV in a thread context and at app level. -/
def privileged (s : State) : Except Stop (Sec × Fin 16) :=
  match s.cur with
  | .thread _ _ => fault (flt cPRV 0)
  | .master x n => if (s.master x n).sys then .ok (x, n) else fault (flt cPRV 0)

/-- Forms that abort a transaction with cause ILLOP and have no effect (R173). -/
def noTx (s : State) : Except Stop Unit := if s.me.tx.isSome then .error .illop else .ok ()

/-! ## Registers -/

/-- Read an s register; an empty one parks the reader (R13). -/
def State.rdS (s : State) (r : Fin 16) : Except Stop Word :=
  let q := s.me.s.get r
  if q.full then .ok q.val else .error (.park (.reg r))

/-- The value of an s register whatever its state. -/
def State.valS (s : State) (r : Fin 16) : Word := (s.me.s.get r).val

/-- A local write makes the register full; a deposit that waits on it goes on waiting (R14). -/
def State.wrS (s : State) (r : Fin 16) (v : Word) : State := s.modMe fun h => h.putS r v

/-- Write an s register of any agent and wake its parked readers (R13). -/
def State.fillS (s : State) (g : Agent) (r : Fin 16) (v : Word) : State :=
  let s := s.modHart g fun h => h.putS r v
  if (s.hart g).park = some (.reg r) then s.post (.registerFillWake g) else s

/-- Make an s register empty with a local write outstanding (R13, R14). -/
def State.claimS (s : State) (r : Fin 16) : State :=
  s.modMe fun h =>
    { h with s := h.s.set r.val ⟨(h.s.get r).val, false, true⟩ r.isLt, unread := h.unread.filter (· ≠ r) }

/-- Read a predicate: p0 reads true (R12); a predicate whose write is outstanding is waited for by interlock (R121). -/
def State.rdP (s : State) (k : Fin 8) : Except Stop Bool :=
  if k = 0 then .ok true
  else if s.me.pBusy.get k then .error (.interlock (.pred k)) else .ok (s.me.p.get k)

/-- The first predicate with an outstanding write (R121). -/
def Hart.busyPred (h : Hart) : Option (Fin 8) := ((List.range 8).map (Fin.ofNat 8)).find? fun k => h.pBusy.get k

/-- Write a predicate: a write to p0 is discarded (R12). An outstanding write of an earlier instruction no longer
counts (R121). -/
def Hart.putP (h : Hart) (k : Fin 8) (b : Bool) : Hart :=
  if k = 0 then h else { h with p := h.p.set k.val b k.isLt, pBusy := h.pBusy.set k.val false k.isLt }
def State.wrP (s : State) (k : Fin 8) (b : Bool) : State := s.modMe fun h => h.putP k b

/-- Read an m register: m0 reads all ones (R12); a void one raises FMT (R15). -/
def State.rdM (s : State) (k : Fin 8) : Except Stop Word :=
  if k = 0 then .ok (BitVec.allOnes 64)
  else if (s.me.m.get k).void then fault (flt cFMT 0) else .ok (s.me.m.get k).val

/-- Write an m register: a write to m0 is discarded (R12). -/
def Hart.putM (h : Hart) (k : Fin 8) (v : Word) : Hart :=
  if k = 0 then h else
    { h with m := h.m.set k.val ⟨v, false⟩ k.isLt
             tx := h.tx.map fun t => { t with ms := if t.ms.contains k then t.ms else k :: t.ms } }
def State.wrM (s : State) (k : Fin 8) (v : Word) : State := s.modMe fun h => h.putM k v

/-- Read a q register; a void one raises FMT (R15). -/
def State.rdQ (s : State) (k : Fin 4) : Except Stop (BitVec 128) :=
  if (s.me.q.get k).void then fault (flt cFMT 0) else .ok (s.me.q.get k).val

/-- Write a q register. -/
def State.wrQ (s : State) (k : Fin 4) (v : BitVec 128) : State :=
  s.modMe fun h => { h with q := h.q.set k.val ⟨v, false⟩ k.isLt
                            tx := h.tx.map fun t => { t with qs := if t.qs.contains k then t.qs else k :: t.qs } }

/-- A v register whatever its state. -/
def State.vreg (s : State) (r : Fin 16) : VReg := s.me.v.get r

/-- Read a v register; a void one raises FMT (R15). -/
def State.rdV (s : State) (r : Fin 16) : Except Stop VReg :=
  if (s.vreg r).tag = .inv then fault (flt cFMT 0) else .ok (s.vreg r)

/-- Write a v register; tag INV makes it void (R15). -/
def Hart.putV (h : Hart) (r : Fin 16) (v : VReg) : Hart :=
  { h with v := h.v.set r.val v r.isLt
           tx := h.tx.map fun t => { t with vs := if t.vs.contains r then t.vs else r :: t.vs } }
def State.wrV (s : State) (r : Fin 16) (v : VReg) : State := s.modMe fun h => h.putV r v

/-- Merge floating-point flags into FFLAGS (R31). -/
def State.addFlags (s : State) (f : Nat) : State :=
  s.modMe fun h => { h with fflags := h.fflags ||| word (f % 32) }

/-! ## Immediates (R60, R61) -/

/-- The immediate of an immediate-bearing instruction as a word: the own field of `n` bits, or the chain with the own
field as its low bits, sign-extended. Without a chain a field is extended by `signed`. -/
def Hart.imm (h : Hart) (n v : Nat) (signed : Bool) : Word :=
  match h.chain with
  | [] => if signed then sextNat n v else word (v % 2 ^ n)
  | c => sextNat (21 * c.length + n) ((c.foldl (fun a p => a * 2 ^ 21 + p.toNat) 0) * 2 ^ n + v % 2 ^ n)

/-- The target of a branch or jump: the address of its word plus 4 times the offset (R60, R127, R128). -/
def State.target (s : State) (n v : Nat) : Word := s.me.pc + 4 * s.me.imm n v true

/-- The checks of a transfer's target (R130). -/
def checkTarget (t : Word) : Except Stop Unit :=
  if t.toNat / 2 ^ 56 ≠ 0 then fault (fltAt cADR 0 t.toNat)
  else if t.toNat % 4 ≠ 0 then fault (fltAt cALN 0 t.toNat)
  else .ok ()

/-! ## The address map (R46, R47) -/

/-- What an address names. -/
inductive Place where
  | app (va : Nat)
  | peer (slot off : Nat)
  | spad (cl : Fin 96) (off : Nat)
  | reg (ctx : Fin 6144) (r : Fin 16)
  deriving DecidableEq, Repr

/-- The place of the `n` bytes at an address, or ADR (R46). -/
def placeOf (g : Agent) (ea n : Nat) : Except Flt Place :=
  let adr : Except Flt Place := .error (fltAt cADR 0 ea)
  let top := ea / 2 ^ 56
  let o := ea % 2 ^ 56
  if top = 0 then if o + n ≤ 2 ^ 56 then .ok (.app o) else adr
  else if top = 0xFE then if o < 2 ^ 48 then .ok (.peer (o / 2 ^ 40) (o % 2 ^ 40)) else adr
  else if top = 0xFF then
    if o < 96 * 0x400000 then
      if o % 0x400000 + n ≤ 0x200000 then .ok (.spad (Fin.ofNat 96 (o / 0x400000)) (o % 0x400000)) else adr
    else if 0x40000000000000 ≤ o ∧ o + n ≤ 0x40000000200000 then
      match clusterOfAgent g with
      | some cl => .ok (.spad cl (o - 0x40000000000000))
      | none => adr
    else if 0x80000000000000 ≤ o ∧ o < 0x80000000000000 + 96 * 0x10000 then
      let r := o - 0x80000000000000
      if r / 256 % 256 < 64 ∧ r % 256 < 128 then
        .ok (.reg (Fin.ofNat 6144 (r / 0x10000 * 64 + r / 256 % 256)) (Fin.ofNat 16 (r % 256 / 8)))
      else adr
    else adr
  else adr

/-- The place of an operand, as a stop. -/
def State.place (s : State) (ea : Word) (n : Nat) : Except Stop Place :=
  match placeOf s.cur ea.toNat n with
  | .ok p => .ok p
  | .error f => fault f

/-- Natural alignment, checked before translation, leases and window contents (R125). -/
def aligned (ea : Word) (n : Nat) : Except Stop Unit :=
  if ea.toNat % n = 0 then .ok () else fault (fltAt cALN 0 ea.toNat)

/-! ## Accesses of an agent to application space -/

/-- A lease entry holds every byte of a range (R347). -/
def leaseHolds (ls : List (Nat × Nat)) (va n : Nat) : Bool := ls.any fun e => e.1 ≤ va && decide (va + n ≤ e.1 + e.2)

/-- How an agent's access is checked: a plain access of a checked vt outside a transaction is checked for races
(R318, R320). -/
def State.acc (s : State) (g : Agent) (kind : AccKind) (plain : Bool) : Acc :=
  { kind := kind
    app := !s.sysLevel g
    nc := isMaster g && (kind != .atomic) && (s.hart g).tx.isNone
    race := match s.instOf g with
      | some i => if plain && i.chk && (s.hart g).tx.isNone then s.vtOf g else none
      | none => none }

/-- A failure at translation or at the home, as the fault of an agent of this kind (R342, R388). A full set is no
failure: `homeStop` and the units wait for it (R331). -/
def homeFlt (master : Bool) (kind : AccKind) (e : HomeErr) (addr : Nat) : Flt :=
  match e with
  | .page sub => fltAt (if master then cPGF else cLSE) sub addr
  | .sealMap => flt cPRV 1
  | .seal => fltAt cSEAL 0 addr
  | .race => fltAt cRACE (if kind = .write then 1 else 2) addr
  | .mce sub => fltAt cMCE sub addr
  | .busy => fltAt 0 0 addr

/-- A failure at translation or at the home, as a stop of the executing instruction: a full set is waited for (R331). -/
def homeStop (f : HomeErr → Nat → Flt) (e : HomeErr) (addr : Nat) : Stop :=
  match e with
  | .busy => .stall
  | e => .flt (f e addr)

/-- A thread context's access must lie in a lease of its instance (R347). -/
def State.leaseCheck (s : State) (g : Agent) (va n : Nat) : Except Stop Unit :=
  match g with
  | .master _ _ => .ok ()
  | .thread _ _ => match s.instOf g with
    | some i => if leaseHolds i.leases va n then .ok () else fault (fltAt cLSE subOutside va)
    | none => fault (fltAt cLSE subOutside va)

/-- A result of the home, as a stop of the executing instruction. -/
def liftHome {α : Type} (g : Agent) (kind : AccKind) (r : Except (HomeErr × Nat) α) : Except Stop α :=
  match r with
  | .ok a => .ok a
  | .error (e, a) => .error (homeStop (homeFlt (isMaster g) kind) e a)

/-! ## A master core's own copies of lines (R334, R343) -/

/-- The copy of a line that an agent's own caches hold; a thread context has none. -/
def State.ownCopy (s : State) (g : Agent) (k : Nat) : Option Copy :=
  match g with
  | .thread _ _ => none
  | .master _ n => s.copyOf n k

/-- An access that hits in the own caches is checked against the bits held with the line (R343). -/
def State.copyCheck (s : State) (g : Agent) (k : Nat) (a : Acc) (va : Nat) : Except Stop Unit :=
  match s.ownCopy g k with
  | none => .ok ()
  | some c => if a.permits c.perm then .ok () else .error (homeStop (homeFlt (isMaster g) a.kind) (.page subPerm) va)

/-- A read leaves the line in the own caches (R334). -/
def State.cached (s : State) (g : Agent) (k : Nat) (fetch : Bool) : State :=
  match g with
  | .thread _ _ => s
  | .master x n => match s.copyOf n k with
    | some c => s.enterL1 x n k c fetch
    | none => s.takeCopy x n k fetch

/-- An address whose page is one of the control window of its home (R337): its offset in the window. -/
def State.controlPage (s : State) (x : Sec) (asid : BitVec 16) (va : Nat) : Option Nat :=
  if (s.line (lineKey x asid va)).isSome then none
  else match s.translate x asid va with
    | .ok (t, _) => if physKind (t.addr va) 1 = .control then some (t.addr va - 0xFFF0000000000) else none
    | .error _ => none

/-- The same for an access of an agent, of which only master cores reach the window. -/
def State.controlAt (s : State) (g : Agent) (va : Nat) : Option Nat :=
  match g with
  | .thread _ _ => none
  | .master x _ => s.controlPage x (s.asidOf g) va

/-! ## Transactional accesses (R173, R174) -/

/-- Bytes of a range with the own transactional writes laid over those of the home. -/
def overlay (buf : Sparse (Option Byte)) (key : Nat) : List Byte → List Byte
  | [] => []
  | b :: bs => (Sparse.get none buf key).getD b :: overlay buf (key + 1) bs

/-- Add a line to the read set (R173, R174, R175). -/
def State.txRead (s : State) (g : Agent) (k : Nat) : Except Stop State :=
  match (s.hart g).tx with
  | none => .ok s
  | some t =>
    let m := s.marksOf k
    if m.writer.isSome ∧ m.writer ≠ some g then .error (.abort txConflict 0)
    else if t.reads.contains k then .ok s
    else if 256 ≤ t.reads.length then .error (.abort txRcap 0)
    else .ok ((s.setMarks k { m with readers := m.readers ++ [g] }).modHart g fun h =>
      { h with tx := some { t with reads := t.reads ++ [k] } })

/-- Add a line to the write set: another writer aborts this transaction, other readers are aborted (R174). -/
def State.txWrite (s : State) (g : Agent) (k : Nat) : Except Stop State :=
  match (s.hart g).tx with
  | none => .ok s
  | some t =>
    let m := s.marksOf k
    if m.writer.isSome ∧ m.writer ≠ some g then .error (.abort txConflict 0)
    else
      let s := s.abortAll (m.readers.filter (· ≠ g)) txConflict
      if t.writes.contains k then .ok s
      else if 64 ≤ t.writes.length then .error (.abort txWcap 0)
      else .ok ((s.setMarks k { s.marksOf k with writer := some g }).modHart g fun h =>
        { h with tx := some { t with writes := t.writes ++ [k] } })

/-- Put bytes into the transaction's buffer. -/
def bufPut (buf : Sparse (Option Byte)) (key : Nat) : List Byte → Sparse (Option Byte)
  | [] => buf
  | b :: bs => bufPut (Sparse.put none buf key (some b)) (key + 1) bs

/-- Read a range of application space that lies in one line, for an agent (R125, R173, R174, R309). -/
def State.loadApp (s : State) (g : Agent) (va n : Nat) (plain : Bool) : Except Stop (List Byte × State) := do
  s.leaseCheck g va n
  let x := secOf g
  let asid := s.asidOf g
  let k := lineKey x asid va
  match (s.hart g).tx with
  | some _ =>
    s.copyCheck g k (s.acc g .read false) va
    let r ← liftHome g .read (s.readHome x asid va n (s.acc g .read false))
    let s ← r.2.txRead g k
    match (s.hart g).tx with
    | some t => .ok (overlay t.buf (vaKey asid va) r.1, s)
    | none => .ok (r.1, s)
  | none =>
    match s.controlAt g va with
    | some off =>
      if n ≠ 8 then fault (fltAt cALN 0 va)
      else
        let r ← liftHome g .read (s.readHome x asid va n (s.acc g .read plain))
        let c := r.2.controlRead x off
        .ok (leBytes 8 c.1, c.2)
    | none =>
      let t := s.conflictPlain g k false
      s.copyCheck g k (s.acc g .read plain) va
      match s.ownCopy g k with
      | some c => .ok (slice c.data (va % 128) n, t.cached g k false)
      | none =>
        let r ← liftHome g .read (t.readHome x asid va n (s.acc g .read plain))
        .ok (r.1, r.2.cached g k false)

/-- Write a range of application space that lies in one line, for an agent (R125, R173, R174, R309). -/
def State.storeApp (s : State) (g : Agent) (va : Nat) (bs : List Byte) (plain : Bool) : Except Stop State := do
  s.leaseCheck g va bs.length
  let x := secOf g
  let asid := s.asidOf g
  let k := lineKey x asid va
  match (s.hart g).tx with
  | some _ =>
    s.copyCheck g k (s.acc g .write false) va
    match s.locate x asid va (s.acc g .write false) false with
    | .error e => .error (homeStop (homeFlt (isMaster g) .write) e va)
    | .ok (_, s) =>
      if (s.sealAt x asid va).isSome then fault (fltAt cSEAL 0 va)
      else
        let s ← s.txWrite g k
        .ok (s.modHart g fun h =>
          { h with tx := h.tx.map fun t => { t with buf := bufPut t.buf (vaKey asid va) bs } })
  | none =>
    match s.controlAt g va with
    | some off =>
      if bs.length ≠ 8 then fault (fltAt cALN 0 va)
      else match s.locate x asid va (s.acc g .write plain) false with
        | .error e => .error (homeStop (homeFlt (isMaster g) .write) e va)
        | .ok (_, s) => .ok (s.controlWrite x off (word (leNat bs)))
    | none =>
      s.copyCheck g k (s.acc g .write plain) va
      let t ← liftHome g .write ((s.conflictPlain g k true).writeHome x asid va bs (s.acc g .write plain))
      .ok (t.keepCopy k (s.ownCopy g k))

/-- An indivisible update of a range of application space that lies in one line (R105, R143, R332). -/
def State.updateHome (s : State) (x : Sec) (asid : BitVec 16) (va n : Nat) (a : Acc) (f : Nat → Nat) :
    Except HomeErr (Nat × State) :=
  match s.locate x asid va a false with
  | .error e => .error e
  | .ok (p, s) =>
    if (s.sealAt x asid va).isSome then .error .seal
    else match p with
      | .nc pa _ =>
        let old := leNat (s.readPhys x pa n)
        .ok (old, s.putBytes x asid va p (leBytes n (f old)))
      | .line k => match s.line k with
        | none => .error (.page subNomap)
        | some l =>
          if l.poison then .error (.mce 3)
          else
            let old := leNat (slice l.data (va % 128) n)
            .ok (old, s.putBytes x asid va p (leBytes n (f old)))

/-- An atomic of an agent on application space (R143, R144). -/
def State.atomicApp (s : State) (g : Agent) (va n : Nat) (f : Nat → Nat) : Except Stop (Nat × State) := do
  s.leaseCheck g va n
  let x := secOf g
  let asid := s.asidOf g
  let k := lineKey x asid va
  s.copyCheck g k (s.acc g .atomic false) va
  match (s.conflictPlain g k true).updateHome x asid va n (s.acc g .atomic false) f with
  | .ok r => .ok (r.1, r.2.keepCopy k (s.ownCopy g k))
  | .error e => .error (homeStop (homeFlt (isMaster g) .atomic) e va)

/-! ## Peer windows (R357) -/

/-- PEER subcauses (R357). -/
def peerSlot : Nat := 1
def peerRange : Nat := 2
def peerPerm : Nat := 3
def peerGen : Nat := 4
def peerNotres : Nat := 5
def peerReset : Nat := 6

/-- Steps 1 to 3 of R357: the slot at the importing Stratus, the entry at the home. The answer is the home sector, the
exporter's address space and virtual address. -/
def State.peerCheck (s : State) (x : Sec) (slot off n : Nat) (kind : AccKind) :
    Except Nat (Sec × BitVec 16 × Nat) :=
  let i := s.import_ x slot
  let h := i.handle.toNat
  let y := handleSec h
  let e := s.export_ y (handleIndex h)
  if !i.valid then .error (if i.err && h ≠ 0 && !s.bridgeTakes y x then peerReset else peerSlot)
  else if i.len < off + n then .error peerRange
  else if (kind ≠ .write && !i.rd) || ((kind = .write || kind = .atomic) && !i.wr) then .error peerPerm
  else if !s.bridgeTakes y x || !s.bridgeTakes x y || !s.reachable x y then .error peerReset
  else if !e.valid || e.gen.toNat ≠ handleGen h then .error peerGen
  else .ok (y, e.asid, e.base + off)

/-- A failure at the exporting home (R342, R357): a page that is not resident raises PEER and tells the exporter; a
permission the page denies has the cause of a local access (log entry 14). -/
def peerErr (master : Bool) (kind : AccKind) (e : HomeErr) (ea : Nat) : Flt :=
  match e with
  | .page sub => if sub = subPerm then homeFlt master kind e ea else fltAt cPEER peerNotres ea
  | e => homeFlt master kind e ea

/-- A page of the exporter's control window that an agent reaches through a peer window: a local access of the
exporter's address space in step 4 of R357. -/
def State.peerControl (s : State) (g : Agent) (y : Sec) (asid : BitVec 16) (va : Nat) : Option Nat :=
  if isMaster g then s.controlPage y asid va else none

/-- A load from a peer window. -/
def State.peerLoad (s : State) (g : Agent) (slot off n ea : Nat) (plain : Bool) :
    Except Stop (List Byte × State) :=
  if (s.hart g).tx.isSome then .error .illop
  else match s.peerCheck (secOf g) slot off n .read with
    | .error sub => fault (fltAt cPEER sub ea)
    | .ok (y, asid, va) =>
      let control := s.peerControl g y asid va
      if control.isSome ∧ n ≠ 8 then fault (fltAt cALN 0 ea)
      else match (s.conflictPlain g (lineKey y asid va) false).readHome y asid va n (s.acc g .read plain), control with
      | .ok r, none => .ok r
      | .ok r, some off =>
        let c := r.2.controlRead y off
        .ok (leBytes 8 c.1, c.2)
      | .error (e, _), _ => .error (homeStop (peerErr (isMaster g) .read) e ea)

/-- A store into a peer window. -/
def State.peerStore (s : State) (g : Agent) (slot off ea : Nat) (bs : List Byte) (plain : Bool) : Except Stop State :=
  if (s.hart g).tx.isSome then .error .illop
  else match s.peerCheck (secOf g) slot off bs.length .write with
    | .error sub => fault (fltAt cPEER sub ea)
    | .ok (y, asid, va) =>
      match s.peerControl g y asid va with
      | some off =>
        if bs.length ≠ 8 then fault (fltAt cALN 0 ea)
        else match s.locate y asid va (s.acc g .write plain) false with
          | .error e => .error (homeStop (peerErr (isMaster g) .write) e ea)
          | .ok (_, s) => .ok (s.controlWrite y off (word (leNat bs)))
      | none => match (s.conflictPlain g (lineKey y asid va) true).writeHome y asid va bs (s.acc g .write plain) with
        | .ok s => .ok s
        | .error (e, _) => .error (homeStop (peerErr (isMaster g) .write) e ea)

/-- An atomic in a peer window. -/
def State.peerAtomic (s : State) (g : Agent) (slot off n ea : Nat) (f : Nat → Nat) : Except Stop (Nat × State) :=
  match s.peerCheck (secOf g) slot off n .atomic with
  | .error sub => fault (fltAt cPEER sub ea)
  | .ok (y, asid, va) =>
    match (s.conflictPlain g (lineKey y asid va) true).updateHome y asid va n (s.acc g .atomic false) f with
    | .ok r => .ok r
    | .error e => .error (homeStop (peerErr (isMaster g) .atomic) e ea)

/-! ## Scratchpad accesses of a context -/

/-- An acquire begins a new interval of the read-only path (R124). -/
def State.acquired (s : State) : State :=
  s.modMe fun h => { h with roSeq := s.wseq }

/-- A range touches bytes of an open channel. -/
def State.inOpen (s : State) (x : Sec) (cl : Fin 96) (off n : Nat) : Bool :=
  (s.cluster x cl).channels.toList.any fun c => c.isOpen && decide (max off c.base < min (off + n) (c.base + c.len))

/-- A read of bytes inside an open channel is an acquire (R324). -/
def State.channelRead (s : State) (x : Sec) (cl : Fin 96) (off n : Nat) : State :=
  if s.inOpen x cl off n then s.acquired else s

/-- A message that its issuer waits for: a push or deposit that no command sent. -/
def Flight.awaited (f : Flight) : Bool :=
  f.actor.job == 0 && match f.body with
    | .migrate _ => false
    | _ => true

/-- An earlier release of an agent has not been accepted. -/
def State.releaseOpen (s : State) (g : Agent) : Bool :=
  s.anyMessage (secOf g) (fun f => f.rel && f.awaited && s.isActor g f.actor)
    || s.zreqs.any fun r => r.rel && s.zBy g r

/-- An acquire waits until the agent's earlier releases have been accepted (R311). -/
def State.acquiring (s : State) (acquire : Bool) : Except Stop Unit :=
  if acquire && s.releaseOpen s.cur then .error (.interlock .releases) else .ok ()

/-- A read of the own scratchpad: it parks below a watermark (R24) and a lasting error raises MCE (R408). -/
def State.spadLoad (s : State) (x : Sec) (cl : Fin 96) (off n ea : Nat) : Except Stop (List Byte) :=
  if s.belowMark x cl off n then .error (.park (.mark cl.val off n))
  else if s.spadBad x cl off n then fault (fltAt cMCE 1 ea)
  else .ok (s.spadBytes x cl off n)

/-- A load of the executing agent from a scratchpad: an acquire in an open channel (R311, R324). -/
def State.ownRead (s : State) (x : Sec) (cl : Fin 96) (off n ea : Nat) : Except Stop (List Byte × State) := do
  s.acquiring (s.inOpen x cl off n)
  let bs ← s.spadLoad x cl off n ea
  .ok (bs, s.channelRead x cl off n)

/-- Send a message to a cluster (R170): it is in flight until it is accepted there. Pushes and deposits to a fenced
chiplet are discarded; a migration message is lost with its vt where it arrives (R418). A deposit is a release, and so
are the bytes of a release store (R308). -/
def State.sendAs (s : State) (x : Sec) (cl : Fin 96) (a : Actor) (b : Parcel) (rel : Bool) : State :=
  let moves := match b with
    | .migrate _ => true
    | _ => false
  if s.isFenced x (chipletOf cl) && !moves then s
  else
    let d := match b with
      | .push _ _ => Due.pushAccept s.nextId
      | .deposit _ _ _ => Due.depositArrive s.nextId
      | .migrate _ => Due.migrationMessageArrive s.nextId
    (State.fresh { s with flight := s.flight ++
      [{ id := s.nextId, sec := x, cl := cl, actor := a, body := b, rel := rel, arrived := none, kept := none }] }).post d
def State.sendTo (s : State) (x : Sec) (cl : Fin 96) (a : Actor) (b : Parcel) : State :=
  s.sendAs x cl a b (match b with
    | .deposit _ _ _ => true
    | _ => false)

/-! ## Loads, stores and atomics of the executing agent (R123 to R126, R143, R144) -/

/-- Load `n` naturally aligned bytes. -/
def State.load (s : State) (ea : Word) (n : Nat) (plain : Bool) : Except Stop (List Byte × State) := do
  let p ← s.place ea n
  aligned ea n
  match p with
  | .app va => s.loadApp s.cur va n plain
  | .peer slot off => s.peerLoad s.cur slot off n ea.toNat plain
  | .spad cl off =>
    if clusterOfAgent s.cur = some cl then s.ownRead (secOf s.cur) cl off n ea.toNat
    else fault (fltAt cREMR 0 ea.toNat)
  | .reg _ _ => fault (fltAt cREMR 0 ea.toNat)

/-- Store naturally aligned bytes: a store through another cluster's window is a push, one through the register window
a deposit (R126, R170). -/
def State.store (s : State) (ea : Word) (bs : List Byte) (plain : Bool) (rel : Bool := false) : Except Stop State := do
  let p ← s.place ea bs.length
  match p with
  | .reg _ _ => if bs.length ≠ 8 then fault (fltAt cALN 0 ea.toNat)
  | _ => pure ()
  aligned ea bs.length
  match p with
  | .app va => s.storeApp s.cur va bs plain
  | .peer slot off => s.peerStore s.cur slot off ea.toNat bs plain
  | .spad cl off =>
    if clusterOfAgent s.cur = some cl then .ok (s.spadWrite (secOf s.cur) cl off bs)
    else if s.me.tx.isSome then .error .illop
    else .ok (s.sendAs (secOf s.cur) cl (s.actor s.cur 0) (.push off bs) rel)
  | .reg c r =>
    if s.me.tx.isSome then .error .illop
    else .ok (s.sendTo (secOf s.cur) (clusterOf c.val) (s.actor s.cur 0) (.deposit c r (word (leNat bs))))

/-- One indivisible update of `n` bytes at its home, answering the old value (R143, R144). -/
def State.atomic (s : State) (ea : Word) (n : Nat) (f : Nat → Nat) : Except Stop (Nat × State) := do
  let p ← s.place ea n
  aligned ea n
  match p with
  | .app va => s.atomicApp s.cur va n f
  | .peer slot off => s.peerAtomic s.cur slot off n ea.toNat f
  | .spad cl off =>
    if clusterOfAgent s.cur = some cl then
      let r ← s.ownRead (secOf s.cur) cl off n ea.toNat
      .ok (leNat r.1, r.2.spadWrite (secOf s.cur) cl off (leBytes n (f (leNat r.1))))
    else fault (fltAt cREMR 0 ea.toNat)
  | .reg _ _ => fault (fltAt cREMR 0 ea.toNat)

/-- Load a number. -/
def State.loadNat (s : State) (ea : Word) (n : Nat) (plain : Bool) : Except Stop (Nat × State) := do
  let r ← s.load ea n plain
  .ok (leNat r.1, r.2)

/-! ## Instruction fetch (R130, R340 to R347) -/

/-- Bytes as instruction fetch sees them: those that stood when the record of overwritten bytes had length `seq`. -/
def State.asOf (s : State) (x : Sec) (key seq : Nat) (b : Byte) : Byte :=
  (s.sec x).wlog.foldl (fun b e => if seq < e.1 ∧ e.2.1 = key then e.2.2 else b) b

/-- The word at an address as an agent fetches it and the caches after the fetch, or the fault of the fetch. A fetch is
no 8-byte access to the control window (R337). Absent while the fetch waits for a way of an LLC set (R331). -/
def State.fetchWord (s : State) (g : Agent) (pc : Nat) : Except Flt (Option (Nat × State)) :=
  if 2 ^ 56 ≤ pc then .error (fltAt cADR 0 pc)
  else
    let x := secOf g
    let asid := s.asidOf g
    let seq := match g with
      | .master x n => (s.master x n).codeSeq
      | .thread _ _ => match s.instOf g with
        | some i => i.codeSeq
        | none => 0
    match s.leaseCheck g pc 4 with
    | .error (.flt f) => .error f
    | .error _ => .error (fltAt cLSE subOutside pc)
    | .ok _ =>
      let a : Acc := { kind := .fetch, app := !s.sysLevel g, nc := isMaster g, race := none }
      let k := lineKey x asid pc
      let seen := fun (bs : List Byte) => leNat (bs.zipIdx.map fun b => s.asOf x (vaKey asid (pc + b.2)) seq b.1)
      match s.ownCopy g k with
      | some c =>
        if a.permits c.perm then .ok (some (seen (slice c.data (pc % 128) 4), s.cached g k true))
        else .error (homeFlt (isMaster g) .fetch (.page subPerm) pc)
      | none =>
        if (s.controlAt g pc).isSome then .error (fltAt cALN 0 pc)
        else match s.readHome x asid pc 4 a with
          | .error (.busy, _) => .ok none
          | .error (e, _) => .error (homeFlt (isMaster g) .fetch e pc)
          | .ok (bs, t) => .ok (some (seen bs, t.cached g k true))

end Sys2Proof.Machine
end

