-- ==== Sys2Proof/Machine/Flags.lean ====
section
/-! DEFINITION. Exact numbers, the one rounding applied to them, and the flags of FFLAGS that an operation raises (R80
to R100). A result is a pair of an encoding and its flags. -/

namespace Sys2Proof.Machine

/-! ## Flags (R31, R98) -/

def fNV : Nat := 16
def fDZ : Nat := 8
def fOF : Nat := 4
def fUF : Nat := 2
def fNX : Nat := 1

/-- A flag when a condition holds. -/
def flagIf (b : Bool) (f : Nat) : Nat := if b then f else 0

/-! ## Rounding modes (R29, R30, R93) -/

/-- Rounding modes. -/
inductive Rm where
  | rne | rtz | rup | rdn | sr
  deriving DecidableEq, Repr

/-- The mode of FMODE.RM; the codes 101 to 111 are stored as 000 (R29). -/
def rmOf (fmode : Word) : Rm :=
  match bitsOf fmode 0 3 with
  | 1 => .rtz
  | 2 => .rup
  | 3 => .rdn
  | 4 => .sr
  | _ => .rne

/-- Bits [hi:lo] of a written value, in place. -/
def keep (v : Word) (lo n : Nat) : Nat := bitsOf v lo n * 2 ^ lo

/-- FMODE as stored (R29): modes 101 to 111 are stored as 000. -/
def fmodeStored (v : Word) : Word := word (keep v 8 1 + if bitsOf v 0 3 ≤ 4 then bitsOf v 0 3 else 0)

/-- How a value is rounded: the mode, the number drawn under SR, and FMODE.OVS. -/
structure Rnd where
  mode : Rm
  r : Nat
  ovs : Bool
  deriving DecidableEq, Repr

/-- The rounding of instructions that are not conversions: SR acts as RNE (R30). -/
def arithRnd (fmode : Word) : Rnd :=
  ⟨if rmOf fmode = .sr then .rne else rmOf fmode, 0, bitAt fmode 8⟩

/-- Round to nearest even whatever FMODE says (R93). -/
def rneRnd : Rnd := ⟨.rne, 0, false⟩

/-- One step of the stochastic-rounding generator (R94): the new seed and the number drawn. -/
def srNext (seed : Word) : Word × Nat :=
  let x := if seed = 0 then 0x9E3779B97F4A7C15#64 else seed
  let x := x ^^^ (x <<< 13)
  let x := x ^^^ (x >>> 7)
  let x := x ^^^ (x <<< 17)
  (x, bitsOf x 32 32)

/-! ## Formats (R80) -/

/-- A floating-point format: mantissa bits, bias, width, the largest finite magnitude's encoding, the encoding of
infinity where there is one, and the canonical NaN (R82). -/
structure FFmt where
  man : Nat
  bias : Nat
  width : Nat
  maxCode : Nat
  inf : Option Nat
  nan : Nat
  deriving DecidableEq, Repr

def fp64 : FFmt := ⟨52, 1023, 64, 0x7FEFFFFFFFFFFFFF, some 0x7FF0000000000000, 0x7FF8000000000000⟩
def fp32 : FFmt := ⟨23, 127, 32, 0x7F7FFFFF, some 0x7F800000, 0x7FC00000⟩
def bf16 : FFmt := ⟨7, 127, 16, 0x7F7F, some 0x7F80, 0x7FC0⟩
def fp16 : FFmt := ⟨10, 15, 16, 0x7BFF, some 0x7C00, 0x7E00⟩
def e4m3 : FFmt := ⟨3, 7, 8, 0x7E, none, 0x7F⟩
def e5m2 : FFmt := ⟨2, 15, 8, 0x7B, some 0x7C, 0x7E⟩

/-- The grid of E2M1X elements (R86): codes 0 to 7 with a sign in bit 3. -/
def e2m1 : FFmt := ⟨1, 1, 4, 0x7, none, 0⟩

/-- The exponent of the smallest subnormal. -/
def FFmt.qmin (f : FFmt) : Int := 1 - (f.bias : Int) - f.man

/-- The sign bit of a format. -/
def FFmt.signBit (f : FFmt) : Nat := 2 ^ (f.width - 1)

/-! ## Exact numbers -/

/-- An exact number: NaN with whether it signals, infinity with its sign, or (−1)^neg × m × 2^e. -/
inductive Num where
  | nan (signalling : Bool)
  | inf (neg : Bool)
  | fin (neg : Bool) (m : Nat) (e : Int)
  deriving DecidableEq, Repr

/-- The number that an encoding stands for (R80, R81). -/
def FFmt.decode (f : FFmt) (c : Nat) : Num :=
  let c := c % 2 ^ f.width
  let neg := decide (f.signBit ≤ c)
  let mag := c % f.signBit
  if f.maxCode < mag then
    if f.inf = some mag then .inf neg
    else .nan (decide (8 < f.width) && decide (mag % 2 ^ f.man < 2 ^ (f.man - 1)))
  else
    let ex := mag / 2 ^ f.man
    let m := mag % 2 ^ f.man
    if ex = 0 then .fin neg m f.qmin else .fin neg (2 ^ f.man + m) (f.qmin + (ex - 1 : Nat))

/-- A number is NaN. -/
def Num.isNan : Num → Bool
  | .nan _ => true
  | _ => false

/-- A number is a signalling NaN. -/
def Num.isSnan : Num → Bool
  | .nan b => b
  | _ => false

/-- A number is infinite. -/
def Num.isInf : Num → Bool
  | .inf _ => true
  | _ => false

/-- A number is zero. -/
def Num.isZero : Num → Bool
  | .fin _ m _ => m == 0
  | _ => false

/-- The sign of a number; NaN has none. -/
def Num.neg : Num → Bool
  | .nan _ => false
  | .inf b => b
  | .fin b _ _ => b

/-- The number with the other sign. -/
def Num.negate : Num → Num
  | .nan b => .nan b
  | .inf b => .inf (!b)
  | .fin b m e => .fin (!b) m e

/-- The magnitude of a number. -/
def Num.abs : Num → Num
  | .nan b => .nan b
  | .inf _ => .inf false
  | .fin _ m e => .fin false m e

/-- The number times a power of two. -/
def Num.scale (n : Num) (k : Int) : Num :=
  match n with
  | .fin b m e => .fin b m (e + k)
  | n => n

/-- An integer as a number. -/
def Num.ofInt (i : Int) : Num := .fin (decide (i < 0)) i.natAbs 0

/-! ## Rounding -/

/-- The length of a number in bits. -/
def lenOf (n : Nat) : Nat := if n = 0 then 0 else Nat.log2 n + 1

/-- A magnitude m × 2^e as a multiple of 2^q: the multiple of the smaller magnitude, the rest, and the rest's unit. -/
def splitAt (m : Nat) (e q : Int) : Nat × Nat × Nat :=
  if q ≤ e then (m * 2 ^ (e - q).toNat, 0, 1)
  else (m / 2 ^ (q - e).toNat, m % 2 ^ (q - e).toNat, 2 ^ (q - e).toNat)

/-- The magnitude is rounded up (R93, R94). -/
def roundsUp (rnd : Rnd) (neg : Bool) (n rest unit : Nat) : Bool :=
  if rest = 0 then false
  else match rnd.mode with
    | .rne => decide (unit < 2 * rest) || (decide (unit = 2 * rest) && n % 2 == 1)
    | .rtz => false
    | .rup => !neg
    | .rdn => neg
    | .sr => if neg then !decide (rnd.r * unit < (unit - rest) * 2 ^ 32) else decide (rnd.r * unit < rest * 2 ^ 32)

/-- Round a magnitude to a multiple of 2^q: the multiple, and whether it differs from the exact value. -/
def roundAt (rnd : Rnd) (neg : Bool) (m : Nat) (e q : Int) : Nat × Bool :=
  let p := splitAt m e q
  (if roundsUp rnd neg p.1 p.2.1 p.2.2 then p.1 + 1 else p.1, p.2.1 != 0)

/-- What an overflow or an infinite magnitude that the format cannot hold gives (R96): infinity, the canonical NaN of
E4M3, or the largest finite magnitude. `toInf` says that the IEEE row gives infinity. -/
def FFmt.overflow (f : FFmt) (rnd : Rnd) (neg toInf : Bool) : Nat :=
  let s := if neg then f.signBit else 0
  if toInf && !(rnd.ovs && decide (f.width = 8)) then
    match f.inf with
    | some c => s + c
    | none => f.nan
  else s + f.maxCode

/-- The IEEE row of R96 gives infinity. Under SR it is that of RNE. -/
def overflowsToInf (rnd : Rnd) (neg : Bool) : Bool :=
  match rnd.mode with
  | .rne | .sr => true
  | .rtz => false
  | .rup => !neg
  | .rdn => neg

/-- Round a finite non-zero magnitude to a format (R93, R94, R96, R98). -/
def FFmt.roundMag (f : FFmt) (rnd : Rnd) (neg : Bool) (m : Nat) (e : Int) : Nat × Nat :=
  let s := if neg then f.signBit else 0
  let qn := e + (lenOf m : Int) - 1 - f.man
  let q := max qn f.qmin
  let a := roundAt rnd neg m e q
  let code := (q - f.qmin).toNat * 2 ^ f.man + a.1
  if f.maxCode < code then (f.overflow rnd neg (overflowsToInf rnd neg), fOF + fNX)
  else
    let u := roundAt rnd neg m e qn
    let tiny := decide (qn < f.qmin) && decide (qn + (lenOf u.1 : Int) - 1 < f.qmin + f.man)
    (s + code, flagIf a.2 fNX + flagIf (a.2 && tiny) fUF)

/-- Round an exact number to a format (R82, R93, R96, R98). -/
def FFmt.round (f : FFmt) (rnd : Rnd) (n : Num) : Nat × Nat :=
  match n with
  | .nan b => (f.nan, flagIf b fNV)
  | .inf neg => match f.inf with
    | some c =>
      if rnd.ovs && decide (f.width = 8) then (f.overflow rnd neg true, fOF + fNX)
      else ((if neg then f.signBit else 0) + c, 0)
    | none => (f.overflow rnd neg true, fOF + fNX)
  | .fin neg m e => if m = 0 then ((if neg then f.signBit else 0), 0) else f.roundMag rnd neg m e

/-- Round an exact number to an integer between `lo` and `hi` (R97). -/
def toInt (rnd : Rnd) (lo hi : Int) (n : Num) : Int × Nat :=
  match n with
  | .nan _ => (0, fNV)
  | .inf neg => (if neg then lo else hi, fNV)
  | .fin neg m e =>
    let a := roundAt rnd neg m e 0
    let v : Int := if neg then -(a.1 : Int) else a.1
    if v < lo then (lo, fNV) else if hi < v then (hi, fNV) else (v, flagIf a.2 fNX)

/-! ## Exact operations -/

/-- The product of two numbers; `true` beside it says that it is 0 × ∞ (R98). -/
def Num.mul (a b : Num) : Num × Bool :=
  match a, b with
  | .nan x, .nan y => (.nan (x || y), false)
  | .nan x, _ => (.nan x, false)
  | _, .nan y => (.nan y, false)
  | .inf s, .inf t => (.inf (s != t), false)
  | .inf s, .fin t m _ => if m = 0 then (.nan true, true) else (.inf (s != t), false)
  | .fin s m _, .inf t => if m = 0 then (.nan true, true) else (.inf (s != t), false)
  | .fin s m e, .fin t n g => (.fin (s != t) (m * n) (e + g), false)

/-- The exact sum of finite terms: a common exponent and an integer. -/
def sumExact (ts : List Num) : Int × Int :=
  let q := ts.foldl (fun (q : Option Int) t => match t with
    | .fin _ m e => if m = 0 then q else some (match q with
      | some g => min g e
      | none => e)
    | _ => q) none
  match q with
  | none => (0, 0)
  | some g => (g, ts.foldl (fun (a : Int) t => match t with
    | .fin neg m e => if m = 0 then a else
      let v : Int := (m * 2 ^ (e - g).toNat : Nat)
      if neg then a - v else a + v
    | _ => a) 0)

/-- The sum of numbers (R98, R460): a NaN term or infinities of both signs give NaN, which signals when NV is due; the
sign of an exact zero follows the terms and the mode. DEDUCED: the sign for `fadd`, `fsub`, `dadd`, `dsub`, `vadd` and
`vsub`, which R460 does not list (log entry 111), and that infinities of both signs beside a quiet NaN term set no NV
(log entry 112). -/
def sumNum (rnd : Rnd) (ts : List Num) : Num :=
  if ts.any Num.isNan then .nan (ts.any Num.isSnan)
  else if ts.any (fun t => t = .inf false) then
    if ts.any (fun t => t = .inf true) then .nan true else .inf false
  else if ts.any (fun t => t = .inf true) then .inf true
  else
    let r := sumExact ts
    if r.2 = 0 then
      .fin (if ts.isEmpty then false else if ts.all Num.neg && ts.all Num.isZero then true
            else decide (rnd.mode = .rdn)) 0 0
    else .fin (decide (r.2 < 0)) r.2.natAbs r.1

/-- A number with `true` in its lowest bit when the exact value lies strictly between: enough bits for one rounding. -/
def sticky (q : Nat) (inexact : Bool) : Nat := 2 * q + inexact.toNat

/-- The quotient (R98, R131): ∞/∞ and 0/0 are invalid, a finite non-zero above zero divides by zero. -/
def Num.div (a b : Num) : Num × Nat :=
  match a, b with
  | .nan x, .nan y => (.nan (x || y), 0)
  | .nan x, _ => (.nan x, 0)
  | _, .nan y => (.nan y, 0)
  | .inf _, .inf _ => (.nan true, 0)
  | .inf s, .fin t _ _ => (.inf (s != t), 0)
  | .fin s _ _, .inf t => (.fin (s != t) 0 0, 0)
  | .fin s m e, .fin t n g =>
    if n = 0 then if m = 0 then (.nan true, 0) else (.inf (s != t), fDZ)
    else
      let k := lenOf n + 130
      let q := m * 2 ^ k / n
      (.fin (s != t) (sticky q (m * 2 ^ k % n != 0)) (e - g - k - 1), 0)

/-- The largest r with r² ≤ n, bit by bit from 2^(fuel−1). -/
def isqrtFrom (n : Nat) : Nat → Nat → Nat
  | 0, r => r
  | k + 1, r => if (r + 2 ^ k) * (r + 2 ^ k) ≤ n then isqrtFrom n k (r + 2 ^ k) else isqrtFrom n k r

/-- The integer square root. -/
def isqrt (n : Nat) : Nat := isqrtFrom n ((lenOf n + 1) / 2) 0

/-- The square root (R131): that of a negative value is invalid, √(−0) = −0. -/
def Num.sqrt (a : Num) : Num :=
  match a with
  | .nan x => .nan x
  | .inf neg => if neg then .nan true else .inf false
  | .fin neg m e =>
    if m = 0 then .fin neg 0 0
    else if neg then .nan true
    else
      let k := 132 + lenOf m + (e - (132 + lenOf m : Nat)).natAbs % 2
      let v := m * 2 ^ k
      let r := isqrt v
      .fin false (sticky r (r * r != v)) ((e - k) / 2 - 1)

/-- Two numbers that are not NaN compare as their values: −1, 0 or 1. −0 and +0 are equal (R133). -/
def Num.cmp (a b : Num) : Int :=
  match a, b with
  | .inf s, .inf t => if s = t then 0 else if s then -1 else 1
  | .inf s, _ => if s then -1 else 1
  | _, .inf t => if t then 1 else -1
  | a, b => (sumExact [a, b.negate]).2.sign

/-! ## Comparisons and selections (R132, R133) -/

/-- The codes of `fcmp` (R133): they take the places of `.lt .ge .le .gt .uo .or` of R55. -/
def fpCond (c : Cond) (x y : Num) : Bool × Nat :=
  let un := x.isNan || y.isNan
  let sn := flagIf (x.isSnan || y.isSnan) fNV
  let r := x.cmp y
  match c with
  | .eq => (!un && r == 0, sn)
  | .ne => (un || r != 0, sn)
  | .lt => (!un && decide (r < 0), flagIf un fNV)
  | .ge => (!un && decide (0 ≤ r), flagIf un fNV)
  | .le => (!un && decide (r ≤ 0), flagIf un fNV)
  | .gt => (!un && decide (0 < r), flagIf un fNV)
  | .ltu => (un, sn)
  | .geu => (!un, sn)

/-- The smaller or the larger of two encodings of a format (R132): −0 is smaller than +0, one NaN is passed above, two
give the canonical NaN. -/
def FFmt.pick (f : FFmt) (larger : Bool) (a b : Nat) : Nat × Nat :=
  let x := f.decode a
  let y := f.decode b
  let fl := flagIf (x.isSnan || y.isSnan) fNV
  if x.isNan && y.isNan then (f.nan, fl)
  else if x.isNan then (b % 2 ^ f.width, fl)
  else if y.isNan then (a % 2 ^ f.width, fl)
  else
    let r := x.cmp y
    let aSmaller := decide (r < 0) || (r == 0 && x.neg)
    ((if aSmaller != larger then a else b) % 2 ^ f.width, fl)

/-- A rounded result with more flags. -/
def withFlags (r : Nat × Nat) (f : Nat) : Nat × Nat := (r.1, r.2 ||| f)

/-! ## The arithmetic forms of one format (R131, R136) -/

def FFmt.add (f : FFmt) (rnd : Rnd) (a b : Nat) : Nat × Nat := f.round rnd (sumNum rnd [f.decode a, f.decode b])
def FFmt.sub (f : FFmt) (rnd : Rnd) (a b : Nat) : Nat × Nat :=
  f.round rnd (sumNum rnd [f.decode a, (f.decode b).negate])
def FFmt.mul (f : FFmt) (rnd : Rnd) (a b : Nat) : Nat × Nat := f.round rnd (Num.mul (f.decode a) (f.decode b)).1
def FFmt.div (f : FFmt) (rnd : Rnd) (a b : Nat) : Nat × Nat :=
  let q := Num.div (f.decode a) (f.decode b)
  withFlags (f.round rnd q.1) q.2
def FFmt.sqrt (f : FFmt) (rnd : Rnd) (a : Nat) : Nat × Nat := f.round rnd (f.decode a).sqrt

/-- Fused multiply-add with one rounding, the product and the addend each possibly negated (R131, R184). -/
def FFmt.fma (f : FFmt) (rnd : Rnd) (negP negC : Bool) (a b c : Nat) : Nat × Nat :=
  let p := (Num.mul (f.decode a) (f.decode b)).1
  let p := if negP then p.negate else p
  let c := if negC then (f.decode c).negate else f.decode c
  f.round rnd (sumNum rnd [p, c])

/-! ## Rounding of conversions (R94, R95) -/

/-- The rounding of one element of a conversion, and the seed after it: under SR each element takes one step. -/
def cvtRnd (fmode seed : Word) : Rnd × Word :=
  if rmOf fmode = .sr then (⟨.sr, (srNext seed).2, bitAt fmode 8⟩, (srNext seed).1)
  else (⟨rmOf fmode, 0, bitAt fmode 8⟩, seed)

/-- The seeds' rounding for `n` elements in ascending order. -/
def cvtRnds (fmode : Word) : Nat → Word → List Rnd × Word
  | 0, seed => ([], seed)
  | n + 1, seed =>
    let a := cvtRnd fmode seed
    let b := cvtRnds fmode n a.2
    (a.1 :: b.1, b.2)

/-! ## Formats by tag (R90) -/

/-- The floating-point format of a tag. -/
def fmtOfTag : Tag → Option FFmt
  | .f64 => some fp64
  | .f32 => some fp32
  | .bf16 => some bf16
  | .f16 => some fp16
  | .e4m3 => some e4m3
  | .e5m2 => some e5m2
  | _ => none

/-- Width and signedness of an integer tag (R78). -/
def intOfTag : Tag → Option (Nat × Bool)
  | .i8 => some (8, true)
  | .u8 => some (8, false)
  | .i16 => some (16, true)
  | .i32 => some (32, true)
  | .i64 => some (64, true)
  | _ => none

/-- The range of an integer format (R78). -/
def intLo (w : Nat) (signed : Bool) : Int := if signed then -(2 ^ (w - 1) : Nat) else 0
def intHi (w : Nat) (signed : Bool) : Int := if signed then (2 ^ (w - 1) : Nat) - 1 else (2 ^ w : Nat) - 1

/-- The value of a lane of an integer format. -/
def intVal (w : Nat) (signed : Bool) (v : Nat) : Int := if signed then signedOf w v else (v % 2 ^ w : Nat)

/-! ## Block formats (R84 to R88) -/

/-- The value of a block element before the scale: the spare value stands for code 8 of E2M1X (R87). -/
def elemNum (t : Tag) (code spare : Nat) : Num :=
  if t = .e2m1x then (if code % 16 = 8 then e4m3.decode spare else e2m1.decode code) else e4m3.decode code

/-- The full value of a block element (R84, R85, R87). -/
def blockNum (t : Tag) (code scale spare : Nat) : Num :=
  if scale % 256 = 255 then .nan false else (elemNum t code spare).scale ((scale % 256 : Nat) - 127)

/-! ## Quantisation (R99) -/

/-- The largest element magnitude of a block format as a number. -/
def eMax (t : Tag) : Num := if t = .e2m1x then .fin false 6 0 else .fin false 448 0

/-- The smallest s from −127 on with m / 2^s ≤ E_max, at most 128 (R99). -/
def scaleFrom (t : Tag) (m : Num) : Nat → Int → Int
  | 0, s => s
  | k + 1, s => if (m.scale (-s)).cmp (eMax t) ≤ 0 then s else scaleFrom t m k (s + 1)

/-- The exponent of a block's scale (R99). -/
def scaleOf (t : Tag) (m : Num) : Int := if m.isZero then 0 else scaleFrom t m 255 (-127)

/-- The largest magnitude of a list. -/
def maxMag (xs : List Num) : Num := xs.foldl (fun m x => if m.cmp x.abs < 0 then x.abs else m) (.fin false 0 0)

/-- A quantised block: element codes, scale, spare and flags. -/
structure Block where
  codes : List Nat
  scale : Nat
  spare : Nat
  flags : Nat
  deriving DecidableEq, Repr

/-- A NaN block (R99). -/
def nanBlock (t : Tag) (n flags : Nat) : Block := ⟨List.replicate n 0, 255, if t = .e2m1x then 0x7F else 0, flags⟩

/-- Quantise a block of values, element j rounded with the rounding at place j (R99). -/
def quantise (t : Tag) (ovs : Bool) (xs : List Num) (rnds : List Rnd) : Block :=
  if xs.any Num.isNan then nanBlock t xs.length (flagIf (xs.any Num.isSnan) fNV)
  else
    let m := maxMag xs
    let s0 := if m.isInf then 128 else scaleOf t m
    let above := m.isInf || decide (127 < s0)
    if above && !ovs then nanBlock t xs.length (fOF + fNX)
    else
      let s := if above then 127 else s0
      let lim := (eMax t).scale s
      let vals := xs.map fun x => if lim.cmp x.abs < 0 then (if x.neg then lim.negate else lim) else x
      let d := if t = .e2m1x ∧ !m.isZero then xs.findIdx? fun x => x.abs.cmp m == 0 else none
      let res := (vals.zip rnds).zipIdx.map fun p =>
        let q := p.1.1.scale (-s)
        if d = some p.2 then (e4m3.round p.1.2 q, true)
        else if t = .e2m1x then
          let r := e2m1.round p.1.2 q
          ((if r.1 = 8 then 0 else r.1, r.2), false)
        else (e4m3.round p.1.2 q, false)
      let uf := decide (s = -127) && (vals.zip res).any fun p =>
        !p.1.isZero && p.2.1.1 % (if t = .e2m1x ∧ !p.2.2 then 8 else 128) == 0
      let nx := res.any fun p => p.1.2 % 2 == 1
      { codes := res.map fun p => if p.2 then 8 else p.1.1
        scale := (s + 127).toNat
        spare := match res.find? fun p => p.2 with
          | some p => p.1.1
          | none => 0
        flags := flagIf above (fOF + fNX) ||| flagIf nx fNX ||| flagIf uf fUF }

end Sys2Proof.Machine
end

