-- ==== Sys2Proof/Machine/Operands.lean ====
section
/-! DEFINITION. The operand forms of the scalar instructions: which registers are read, which immediate is used, and
where the result goes (R53, R60, R108 to R134). -/

namespace Sys2Proof.Machine

/-! ## Integer forms -/

/-- Two s registers to an s register. -/
def State.op2 (s : State) (sm : Bool) (d a b : Fin 16) (f : Word → Word → Word) : Host.Outcome State Fault Refusal :=
  s.issue sm fun s => do
    let x ← s.rdS a
    let y ← s.rdS b
    done (s.wrS d (f x y))

/-- One s register to an s register. -/
def State.op1 (s : State) (sm : Bool) (d a : Fin 16) (f : Word → Word) : Host.Outcome State Fault Refusal :=
  s.issue sm fun s => do
    let x ← s.rdS a
    done (s.wrS d (f x))

/-- An s register and an immediate of `n` bits to an s register. -/
def State.opImm (s : State) (sm : Bool) (d a : Fin 16) (n v : Nat) (signed : Bool) (f : Word → Word → Word) :
    Host.Outcome State Fault Refusal :=
  s.issueImm sm fun s => do
    let x ← s.rdS a
    done (s.wrS d (f x (s.me.imm n v signed)))

/-- Two predicates to a predicate. -/
def State.opP (s : State) (sm : Bool) (d a b : Fin 8) (f : Bool → Bool → Bool) : Host.Outcome State Fault Refusal :=
  s.issue sm fun s => do
    let x ← s.rdP a
    let y ← s.rdP b
    done (s.wrP d (f x y))

/-- Condition codes (R55). -/
def condHolds (c : Cond) (x y : Word) : Bool :=
  match c with
  | .eq => x == y
  | .ne => x != y
  | .lt => x.slt y
  | .ge => !x.slt y
  | .le => x.sle y
  | .gt => !x.sle y
  | .ltu => x.ult y
  | .geu => !x.ult y

/-! ## Floating-point forms (R131, R136) -/

/-- The bits of an s register that a format occupies (R83). -/
def lowBits (f : FFmt) (x : Word) : Nat := x.toNat % 2 ^ f.width

/-- Write a floating-point result and merge its flags. -/
def State.wrF (s : State) (d : Fin 16) (r : Nat × Nat) : State := (s.addFlags r.2).wrS d (word r.1)

/-- Two operands of a format to a result of it. -/
def State.fop2 (s : State) (f : FFmt) (d a b : Fin 16) (g : Rnd → Nat → Nat → Nat × Nat) :
    Except Stop (State × Next) := do
  let x ← s.rdS a
  let y ← s.rdS b
  done (s.wrF d (g (arithRnd s.me.fmode) (lowBits f x) (lowBits f y)))

/-- One operand of a format to a result of it. -/
def State.fop1 (s : State) (f : FFmt) (d a : Fin 16) (g : Rnd → Nat → Nat × Nat) : Except Stop (State × Next) := do
  let x ← s.rdS a
  done (s.wrF d (g (arithRnd s.me.fmode) (lowBits f x)))

/-- Two operands and the destination as addend. -/
def State.fop3 (s : State) (f : FFmt) (d a b : Fin 16) : Except Stop (State × Next) := do
  let x ← s.rdS a
  let y ← s.rdS b
  let c ← s.rdS d
  done (s.wrF d (f.fma (arithRnd s.me.fmode) false false (lowBits f x) (lowBits f y) (lowBits f c)))

/-- A comparison of two operands of a format into a predicate (R133). -/
def State.fopCmp (s : State) (f : FFmt) (d : Fin 8) (a b : Fin 16) (c : Cond) : Except Stop (State × Next) := do
  let x ← s.rdS a
  let y ← s.rdS b
  let r := fpCond c (f.decode (lowBits f x)) (f.decode (lowBits f y))
  done ((s.addFlags r.2).wrP d r.1)

/-- A conversion: one element, one step of the generator under SR (R94, R95). -/
def State.fopCvt (s : State) (d a : Fin 16) (g : Rnd → Word → Word × Nat) : Except Stop (State × Next) := do
  let x ← s.rdS a
  let r := cvtRnd s.me.fmode s.me.srseed
  let v := g r.1 x
  done (((s.modMe fun h => { h with srseed := r.2 }).addFlags v.2).wrS d v.1)

/-- A conversion to an integer of `w` bits, sign-extended (R97). -/
def cvtToInt (f : FFmt) (w : Nat) (rnd : Rnd) (x : Word) : Word × Nat :=
  let r := toInt rnd (intLo w true) (intHi w true) (f.decode (lowBits f x))
  (BitVec.ofInt 64 r.1, r.2)

/-- A conversion from a signed integer of `w` bits (R97). -/
def cvtFromInt (f : FFmt) (w : Nat) (rnd : Rnd) (x : Word) : Word × Nat :=
  let r := f.round rnd (.ofInt (signedOf w x.toNat))
  (word r.1, r.2)

/-- A conversion between two formats (R96, R97). -/
def cvtFloat (f g : FFmt) (rnd : Rnd) (x : Word) : Word × Nat :=
  let r := g.round rnd (f.decode (lowBits f x))
  (word r.1, r.2)

/-! ## Memory operands (R122, R123) -/

/-- The bytes of an access size. -/
def sizeBytes : Size → Nat
  | .b => 1
  | .h => 2
  | .w => 4
  | .d => 8

/-- The effective address of a load or store: the base plus the offset scaled by the size. -/
def State.memEa (s : State) (base : Word) (z : Size) (f : BitVec 12) : Word :=
  base + s.me.imm 12 f.toNat true * word (sizeBytes z)

/-! ## Ordering (R51, R308, R311) -/

/-- Every store, push, deposit and atomic of an agent has been accepted. -/
def State.storesDone (s : State) (g : Agent) : Bool :=
  !s.anyMessage (secOf g) fun f => f.awaited && s.isActor g f.actor

/-- Every push, deposit, peer store and Zenith request of an agent has been accepted and its register writes have
landed. -/
def State.drained (s : State) (g : Agent) : Bool := s.storesDone g && !(s.zreqs.any fun r => s.zBy g r)

/-- No command of an agent's vt is queued or running in its cluster's engine and copy unit, and no job of it runs
(R165, R217). -/
def State.enginesIdle (s : State) (g : Agent) : Bool :=
  !((s.sec (secOf g)).jobs.any fun e => match e.2 with
    | some j => j.running && e.1 / 65536 == s.jobOwner g && j.vt == s.vtOf g
    | none => false)

/-- A matrix command or `pgrun` of an agent's vt has not completed (R223, R260). -/
def State.mxBusy (s : State) (g : Agent) : Bool :=
  match g with
  | .master _ _ => false
  | .thread x i => (s.cluster x (clusterOf i.val)).mx.toList.any fun q => q.any fun c => c.actor.vt == s.vtAt x i.val

/-- A command that an agent's vt issued under its present Cirrus binding has not completed (R260, R263). -/
def State.bindingBusy (s : State) (g : Agent) : Bool :=
  match g with
  | .master _ _ => false
  | .thread x i =>
    let bound := (s.ctx x i.val).cirrus
    bound.isSome && (s.cluster x (clusterOf i.val)).mx.toList.any fun q => q.any fun c =>
      c.actor.vt == s.vtAt x i.val && c.bind_ == bound

/-- The executing agent has waited for its matrix commands, or for those of its Cirrus binding: their reads of open
channels are acquires before what follows (R306, R324). They move the interval of the read-only path only now (log entry
132). -/
def State.engAwaited (s : State) (bound : Bool) : State :=
  s.modMe fun h => { h with roSeq := max h.roSeq (if bound then h.engSeq.2 else h.engSeq.1) }

/-- A Zenith request of the agent with this result register is outstanding: results land in program order (R13). -/
def State.zBusy (s : State) (g : Agent) (d : Fin 16) : Bool :=
  s.zreqs.any fun r => r.agent = g && r.d == some d

/-- A wait without a park is over (R371). -/
def State.waitOver (s : State) (g : Agent) (w : Wait) : Bool :=
  match w with
  | .pred k => !(s.hart g).pBusy.get k
  | .result d => !((s.hart g).s.get d).claimed && !s.zBusy g d
  | .drain engines => s.drained g && (!engines || s.enginesIdle g)
  | .stores => s.storesDone g
  | .releases => !s.releaseOpen g
  | .binding => !s.bindingBusy g

/-- A release waits until the earlier accesses of the agent have been accepted (R311). -/
def State.released (s : State) (release : Bool) : Except Stop Unit :=
  if release && !s.drained s.cur then .error (.interlock (.drain false)) else .ok ()

/-- The home of an address outside the scratchpad windows (R309): its sector, address space and address there. -/
def State.homeOfEa (s : State) (g : Agent) (ea : Nat) : Option (Sec × BitVec 16 × Nat) :=
  if ea < 2 ^ 56 then some (secOf g, s.asidOf g, ea)
  else if ea / 2 ^ 56 = 0xFE then
    let e := s.export_ (s.peerHome (secOf g) ea).1
      (handleIndex (s.import_ (secOf g) (ea / 2 ^ 40 % 256)).handle.toNat)
    some ((s.peerHome (secOf g) ea).1, e.asid, (s.peerHome (secOf g) ea).2)
  else none

/-- Bytes of application space or a peer window as a load on the read-only path may see them (R123, R124): those of a
moment of its interval, which is a free value (log entry 11). -/
def State.readOnlyPath (s : State) (ea : Word) (bs : List Byte) : List Byte × State :=
  match s.cur, s.homeOfEa s.cur ea.toNat with
  | .thread _ _, some (y, asid, va) =>
    if s.wseq ≤ s.me.roSeq then (bs, s)
    else
      let seq := s.me.roSeq + Config.pick s.freeCtr % (s.wseq - s.me.roSeq + 1)
      (bs.zipIdx.map fun b => s.asOf y (vaKey asid (va + b.2)) seq b.1, { s with freeCtr := s.freeCtr + 1 })
  | _, _ => (bs, s)

/-- The orders of R57. -/
def isAcq : Order → Bool
  | .acq | .ar => true
  | _ => false
def isRel : Order → Bool
  | .rel | .ar => true
  | _ => false

/-! ## Register pairs (R54) -/

/-- The register after another; a pair never starts at register 15. -/
def succ16 (r : Fin 16) : Fin 16 := Fin.ofNat 16 (r.val + 1)

/-- Read the pair that starts at a register. -/
def State.rdPair (s : State) (r : Fin 16) : Except Stop (Word × Word) := do
  let x ← s.rdS r
  let y ← s.rdS (succ16 r)
  .ok (x, y)

/-- A vt runs in an instance: the instance of the executing context, without which no lease holds. -/
def State.myInst (s : State) : Except Stop Inst :=
  match s.instOf s.cur with
  | some i => .ok i
  | none => fault (flt cILL 0)

end Sys2Proof.Machine
end

