-- ==== Sys2Proof/Machine/Branch.lean ====
section
/-! DEFINITION. Branches and jumps (R127 to R130): a target is checked before anything is written. -/

namespace Sys2Proof.Machine

/-- Transfer to a checked target (R130). -/
def State.transfer (s : State) (t : Word) : Except Stop (State × Next) := do
  checkTarget t
  .ok (s, .jump t)

/-- A conditional branch: on to the next word when it is not taken. -/
def State.branch (s : State) (taken : Bool) (f : BitVec 18) : Except Stop (State × Next) :=
  if taken then s.transfer (s.target 18 f.toNat) else done s

def execBp (sm : Bool) (p : Fin 8) (f : BitVec 18) (s : State) : Host.Outcome State Fault Refusal :=
  s.issueImm sm fun s => do
    let c ← s.rdP p
    s.branch c f

def execBnp (sm : Bool) (p : Fin 8) (f : BitVec 18) (s : State) : Host.Outcome State Fault Refusal :=
  s.issueImm sm fun s => do
    let c ← s.rdP p
    s.branch (!c) f

def execBz (sm : Bool) (k : Fin 16) (f : BitVec 18) (s : State) : Host.Outcome State Fault Refusal :=
  s.issueImm sm fun s => do
    let x ← s.rdS k
    s.branch (x == 0) f

def execBnz (sm : Bool) (k : Fin 16) (f : BitVec 18) (s : State) : Host.Outcome State Fault Refusal :=
  s.issueImm sm fun s => do
    let x ← s.rdS k
    s.branch (x != 0) f

/-- The decremented value is written whether or not the branch is taken. -/
def execDbnz (sm : Bool) (k : Fin 16) (f : BitVec 18) (s : State) : Host.Outcome State Fault Refusal :=
  s.issueImm sm fun s => do
    let x ← s.rdS k
    (s.wrS k (x - 1)).branch (x - 1 != 0) f

def execJ (sm : Bool) (f : BitVec 25) (s : State) : Host.Outcome State Fault Refusal :=
  s.issueImm sm fun s => s.transfer (s.target 25 f.toNat)

/-- The link is the word after the `jal`. -/
def execJal (sm : Bool) (f : BitVec 25) (s : State) : Host.Outcome State Fault Refusal :=
  s.issueImm sm fun s => (s.wrS 15 (s.me.pc + 4)).transfer (s.target 25 f.toNat)

def execJr (sm : Bool) (a : Fin 16) (s : State) : Host.Outcome State Fault Refusal :=
  s.issue sm fun s => do
    let t ← s.rdS a
    s.transfer t

/-- S[A] is read before the link is written. -/
def execJalr (sm : Bool) (a : Fin 16) (s : State) : Host.Outcome State Fault Refusal :=
  s.issue sm fun s => do
    let t ← s.rdS a
    (s.wrS 15 (s.me.pc + 4)).transfer t

end Sys2Proof.Machine
end

