-- ==== Sys2Proof/Machine/Jobs.lean ====
section
/-! DEFINITION. Job records (R266 to R269), the end of instances (R153, R397), and what a vt leaves behind. -/

namespace Sys2Proof.Machine

/-! ## Commands that wait for their issuer's earlier accesses (R311) -/

/-- The agent that runs a command's vt now; its issuer when the vt runs nowhere. -/
def State.runsOn (s : State) (a : Actor) : Agent :=
  match a.vt with
  | none => a.agent
  | some v => match (s.inst (secOf a.agent) v.uid).bind fun i => i.vts.find? fun t => t.n == v.n with
    | some t => match t.running with
      | some i => ctxAgent (secOf a.agent) i
      | none => a.agent
    | none => a.agent

/-- Every access of a command's issuer before the command has been accepted (R217, R311). -/
def State.earlierDone (s : State) (a : Actor) : Bool :=
  !s.anyMessage (secOf a.agent) (fun f => decide (f.id < a.after) && f.awaited && f.actor.same a)
    && !(s.zreqs.any fun r => r.by a && decide (r.id < a.after))

/-- The due step of a request of a unit (R309, R332, R357). -/
def BankReq.due (b : BankReq) : Due :=
  if b.back then .flitArrive b.sec b.cl b.id
  else if 0xFE00000000000000 ≤ b.ea then .peerRequest b.id
  else match b.op with
    | .read => .bankRead b.id
    | .write | .record => .bankWrite b.id
    | .add _ => .bankAtomic b.id

/-- The gathers and scatters of a cluster that have elements left go on (R284). -/
def State.kickGathers (s : State) (x : Sec) (cl : Fin 96) : State :=
  s.postAll ((s.sec x).asyncs.filterMap fun a => match a.kind with
    | .xgat | .xsct | .xsctadd _ =>
      if clusterOfAgent a.actor.agent = some cl ∧ !a.todo.isEmpty then some (.xgComplete x a.id) else none
    | _ => none)

/-- A core that pre-emption has stopped may have drained (R401). -/
def State.kickPreempt (s : State) (x : Sec) (cl : Fin 96) (co : Fin 8) : State :=
  let c := s.coreSt x cl co
  if c.stopped.isSome && !c.saved then s.post (.preemptImagesSaved x cl co) else s

/-- After an acceptance, the units that hold commands of an agent look at them again, and an interrupt whose entry has
to wait for it is taken (R311, R392). -/
def State.kick (s : State) (g : Agent) : State :=
  let x := secOf g
  let s := s.postAll ((s.sec x).asyncs.filterMap fun a => match a.kind with
    | .xgat | .xsct | .xsctadd _ => none
    | _ => if s.runsOn a.actor = g then some (.jobComplete x a.id) else none)
  match g with
  | .master _ n =>
    let m := s.master x n
    if m.ie && (m.chl.isSome || !m.irqs.isEmpty) then s.post (.interruptTaken x n) else s
  | .thread _ i =>
    let cl := clusterOf i.val
    let c := s.cluster x cl
    let s := s.kickPreempt x cl (coreOf i.val)
    let s := if c.mx.toList.any (!·.isEmpty) then s.post (.engineStep x cl) else s
    let s := if c.cp.toList.any (!·.isEmpty) then s.post (.copyCommandStart x cl) else s
    s.kickGathers x cl

/-! ## When an instance can end (R153) -/

/-- An access of a vt of the instance is still under way, or a detached job that has ended is not yet recorded (R269).
-/
def State.accessesOf (s : State) (x : Sec) (uid : Nat) : Bool :=
  let of := fun (a : Actor) => match a.vt with
    | some v => v.uid == uid
    | none => false
  let push := fun (f : Flight) => of f.actor && match f.body with
    | .migrate _ => false
    | _ => true
  s.anyMessage x push || s.zreqs.any (fun r => r.vt.any fun v => v.uid == uid)
    || s.bankq.any (fun r => of r.actor)
    || s.clusters.any (fun e => e.2.mx.toList.any (fun q => q.any fun c => of c.actor)
      || e.2.cp.toList.any (fun q => q.any fun c => of c.actor) || e.2.cpRunning.any fun c => of c.actor)
    || (s.sec x).asyncs.any (fun a => of a.actor)
    || (s.sec x).jobs.any fun e => match e.2 with
      | some j => j.detached && !j.running && j.vt.any fun v => v.uid == uid
      | none => false

/-- Every condition of R153 holds. -/
def State.endable (s : State) (x : Sec) (i : Inst) : Bool :=
  i.final.isNone && i.phase != .waitIdx && (i.aborted || i.lost || i.phase == .drained)
    && i.vts.isEmpty && !s.accessesOf x i.uid
    && !((s.sec x).insts.any fun c => c.parent == some i.uid && c.final.isNone)

/-- Make the end of every instance that can end due. -/
def State.checkEnds (s : State) (x : Sec) : State :=
  ((s.sec x).insts.filter (s.endable x)).foldl (fun s i => s.post (.instanceEnd x i.uid)) s

/-! ## Records -/

/-- The key of a job record. -/
def jobKey (owner id : Nat) : Nat := owner * 65536 + id

/-- A job record. -/
def State.job (s : State) (x : Sec) (owner id : Nat) : Option Job := Sparse.get none (s.sec x).jobs (jobKey owner id)

/-- Set or free a job record. -/
def State.setJob (s : State) (x : Sec) (owner id : Nat) (j : Option Job) : State :=
  s.modSec x fun c => { c with jobs := Sparse.put none c.jobs (jobKey owner id) j }

/-- The records of an owner. -/
def State.jobsOf (s : State) (x : Sec) (owner : Nat) : List (Nat × Job) :=
  (s.sec x).jobs.filterMap fun e =>
    if e.1 / 65536 = owner then e.2.map fun j => (e.1 % 65536, j) else none

/-- The agent that keeps the identifier counter of an owner. -/
def ctrAgent (x : Sec) (owner : Nat) : Agent :=
  if owner < 6144 then ctxAgent x owner else .master x (Fin.ofNat 16 (owner - 6144))

/-- The next identifier: the counter's value, skipping 0 and every value that a record holds (R266). -/
def nextJobId (held : List Nat) : Nat → Nat → Nat
  | 0, c => c
  | fuel + 1, c => if c = 0 ∨ held.contains c then nextJobId held fuel ((c + 1) % 65536) else c

/-- A record that a new job may take the place of (R267): held and DONE, the oldest. -/
def freeable (js : List (Nat × Job)) : Option Nat :=
  (js.foldl (fun (b : Option (Nat × Job)) e =>
    if e.2.running || e.2.status != 1 || e.2.flt.isSome || e.2.detached then b
    else match b with
      | none => some e
      | some o => if e.2.order < o.2.order then some e else some o) none).map (·.1)

/-- Record a job that ended without a report in the status block of its instance (R269, R397). -/
def State.recordDetached (s : State) (x : Sec) (uid id status home : Nat) (f : Option Flt) : State :=
  match s.inst x uid with
  | none => s
  | some i =>
    let st := if f.isSome then 4 else status
    let c := (f.map (·.cause)).getD 0
    let b := (f.map (·.sub)).getD 0
    let s := s.areaMod x i (areaStatus + 32) 8 (satInc 8)
    let s := s.areaPut x i (areaStatus + 40) 8
      (id % 65536 + st % 256 * 2 ^ 16 + home % 65536 * 2 ^ 24 + c % 256 * 2 ^ 40 + b % 256 * 2 ^ 48)
    s.swarm x i

/-- Agents that wait for a job of an owner: in `jwait`, or for a record. -/
def State.jobWaiters (s : State) (x : Sec) (owner id : Nat) : List Due :=
  s.harts.filterMap fun e =>
    let g := agentOfKey e.1
    if secOf g = x ∧ s.jobOwner g = owner then match e.2.park with
      | some (.jwait j _) => if j = id then some (.jwaitComplete g) else none
      | some (.queue .jobs) => some (.queueEntryFree g)
      | _ => none
    else none

/-- A detached job that has ended is recorded if it is not DONE, and its record is freed (R267, R269). -/
def State.finishDetached (s : State) (x : Sec) (key : Nat) : State :=
  let home := key / 65536
  let id := key % 65536
  match s.job x home id with
  | some j =>
    if j.running || !j.detached then s
    else
      let s' := s.setJob x home id none
      let t := match j.vt with
        | some v =>
          if j.status = 1 ∧ j.flt.isNone then s' else s'.recordDetached x v.uid id j.status home j.flt
        | none => s'
      (t.postAll (t.jobWaiters x home id)).checkEnds x
  | none => s

/-- Room for one more job of the executing agent (R267): the state with a record freed if need be, a park, or SHP.
Detached jobs that have ended hold no record. -/
def State.jobRoom (s : State) : Except Stop State :=
  let x := secOf s.cur
  let owner := s.jobOwner s.cur
  let ended := (s.jobsOf x owner).filter fun e => e.2.detached && !e.2.running
  let s := ended.foldl (fun s e => s.finishDetached x (jobKey owner e.1)) s
  let js := s.jobsOf x owner
  if js.length < 64 then .ok s
  else match freeable js with
    | some id => .ok (s.setJob x owner id none)
    | none => if js.any (·.2.running) then .error (.park (.queue .jobs)) else fault (flt cSHP 0x28)

/-- Create a job of the executing agent: its actor, and the state with the record. -/
def State.newJob (s : State) (queued : Bool) : Actor × State :=
  let x := secOf s.cur
  let owner := s.jobOwner s.cur
  let g := ctrAgent x owner
  let id := nextJobId ((s.jobsOf x owner).map (·.1)) 66 (s.hart g).jobCtr.toNat
  let order := (s.sec x).jobOrder
  let a := { s.actor s.cur id with seq := order }
  let s := (s.modSec x fun c => { c with jobOrder := c.jobOrder + 1 }).setJob x owner id
    (some { running := true, queued := queued, status := 0, info := 0, flt := none, reported := false
            vt := s.vtOf s.cur, detached := false, order := order })
  (a, s.modHart g fun h => { h with jobCtr := BitVec.ofNat 16 (id + 1) })

/-- A job of a Stratus unit (R284 to R293). -/
def State.async (s : State) (x : Sec) (id : Nat) : Option Async := (s.sec x).asyncs.find? fun a => a.id == id

/-- Change a job of a Stratus unit. -/
def State.modAsync (s : State) (x : Sec) (id : Nat) (f : Async → Async) : State :=
  s.modSec x fun c => { c with asyncs := c.asyncs.map fun a => if a.id = id then f a else a }

/-- A new job of a Stratus unit over a range: its number, its actor, and the state with both. -/
def State.newAsync (s : State) (k : AsyncKind) (base len : Nat) : Nat × Actor × State :=
  let id := s.nextId
  let pc := if s.me.chain.isEmpty then s.me.pc else s.me.chainPc
  let w := s.curWord
  let r := s.newJob true
  (id, r.1, r.2.fresh.modSec (secOf s.cur) fun c => { c with asyncs := c.asyncs ++
    [{ id := id, kind := k, actor := r.1, started := false, pc := pc, instr := w, base := base, len := len
       side := 0, list := 0, size := 0, wide := false, todo := [], flt := none, count := 0 }] })

/-- A job of a Stratus unit ends. -/
def State.dropAsync (s : State) (x : Sec) (id : Nat) : State :=
  s.modSec x fun c => { c with asyncs := c.asyncs.filter fun a => a.id != id }

/-- The record of an actor's job, if it still stands. -/
def State.jobOfActor (s : State) (x : Sec) (a : Actor) : Option Job :=
  match s.job x a.home a.job with
  | some j => if j.order = a.seq then some j else none
  | none => none

/-- The unit has started the job's command (R269). -/
def State.startJob (s : State) (x : Sec) (a : Actor) : State :=
  match s.jobOfActor x a with
  | some j => s.setJob x a.home a.job (some { j with queued := false })
  | none => s

/-- A Stratus unit has started a job. -/
def State.startAsync (s : State) (x : Sec) (a : Async) : State :=
  (s.modAsync x a.id fun a => { a with started := true }).startJob x a.actor

/-- A job ends (R267 to R269): its record becomes held, or, for a detached one and one left without a record at its vt's
`done`, the end is recorded when it is not DONE. -/
def State.endJob (s : State) (x : Sec) (a : Actor) (status info : Nat) (f : Option Flt) : State :=
  let f := f.map fun f => { f with job := a.job }
  let s := match s.jobOfActor x a with
    | some j =>
      let s' := s.setJob x a.home a.job
        (some { j with running := false, queued := false, status := status, info := info, flt := f })
      if j.detached then s'.post (.detachedJobEnd x (jobKey a.home a.job)) else s'.postAll (s'.jobWaiters x a.home a.job)
    | none =>
      if !(s.sec x).jobsLeft.contains a.seq then s
      else
        let s' := s.modSec x fun c => { c with jobsLeft := c.jobsLeft.filter (· ≠ a.seq) }
        match a.vt with
        | some v => if status = 1 ∧ f.isNone then s' else s'.recordDetached x v.uid a.job status a.home f
        | none => s'
  s.checkEnds x

/-- A detached job has ended. -/
def execDetachedJobEnd (x : Sec) (id : Nat) (s : State) : Host.Outcome State Fault Refusal :=
  event (s.finishDetached x id)

/-- The records of a vt at its `done` (R269). -/
def State.endVtJobs (s : State) (x : Sec) (v : VtName) (home : Nat) : State :=
  (s.jobsOf x home).foldl (fun s e =>
    let id := e.1
    let j := e.2
    if j.vt ≠ some v ∨ j.detached then s
    else if j.running then
      if j.queued then
        (s.setJob x home id none).modSec x fun c => { c with jobsLeft := c.jobsLeft ++ [j.order] }
      else s.setJob x home id (some { j with detached := true })
    else
      let s := s.setJob x home id none
      if j.status = 1 ∧ j.flt.isNone then s else s.recordDetached x v.uid id j.status home j.flt) s

/-- Free every record of an instance without a report (R269, R383). -/
def State.dropJobs (s : State) (x : Sec) (p : VtName → Bool) : State :=
  s.modSec x fun c => { c with jobs := c.jobs.filter fun e => match e.2 with
    | some j => match j.vt with
      | some v => !p v
      | none => true
    | none => true }

/-! ## Queues (R215, R273, R373) -/

/-- Issuers parked on the queue of a core. -/
def State.queueWaiters (s : State) (x : Sec) (cl : Fin 96) (co : Fin 8) (k : QueueKind) : List Due :=
  s.harts.filterMap fun e => match e.2.park, agentOfKey e.1 with
    | some (.queue j), .thread y i =>
      if j = k ∧ y = x ∧ clusterOf i.val = cl ∧ coreOf i.val = co then some (.queueEntryFree (.thread y i)) else none
    | _, _ => none

/-- Commands have been taken out of the queues of a cluster: issuers that wait for an entry, the units and stopped cores
look at them again. -/
def State.queuesCut (s : State) (x : Sec) (cl : Fin 96) : State :=
  let s := ((List.range 8).map (Fin.ofNat 8)).foldl (fun s co =>
    (s.postAll (s.queueWaiters x cl co .engine ++ s.queueWaiters x cl co .copy)).kickPreempt x cl co) s
  let c := s.cluster x cl
  let s := if c.mx.toList.any (!·.isEmpty) then s.post (.engineStep x cl) else s
  if c.cp.toList.any (!·.isEmpty) then s.post (.copyCommandStart x cl) else s

/-! ## Slots that a vt owns in clusters (R18, R210, R228, R242, R243) -/

/-- Free the accumulator, Cirrus and digest slots of the owners that a test names, in every cluster of a sector. -/
def State.freeOwned (s : State) (x : Sec) (p : SlotOwner → Bool) : State :=
  let gone := fun (o : Option SlotOwner) => match o with
    | some o => p o
    | none => false
  ((List.range 96).map (Fin.ofNat 96)).foldl (fun s cl =>
    if (Sparse.find s.clusters (clusterKey x cl)).isNone then s
    else s.modCluster x cl fun c =>
      { c with
        accTags := c.accTags.map fun v => v.map fun t => if gone (t.map (·.owner)) then none else t
        cirrus := c.cirrus.map fun k => if gone k.owner then { k with owner := none } else k
        digest := c.digest.map fun k => if gone k.owner then { k with owner := none } else k }) s

/-- Free the accumulator slots of the owners that a test names (R228). -/
def State.freeOwnedAccs (s : State) (x : Sec) (p : SlotOwner → Bool) : State :=
  let gone := fun (o : Option AccTag) => match o with
    | some t => p t.owner
    | none => false
  ((List.range 96).map (Fin.ofNat 96)).foldl (fun s cl =>
    if (s.cluster x cl).accTags.toList.any (fun v => v.toList.any gone) then
      s.modCluster x cl fun c =>
        { c with accTags := c.accTags.map fun v => v.map fun t => if gone t then none else t }
    else s) s

/-! ## The generator -/

/-- The generator's run is given up: its next word is no longer due. -/
def State.stopRun (s : State) : State :=
  { s with gen := none, agenda := s.agenda.filter fun d => match d with
      | .cirrus _ => false
      | _ => true }

/-- The run for a `pginv` of a context is given up. -/
def State.stopQuery (s : State) (g : Agent) : State :=
  match s.gen with
  | some r => match r.for_ with
    | .query q _ _ _ _ => if q = g then s.stopRun else s
    | .command _ _ _ => s
    | .list _ _ _ => s
  | none => s

/-! ## Messages that wait (R14, R377 to R381, R406) -/

/-- Records of an overflow heap beside its header, and the offset of a record in the area by its number in the order of
writing (R380). -/
def heapRecords : Nat := 28671
def heapSlot (k : Nat) : Nat := areaHeap + 192 * (1 + k % heapRecords)

/-- How many records the spill queue holds beside its header, its physical address, and that of a record by its number
in the order of appending (R406). -/
def spillRecords (q : Word) : Nat := 2 ^ (16 + bitsOf q 0 4) / 192 - 1
def spillBase (q : Word) : Nat := bitsOf q 16 36 * 2 ^ 16
def spillSlot (q : Word) (k : Nat) : Nat := spillBase q + 192 * (1 + k % spillRecords q)

/-- Move a head past records of type 0: that of the spill queue (R406), and that of a heap. -/
def State.spillAdvance (s : State) (x : Sec) : Nat → Nat → Nat
  | 0, k => k
  | n + 1, k => if s.memByte x (spillSlot (s.sec x).spillq k) = 0 then s.spillAdvance x n (k + 1) else k
def State.heapAdvance (s : State) (x : Sec) (i : Inst) : Nat → Nat → Nat × State
  | 0, k => (k, s)
  | fuel + 1, k =>
    let r := s.areaGet x i (heapSlot k) 1
    if r.1 = 0 then r.2.heapAdvance x i fuel (k + 1) else (k, r.2)

/-- A record of the spill queue is of type 0, and the head goes on past such records (R406). -/
def State.spillClear (s : State) (x : Sec) (k : Nat) : State :=
  let q := (s.sec x).spillq
  let s := s.writePhys x (spillSlot q k) [0]
  let head := leNat (s.readPhys x (spillBase q) 8)
  let tail := leNat (s.readPhys x (spillBase q + 8) 8)
  s.writePhys x (spillBase q) (leBytes 8 (s.spillAdvance x (min (tail - head) (spillRecords q)) head))

/-- The same for a record of an overflow heap. -/
def State.heapClear (s : State) (x : Sec) (i : Inst) (k : Nat) : State :=
  let s := s.areaPut x i (heapSlot k) 1 0
  let h := s.areaGet x i areaHeap 8
  let t := h.2.areaGet x i (areaHeap + 8) 8
  let a := t.2.heapAdvance x i (t.1 - h.1) h.1
  a.2.areaPut x i areaHeap 8 a.1

/-- Mark a record as used up. -/
def State.killRecord (s : State) (x : Sec) (r : Stored) : State :=
  let s := match r.heap with
    | none => s.spillClear x r.number
    | some uid => match s.inst x uid with
      | some i => s.heapClear x i r.number
      | none => s
  s.modSec x fun c => { c with stored := c.stored.filter fun q => q.heap != r.heap || q.number != r.number }

/-- After an acceptance, what the issuer's earlier messages held back is tried again. -/
def State.nudge (s : State) (a : Actor) : State :=
  let dues := s.flight.filterMap fun f =>
    if f.actor.same a then match f.body with
      | .push _ _ => some (Due.pushAccept f.id)
      | .deposit _ _ _ => some (.depositArrive f.id)
      | .migrate _ => none
    else none
  let waits := s.clusters.flatMap fun e => (e.2.recvInbox ++ e.2.reserveBuf).filterMap fun f =>
    if f.actor.same a then some (Due.depositLand f.id) else none
  (s.postAll (dues ++ waits)).kick (s.runsOn a)

/-- Refused messages of a sector that a test names are offered again (R381, R406). -/
def State.offerAgain (s : State) (x : Sec) (p : Flight → Bool) : State :=
  s.postAll (((s.sec x).refused.filter p).map fun f => Due.backpressureRetry f.id)

/-- An inbox entry has become free: the refused messages are offered again and the heaps replayed (R379, R381). -/
def State.inboxFreed (s : State) (x : Sec) (cl : Fin 96) : State :=
  let s := s.offerAgain x fun f => f.cl == cl
  if (s.sec x).insts.any (·.heapUsed) then s.post (.heapReplay x cl) else s

/-- Change every cluster of a sector that differs from its reset state. -/
def State.modClusters (s : State) (x : Sec) (f : Cluster → Cluster) : State :=
  ((List.range 96).map (Fin.ofNat 96)).foldl (fun s cl =>
    if (Sparse.find s.clusters (clusterKey x cl)).isNone then s else s.modCluster x cl f) s

/-- Take entries that a test names out of the inboxes of a cluster. -/
def Cluster.dropEntries (c : Cluster) (p : Flight → Bool) : Cluster :=
  { c with migInbox := c.migInbox.filter fun f => !p f, recvInbox := c.recvInbox.filter fun f => !p f
           reserveBuf := c.reserveBuf.filter fun f => !p f }

/-- Entries of a sector's inboxes that a test names are discarded; those entries become free (R379, R381). -/
def State.dropEntries (s : State) (x : Sec) (p : Flight → Bool) : State :=
  (((List.range 96).map (Fin.ofNat 96)).filter fun cl =>
    let c := s.cluster x cl
    (c.migInbox ++ c.recvInbox ++ c.reserveBuf).any p).foldl (fun s cl =>
      (s.modCluster x cl fun c => c.dropEntries p).inboxFreed x cl) s

/-- Messages that wait in the inboxes of a sector's clusters. -/
def State.inboxes (s : State) (x : Sec) : List Flight :=
  (s.clusters.filter fun e => e.1 / 96 == x.val).flatMap fun e => e.2.migInbox ++ e.2.recvInbox ++ e.2.reserveBuf

/-- Messages that a test names are discarded wherever they are: on the way, refused, in an inbox, or a record. -/
def State.discard (s : State) (x : Sec) (p : Flight → Bool) : State :=
  let s := ((s.sec x).stored.filter fun r => p r.flight).foldl (fun s r => s.killRecord x r) s
  let s := State.modSec { s with flight := s.flight.filter fun f => !(f.sec == x && p f) } x fun c =>
    { c with refused := c.refused.filter fun f => !p f }
  (s.dropEntries x p).offerAgain x fun _ => true

/-- Deposits kept for a vt that ends are discarded wherever they wait, and count as accepted (R14). -/
def State.dropDeposits (s : State) (x : Sec) (v : VtName) : State :=
  let hit := fun (f : Flight) => f.kept == some v
  let gone := ((s.flight.filter fun f => f.sec == x) ++ (s.sec x).refused ++ s.inboxes x
    ++ (s.sec x).stored.map (·.flight)).filter hit
  if gone.isEmpty then s else gone.foldl (fun s f => s.nudge f.actor) (s.discard x hit)

end Sys2Proof.Machine
end

