-- ==== Sys2Proof/Machine/LoadStore.lean ====
section
/-! DEFINITION. Loads and stores, atomics, and the full/empty instructions (R106, R122 to R126, R143 to R149). -/

namespace Sys2Proof.Machine

/-! ## ld and st (R122 to R126) -/

/-- A loaded value of `n` bytes, zero- or sign-extended (R123). -/
def extend (n : Nat) (unsigned : Bool) (v : Nat) : Word := if unsigned then word v else sextNat (8 * n) v

/-- The effects of an order on a load: an acquire begins a new interval, ORD = 11 takes the read-only path (R124). -/
def State.loadOrder (s : State) (o : MOrd) (ea : Word) (bs : List Byte) : List Byte × State :=
  match o with
  | .rlx => (bs, s)
  | .sector | .package => (bs, s.acquired)
  | .ro => s.readOnlyPath ea bs

def execLd (sm : Bool) (d a : Fin 16) (z : Size) (x : Bool) (o : MOrd) (f : BitVec 12) (s : State) :
    Host.Outcome State Fault Refusal :=
  s.issueImm sm fun s => do
    let base ← s.rdS a
    let ea := s.memEa base z f
    s.acquiring (o == .sector || o == .package)
    let r ← s.load ea (sizeBytes z) (o != .ro)
    let q := r.2.loadOrder o ea r.1
    done (q.2.wrS d (extend (sizeBytes z) x (leNat q.1)))

/-- A deposit is a release, and so is a store with an order: it is accepted after the issuer's earlier accesses (R311);
the deposit itself waits at its register. -/
def execSt (sm : Bool) (d a : Fin 16) (z : Size) (o : MOrd) (f : BitVec 12) (s : State) :
    Host.Outcome State Fault Refusal :=
  s.issueImm sm fun s => do
    let base ← s.rdS a
    let v ← s.rdS d
    s.released (o != .rlx)
    let s ← s.store (s.memEa base z f) (leBytes (sizeBytes z) v.toNat) true (o != .rlx)
    done s

/-! ## Atomics at the bank (R105, R106, R143 to R145) -/

/-- The integer updates: from the operand and the old value, both of `n` bits, to the new value. -/
def atomMin (n x old : Nat) : Nat := if signedOf n x < signedOf n old then x else old
def atomMax (n x old : Nat) : Nat := if signedOf n old < signedOf n x then x else old

/-- An atomic: one update at the home, the old value to S[D]. -/
def State.atom (s : State) (sm : Bool) (d a b : Fin 16) (o : Order) (wide : Bool)
    (f : Nat → Nat → Nat → Nat) : Host.Outcome State Fault Refusal :=
  s.issue sm fun s => do
    noTx s
    let n := if wide then 8 else 4
    let ea ← s.rdS a
    let x ← s.rdS b
    s.released (isRel o)
    s.acquiring (isAcq o)
    let r ← s.atomic ea n fun old => f (8 * n) (x.toNat % 2 ^ (8 * n)) old % 2 ^ (8 * n)
    let s := if isAcq o then r.2.acquired else r.2
    done (s.wrS d (sextNat (8 * n) r.1))

def execAadd (sm : Bool) (d a b : Fin 16) (_c : Scope) (o : Order) (z : Bool) (s : State) :=
  s.atom sm d a b o z fun _ x old => old + x
def execAand (sm : Bool) (d a b : Fin 16) (_c : Scope) (o : Order) (z : Bool) (s : State) :=
  s.atom sm d a b o z fun _ x old => old &&& x
def execAor (sm : Bool) (d a b : Fin 16) (_c : Scope) (o : Order) (z : Bool) (s : State) :=
  s.atom sm d a b o z fun _ x old => old ||| x
def execAxor (sm : Bool) (d a b : Fin 16) (_c : Scope) (o : Order) (z : Bool) (s : State) :=
  s.atom sm d a b o z fun _ x old => old ^^^ x
def execAmin (sm : Bool) (d a b : Fin 16) (_c : Scope) (o : Order) (z : Bool) (s : State) := s.atom sm d a b o z atomMin
def execAmax (sm : Bool) (d a b : Fin 16) (_c : Scope) (o : Order) (z : Bool) (s : State) := s.atom sm d a b o z atomMax
def execAminu (sm : Bool) (d a b : Fin 16) (_c : Scope) (o : Order) (z : Bool) (s : State) :=
  s.atom sm d a b o z fun _ x old => Nat.min x old
def execAmaxu (sm : Bool) (d a b : Fin 16) (_c : Scope) (o : Order) (z : Bool) (s : State) :=
  s.atom sm d a b o z fun _ x old => Nat.max x old
def execAswp (sm : Bool) (d a b : Fin 16) (_c : Scope) (o : Order) (z : Bool) (s : State) :=
  s.atom sm d a b o z fun _ x _ => x
def execAincb (sm : Bool) (d a b : Fin 16) (_c : Scope) (o : Order) (z : Bool) (s : State) :=
  s.atom sm d a b o z fun _ x old => if old < x then old + 1 else old

/-- `acas` compares with S[B] and swaps in S[B+1]. -/
def execAcas (sm : Bool) (d a b : Fin 16) (_c : Scope) (o : Order) (z : Bool) (s : State) :
    Host.Outcome State Fault Refusal :=
  s.issue sm fun s => do
    noTx s
    let n := if z then 8 else 4
    let ea ← s.rdS a
    let x ← s.rdPair b
    s.released (isRel o)
    s.acquiring (isAcq o)
    let r ← s.atomic ea n fun old => if old = x.1.toNat % 2 ^ (8 * n) then x.2.toNat % 2 ^ (8 * n) else old
    let s := if isAcq o then r.2.acquired else r.2
    done (s.wrS d (sextNat (8 * n) r.1))

/-- The FP32 updates of the bank units (R106). -/
def bankFadd (old x : Nat) : Nat := (fp32.add rneRnd old x).1
def bankFmax (old x : Nat) : Nat := (fp32.pick true old x).1

/-- An FP32 atomic: no flags, the old value zero-extended. -/
def State.atomF (s : State) (sm : Bool) (d a b : Fin 16) (o : Order) (f : Nat → Nat → Nat) :
    Host.Outcome State Fault Refusal :=
  s.issue sm fun s => do
    noTx s
    let ea ← s.rdS a
    let x ← s.rdS b
    s.released (isRel o)
    s.acquiring (isAcq o)
    let r ← s.atomic ea 4 fun old => f old (x.toNat % 2 ^ 32)
    let s := if isAcq o then r.2.acquired else r.2
    done (s.wrS d (word r.1))

def execAfadd (sm : Bool) (d a b : Fin 16) (_c : Scope) (o : Order) (s : State) := s.atomF sm d a b o bankFadd
def execAfmax (sm : Bool) (d a b : Fin 16) (_c : Scope) (o : Order) (s : State) := s.atomF sm d a b o bankFmax

/-! ## Full/empty words (R146 to R148) -/

/-- The word or group of a full/empty form (R146, R147): ADR outside the scratchpad and register windows, then
alignment, then REMR outside the own scratchpad. -/
def State.fePlace (s : State) (x : Sec) (i : Fin 6144) (ea : Word) (n : Nat) : Except Stop (Fin 96 × Nat) := do
  let p ← s.place ea n
  match p with
  | .app _ => fault (fltAt cADR 0 ea.toNat)
  | .peer _ _ => fault (fltAt cADR 0 ea.toNat)
  | .reg _ _ => do
    aligned ea n
    fault (fltAt cREMR 0 ea.toNat)
  | .spad cl off => do
    aligned ea n
    if clusterOf i.val = cl ∧ secOf s.cur = x then .ok (cl, off) else fault (fltAt cREMR 0 ea.toNat)

/-- A context parked on the word before comes first, although the word's state allows its form: it waits for a watermark
(R24, R148). -/
def State.feBehind (s : State) (x : Sec) (cl : Fin 96) (off : Nat) : Bool := (s.feNext x cl off).isSome

/-- Park on a word. -/
def State.feStop (s : State) (x : Sec) (cl : Fin 96) (off : Nat) (k : FeKind) (d : Fin 16) : Stop :=
  .park (.fe (spadWord x cl off) k d (s.cluster x cl).parkOrder)

/-- `ldfe` and `ldff` at a word: an acquire. -/
def State.feLoad (s : State) (sm : Bool) (d a : Fin 16) (k : FeKind) : Host.Outcome State Fault Refusal :=
  s.issue sm fun s => do
    let me ← threadOnly s
    let ea ← s.rdS a
    let p ← s.fePlace me.1 me.2 ea 8
    s.acquiring true
    if !s.spadFull me.1 p.1 p.2 || s.feBehind me.1 p.1 p.2 then .error (s.feStop me.1 p.1 p.2 k d)
    else
      let bs ← s.spadLoad me.1 p.1 p.2 8 ea.toNat
      let s := if k = .ldfe then s.setFull me.1 p.1 p.2 false else s
      done (s.acquired.wrS d (word (leNat bs)))

def execLdfe (sm : Bool) (d a : Fin 16) (s : State) := s.feLoad sm d a .ldfe
def execLdff (sm : Bool) (d a : Fin 16) (s : State) := s.feLoad sm d a .ldff

/-- `stfe` waits for an empty word; its fill is a release. -/
def execStfe (sm : Bool) (d a : Fin 16) (s : State) : Host.Outcome State Fault Refusal :=
  s.issue sm fun s => do
    let me ← threadOnly s
    let ea ← s.rdS a
    let v ← s.rdS d
    let p ← s.fePlace me.1 me.2 ea 8
    s.released true
    if s.spadFull me.1 p.1 p.2 then .error (s.feStop me.1 p.1 p.2 .stfe d)
    else done (s.spadWrite me.1 p.1 p.2 (leBytes 8 v.toNat))

/-- `stef` never waits for the word. -/
def execStef (sm : Bool) (d a : Fin 16) (s : State) : Host.Outcome State Fault Refusal :=
  s.issue sm fun s => do
    let me ← threadOnly s
    let ea ← s.rdS a
    let v ← s.rdS d
    let p ← s.fePlace me.1 me.2 ea 8
    s.released true
    done (s.spadWrite me.1 p.1 p.2 (leBytes 8 v.toNat))

/-- Empty the words of a group that a mask selects. -/
def State.emptyGroup (s : State) (x : Sec) (cl : Fin 96) (off : Nat) (m : Word) : State :=
  ((List.range 64).filter fun i => bitAt m i).foldl (fun s i => s.setFull x cl (off + 8 * i) false) s

def execFen (sm : Bool) (a b : Fin 16) (s : State) : Host.Outcome State Fault Refusal :=
  s.issue sm fun s => do
    let me ← threadOnly s
    let ea ← s.rdS a
    let m ← s.rdS b
    let p ← s.fePlace me.1 me.2 ea 512
    done (s.emptyGroup me.1 p.1 p.2 m)

/-- The full bits of a group. -/
def State.groupBits (s : State) (x : Sec) (cl : Fin 96) (off : Nat) : Word :=
  word ((List.range 64).foldl (fun a i => a + (s.spadFull x cl (off + 8 * i)).toNat * 2 ^ i) 0)

def execFstat (sm : Bool) (d a : Fin 16) (s : State) : Host.Outcome State Fault Refusal :=
  s.issue sm fun s => do
    let me ← threadOnly s
    let ea ← s.rdS a
    let p ← s.fePlace me.1 me.2 ea 512
    done (s.wrS d (s.groupBits me.1 p.1 p.2))

/-- The deposit that waits at a register of a context's vt and lands next: the first that reached the cluster (R14). -/
def State.depositDue (s : State) (x : Sec) (i : Fin 6144) (r : Fin 16) : Option Nat :=
  let c := s.cluster x (clusterOf i.val)
  (firstArrived ((c.recvInbox ++ c.reserveBuf).filter fun f => f.kept == s.vtAt x i.val && match f.body with
    | .deposit c q _ => c == i && q == r
    | _ => false)).map (·.id)

/-- Refused deposits to a register of an agent are offered again (R381). -/
def State.offerDeposits (s : State) (x : Sec) (i : Fin 6144) (r : Fin 16) : State :=
  s.postAll ((s.sec x).refused.filterMap fun f => match f.body with
    | .deposit c q _ => if c = i ∧ q = r then some (.backpressureRetry f.id) else none
    | _ => none)

/-- `remp` (R149): with no write outstanding the register becomes empty, and a waiting deposit is due. -/
def execRemp (sm : Bool) (d : Fin 16) (s : State) : Host.Outcome State Fault Refusal :=
  s.issue sm fun s => do
    let me ← threadOnly s
    if (s.me.s.get d).claimed then .error (.interlock (.result d))
    else
      let s' := s.modMe fun h =>
        { h with s := h.s.set d.val ⟨(h.s.get d).val, false, false⟩ d.isLt, unread := h.unread.filter (· ≠ d) }
      match s'.depositDue me.1 me.2 d with
      | some id => done (s'.post (.depositLand id))
      | none => done (s'.offerDeposits me.1 me.2 d)

end Sys2Proof.Machine
end

