-- ==== Sys2Proof/Machine/Engine.lean ====
section
/-! DEFINITION. What the units that run commands share: accesses made for a job, the checks of operands at issue, and
the creation of jobs (R216, R217, R239, R266, R274, R305). -/

namespace Sys2Proof.Machine

/-! ## Accesses of a job (R217, R276, R305, R390) -/

/-- The instance of a command's vt. -/
def State.actInst (s : State) (a : Actor) : Option Inst := a.vt.bind fun v => s.inst (secOf a.agent) v.uid

/-- How an access of a job is checked. An NC page admits no unit (R343). -/
def State.actAcc (s : State) (a : Actor) (kind : AccKind) (plain : Bool) : Acc :=
  { kind := kind, app := !a.sys, nc := false
    race := match s.actInst a with
      | some i => if plain && i.chk then a.vt else none
      | none => none }

/-- A range that a job of a vt accesses must lie in a lease of its instance (R347). -/
def State.actLease (s : State) (a : Actor) (va n : Nat) : Except Flt Unit :=
  match a.vt with
  | none => .ok ()
  | some _ => match s.actInst a with
    | some i => if leaseHolds i.leases va n then .ok () else .error (fltAt cLSE subOutside va)
    | none => .error (fltAt cLSE subOutside va)

/-- An access of a unit at a line aborts the transactions that it conflicts with (R174). -/
def State.conflictUnit (s : State) (k : Nat) (write : Bool) : State :=
  let m := s.marksOf k
  s.abortAll (m.writer.toList ++ if write then m.readers else []) txConflict

/-- The same at every line of a range. -/
def State.conflictRange (s : State) (x : Sec) (asid : BitVec 16) (va n : Nat) (write : Bool) : State :=
  (chunks va n).foldl (fun s c => s.conflictUnit (lineKey x asid c.1) write) s

/-- An access of a unit waits for a way of a full LLC set (R331): no cause, and the unit tries it again. -/
def Flt.waits (f : Flt) : Bool := f.cause == 0

/-- Read a range of application space for a job. -/
def State.actRead (s : State) (a : Actor) (va n : Nat) (plain : Bool) : Except Flt (List Byte × State) := do
  s.actLease a va n
  let x := secOf a.agent
  match (s.conflictRange x a.asid va n false).readHome x a.asid va n (s.actAcc a .read plain) with
  | .ok r => .ok r
  | .error (e, va) => .error (homeFlt (isMaster a.agent) .read e va)

/-- Write a range of application space for a job. -/
def State.actWrite (s : State) (a : Actor) (va : Nat) (bs : List Byte) (plain : Bool) : Except Flt State := do
  s.actLease a va bs.length
  let x := secOf a.agent
  match (s.conflictRange x a.asid va bs.length true).writeHome x a.asid va bs (s.actAcc a .write plain) with
  | .ok t => .ok t
  | .error (e, va) => .error (homeFlt (isMaster a.agent) .write e va)

/-- Read a range behind a peer window for a job (R357). -/
def State.actPeerRead (s : State) (a : Actor) (slot off n ea : Nat) (plain : Bool) :
    Except Flt (List Byte × State) :=
  match s.peerCheck (secOf a.agent) slot off n .read with
  | .error sub => .error (fltAt cPEER sub ea)
  | .ok (y, asid, va) =>
    match (s.conflictRange y asid va n false).readHome y asid va n (s.actAcc a .read plain) with
    | .ok r => .ok r
    | .error (e, at_) => .error (peerErr (isMaster a.agent) .read e (ea + (at_ - va)))

/-- Write a range behind a peer window for a job (R357). -/
def State.actPeerWrite (s : State) (a : Actor) (slot off ea : Nat) (bs : List Byte) (plain : Bool) :
    Except Flt State :=
  match s.peerCheck (secOf a.agent) slot off bs.length .write with
  | .error sub => .error (fltAt cPEER sub ea)
  | .ok (y, asid, va) =>
    match (s.conflictRange y asid va bs.length true).writeHome y asid va bs (s.actAcc a .write plain) with
    | .ok t => .ok t
    | .error (e, at_) => .error (peerErr (isMaster a.agent) .write e (ea + (at_ - va)))

/-- Read application space or a peer window for a job. -/
def State.jobRead (s : State) (a : Actor) (ea n : Nat) : Except Flt (List Byte × State) := do
  match ← placeOf a.agent ea n with
  | .app va => s.actRead a va n true
  | .peer slot off => s.actPeerRead a slot off n ea true
  | _ => .error (fltAt cADR 0 ea)

/-- Write application space or a peer window for a job. -/
def State.jobWrite (s : State) (a : Actor) (ea : Nat) (bs : List Byte) : Except Flt State := do
  match ← placeOf a.agent ea bs.length with
  | .app va => s.actWrite a va bs true
  | .peer slot off => s.actPeerWrite a slot off ea bs true
  | _ => .error (fltAt cADR 0 ea)

/-- The offset that an address of the own scratchpad names (R46): alias and window entry alike. -/
def spadOff (ea : Nat) : Nat := ea % 0x400000

/-- A unit reads bytes of its cluster's scratchpad; a lasting error raises MCE (R408). -/
def State.engRead (s : State) (x : Sec) (cl : Fin 96) (ea n : Nat) : Except Flt (List Byte) :=
  if s.spadBad x cl (spadOff ea) n then .error (fltAt cMCE 1 ea) else .ok (s.spadBytes x cl (spadOff ea) n)

/-! ## Operands at issue (R239, R274) -/

/-- The faults of an operand that must lie in the own scratchpad or, if `app`, in application space. -/
def ownOperand (g : Agent) (ea n align : Nat) (app : Bool) : List Flt :=
  (match placeOf g ea (max n 1) with
  | .error f => [f]
  | .ok (.spad cl _) => if clusterOfAgent g = some cl then [] else [fltAt cREMR 0 ea]
  | .ok (.app _) => if app then [] else [fltAt cADR 0 ea]
  | .ok _ => [fltAt cADR 0 ea]) ++ if ea % align = 0 then [] else [fltAt cALN 0 ea]

/-- Fault with the reported one of a list, if it holds any. -/
def checkAll (fs : List Flt) : Except Stop Unit :=
  match reported fs with
  | some f => fault f
  | none => .ok ()

/-- The result of a step of the instruction that can fault or stop otherwise, as faults, a stop and a value. -/
def settle {α : Type} (d : α) (r : Except Stop α) : List Flt × Option Stop × α :=
  match r with
  | .ok a => ([], none, a)
  | .error (.flt f) => ([f], none, d)
  | .error e => ([], some e, d)

/-- Stop if there is a reason to. -/
def stopIf (p : Option Stop) : Except Stop Unit :=
  match p with
  | some e => .error e
  | none => .ok ()

/-- Wait if there is a reason to; a park comes after the checks, and any other wait before them. -/
def waitIf (p : Option Stop) : Except Stop Unit :=
  match p with
  | some (.park _) => .ok ()
  | p => stopIf p

end Sys2Proof.Machine
end

