-- ==== Sys2Proof/Machine/Matrix.lean ====
section
/-! DEFINITION. The matrix instructions as their contexts issue them (R215 to R240): configuration, the checks at issue,
the queueing of commands, and the tile predicates. -/

namespace Sys2Proof.Machine

/-! ## The configuration (R222, R223) -/

/-- SHP subcauses of this group (R239, R265). -/
def subCfg : Nat := 0x21
def subOpnd : Nat := 0x22
def subRec : Nat := 0x23
def subTile : Nat := 0x24
def subNocfg : Nat := 0x25
def subPgm : Nat := 0x26
def subNobind : Nat := 0x27

/-- The fields of a configuration. -/
structure MxShape where
  af : Nat
  bf : Nat
  int : Bool
  ta : Bool
  tb : Bool
  k : Nat
  m : Nat
  n : Nat
  astr : Nat
  bstr : Nat
  deriving DecidableEq, Repr

/-- Take a configuration and a stride word apart. -/
def mxShape (c : Word × Word) : MxShape :=
  { af := bitsOf c.1 0 4, bf := bitsOf c.1 4 4, int := bitAt c.1 8, ta := bitAt c.1 9, tb := bitAt c.1 10
    k := if bitAt c.1 11 then 128 else 64, m := bitsOf c.1 12 7 + 1, n := bitsOf c.1 19 7 + 1
    astr := bitsOf c.2 0 24, bstr := bitsOf c.2 24 24 }

/-- The class of a format tag (R101); absent for one that no operand may have. -/
def mxClass (t : Nat) : Option Nat :=
  if t = 1 then some 0
  else if t = 8 ∨ t = 9 then some 1
  else if 10 ≤ t ∧ t ≤ 13 then some 2
  else none

/-- Bits of an element of a format tag. -/
def elemBits (t : Nat) : Nat :=
  if t = 8 ∨ t = 9 ∨ t = 3 then 16 else if t = 12 then 4 else if t = 7 ∨ t = 4 then 32 else if t = 5 ∨ t = 6 then 64 else 8

/-- The block formats. -/
def blockTag (t : Nat) : Bool := t == 12 || t == 13

/-- A stored row of a stride (R223). -/
def strideOk (stride rowBytes : Nat) : Bool :=
  stride % 64 == 0 && decide (stride ≤ 0x200000) && decide (rowBytes ≤ stride)

/-- Bytes of a run of elements. -/
def elemBytes (t n : Nat) : Nat := n * elemBits t / 8

/-- A configuration is legal (R223). -/
def mxLegal (c : Word × Word) : Bool :=
  let h := mxShape c
  bitsOf c.1 26 38 == 0 && bitsOf c.2 48 16 == 0
    && (mxClass h.af).isSome && mxClass h.af == mxClass h.bf && h.int == (mxClass h.af == some 0)
    && !(blockTag h.af && h.ta) && !(blockTag h.bf && !h.tb)
    && strideOk h.astr (elemBytes h.af (if h.ta then h.m else h.k))
    && strideOk h.bstr (elemBytes h.bf (if h.tb then h.k else h.n))

/-- Make both accumulators of a context not live and free the slots that hold them (R224, R226, R228). -/
def State.dropAccs (s : State) (x : Sec) (i : Nat) : State :=
  let me := s.slotOwner x i
  (s.modCtx x i fun c => { c with accLive := Vector.replicate 2 false }).freeOwnedAccs x fun o => some o = me

/-- The configuration changes the shape of a live accumulator (R224). -/
def reshapes (old new : Word × Word) : Bool :=
  let a := mxShape old
  let b := mxShape new
  a.int != b.int || a.m != b.m || a.n != b.n

def execMxcfg (sm : Bool) (a : Fin 16) (x : Bool) (s : State) : Host.Outcome State Fault Refusal :=
  s.issue sm fun s => do
    let me ← threadOnly s
    noTx s
    let c ← s.rdPair a
    if s.mxBusy s.cur then .error (.park .commands)
    else
      require (mxLegal c) (flt cSHP subCfg)
      let s := s.engAwaited false
      let own := s.ctx me.1 me.2.val
      let live := own.accLive.toList.any id
      let set := fun (s : State) => s.modCtx me.1 me.2.val fun q => { q with mxcfg := some c, accInt := (mxShape c).int }
      if x then done (set (s.dropAccs me.1 me.2.val))
      else match own.mxcfg with
        | none => done (set s)
        | some old => if live && reshapes old c then fault (flt cACC 0) else done (set s)

/-! ## Queueing a command (R215, R232) -/

/-- The bit that a predicated command reads (R232). -/
def State.mxPred (s : State) (d : Fin 16) (q : Fin 4) (p : Bool) : Except Stop Bool :=
  if !p then .ok true
  else do
    let i ← s.rdS d
    let v ← s.rdQ q
    .ok (v.getLsbD (i.toNat % 128))

/-- A command without operands. -/
def State.mxCmd (s : State) (op : MxOp) (n : Bool) (c : Word × Word) (a : Actor) : MxCmd :=
  { op := op, actor := a, n := if n then 1 else 0, z := false, a := 0, a2 := 0, b := 0, b2 := 0, fmt := 0, cfg := c
    fmode := s.me.fmode, seed := s.me.srseed, rows := [], shape := [], slot := none, left := none, blocks := []
    ranks := [], bind_ := none, wait := none, enumerated := false, flt := none }

/-- Accept a command into the queue of the context's core (R215): a full queue parks, and the job's identifier is the
result. The command keeps the context's Cirrus binding, under which it is issued (R260). -/
def State.submit (s : State) (x : Sec) (i : Fin 6144) (d : Fin 16) (c : Actor → MxCmd) : Except Stop (State × Next) := do
  let cl := clusterOf i.val
  let co := coreOf i.val
  if 4 ≤ ((s.cluster x cl).mx.get co).length then .error (.park (.queue .engine))
  else
    let s ← s.jobRoom
    let r := s.newJob true
    let cmd := { c r.1 with bind_ := (s.ctx x i.val).cirrus }
    let s := r.2.modCluster x cl fun k => { k with mx := k.mx.set co.val (k.mx.get co ++ [cmd]) co.isLt }
    done ((s.post (.engineStep x cl)).wrS d (word r.1.job))

/-- Bind the context to its core's accumulators (R18). -/
def State.bindAcc (s : State) (x : Sec) (i : Fin 6144) : State := s.modCtx x i.val fun c => { c with accBound := true }

/-- A command whose predicate is false: its job is complete and nothing else happens (R232). It does not bind the
context to its accumulators (DESIGN CHOICE, log entry 107). -/
def State.falseCommand (s : State) (x : Sec) (d : Fin 16) : Except Stop (State × Next) := do
  let s ← s.jobRoom
  let r := s.newJob false
  done ((r.2.endJob x r.1 1 0 none).wrS d (word r.1.job))

/-! ## mxzero, mxrel, mxsave, mxrest (R226, R228, R229) -/

def execMxzero (sm : Bool) (d : Fin 16) (n : Bool) (s : State) : Host.Outcome State Fault Refusal :=
  s.issue sm fun s => do
    let me ← threadOnly s
    noTx s
    (s.bindAcc me.1 me.2).submit me.1 me.2 d (s.mxCmd .zero n (0, 0))

def execMxrel (sm : Bool) (s : State) : Host.Outcome State Fault Refusal :=
  s.issue sm fun s => do
    let me ← threadOnly s
    noTx s
    if s.mxBusy s.cur then .error (.park .commands)
    else done (((s.engAwaited false).dropAccs me.1 me.2.val).modCtx me.1 me.2.val fun c => { c with accBound := false })

/-- The common part of `mxsave` and `mxrest`. -/
def State.mxImage (s : State) (sm : Bool) (d a : Fin 16) (n : Bool) (op : MxOp) : Host.Outcome State Fault Refusal :=
  s.issue sm fun s => do
    let me ← threadOnly s
    noTx s
    let ea ← s.rdS a
    checkAll (ownOperand s.cur ea.toNat 65536 128 true)
    (s.bindAcc me.1 me.2).submit me.1 me.2 d fun act => { s.mxCmd op n (0, 0) act with a := ea }

def execMxsave (sm : Bool) (d a : Fin 16) (n : Bool) (s : State) : Host.Outcome State Fault Refusal :=
  s.mxImage sm d a n .save

def execMxrest (sm : Bool) (d a : Fin 16) (n : Bool) (s : State) : Host.Outcome State Fault Refusal :=
  s.mxImage sm d a n .rest

/-! ## Multiply forms (R230 to R239) -/

/-- The extent of a dense operand: rows, bytes of a row, stride. -/
def denseExtent (rows rowBytes stride : Nat) : Nat := (rows - 1) * stride + rowBytes

/-- The faults of a dense A, with its side array. -/
def aFaults (g : Agent) (h : MxShape) (a a2 : Nat) : List Flt :=
  ownOperand g a (denseExtent (if h.ta then h.k else h.m) (elemBytes h.af (if h.ta then h.m else h.k)) h.astr) 64 false
    ++ if blockTag h.af then ownOperand g a2 (2 * (h.m * (h.k / 32))) 2 false else []

/-- The faults of a dense B, with its side array. -/
def bFaults (g : Agent) (h : MxShape) (b b2 : Nat) : List Flt :=
  ownOperand g b (denseExtent (if h.tb then h.n else h.k) (elemBytes h.bf (if h.tb then h.k else h.n)) h.bstr) 64 false
    ++ if blockTag h.bf then ownOperand g b2 (2 * (h.n * (h.k / 32))) 2 false else []

/-- The index list of a gathered A, read at issue (R230), an acquire in an open channel (R324); it names no row while it
cannot be read. -/
def State.readIndexList (s : State) (h : MxShape) (a2 : Nat) : List Flt × Option Stop × List Nat × State :=
  match ownOperand s.cur a2 (2 * h.m) 2 false with
  | [] => settle ([], s) do
      let me ← threadOnly s
      let r ← s.ownRead me.1 (clusterOf me.2.val) (spadOff a2) (2 * h.m) a2
      .ok ((List.range h.m).map fun k => leNat (slice r.1 (2 * k) 2), r.2)
  | fs => (fs, none, [], s)

/-- The faults of a gathered A: its table's rows and its format (R230). -/
def gatherFaults (g : Agent) (h : MxShape) (a : Nat) (rows : List Nat) : List Flt :=
  ownOperand g a 1 64 false
    ++ (rows.flatMap fun r => if r = 0xFFFF then [] else ownOperand g (a + r * h.astr) (elemBytes h.af h.k) 1 false)
    ++ if blockTag h.af || h.ta then [flt cSHP subOpnd] else []

/-! ### Shape records (R235) -/

/-- The fields of a shape record. -/
structure Rec where
  base : Nat
  r : Nat
  c : Nat
  stride : Nat
  fmt : Nat
  kind : Nat
  slot : Nat
  side : Nat
  par0 : Nat
  par1 : Nat
  nmn : Nat
  nmm : Nat
  nme : Nat
  meta_ : Nat
  res0 : Bool
  deriving DecidableEq, Repr

/-- Take the eight words of a record apart. -/
def shapeRec (ws : List Nat) : Rec :=
  let f := fun (i lo n : Nat) => ws.getD i 0 / 2 ^ lo % 2 ^ n
  { base := f 0 0 64, r := f 1 0 32, c := f 1 32 32, stride := f 2 0 24, fmt := f 2 24 4, kind := f 2 28 2
    slot := f 2 30 3, side := f 3 0 64, par0 := f 4 0 32, par1 := f 4 32 32, nmn := f 5 0 4, nmm := f 5 4 4
    nme := f 5 8 2, meta_ := f 6 0 64, res0 := f 2 33 31 == 0 && f 5 10 54 == 0 && f 7 0 64 == 0 }

/-- The record as the issuing instruction reads it. -/
def State.readShape (s : State) (b : Word) : List Flt × Option Stop × Option (List Nat × State) :=
  match ownOperand s.cur b.toNat 64 64 true with
  | [] => settle none do
      let r ← s.load b 64 true
      .ok (some ((List.range 8).map fun k => leNat (slice r.1 (8 * k) 8), r.2))
  | fs => (fs, none, none)

/-- An address in the own scratchpad. -/
def inOwnSpad (g : Agent) (ea : Nat) : Bool :=
  match placeOf g ea 1 with
  | .ok (.spad cl _) => clusterOfAgent g == some cl
  | _ => false

/-- Rows and columns in units of 16 elements (R235). -/
def recDim (n : Nat) : Bool := n % 16 == 0 && decide (16 ≤ n) && decide (n ≤ 65536)

/-- The limits of a record (R235): REC. Those of NMM and of the word at +48 hold for every kind (DEDUCED, log entry 58).
-/
def recOk (g : Agent) (h : MxShape) (q : Rec) (bound : Option (Fin 8)) : Bool :=
  q.res0 && q.kind != 3 && q.fmt == h.bf && q.nme != 3 && decide (1 ≤ q.nmm) && decide (q.nmm ≤ 8)
    && recDim q.r && recDim q.c && q.base % 64 == 0 && inOwnSpad g q.base && q.meta_ % 64 == 0 && inOwnSpad g q.meta_
    && match q.kind with
      | 0 => strideOk q.stride (elemBytes q.fmt q.c)
      | 1 => !blockTag q.fmt && (8 ≤ q.fmt && q.fmt ≤ 11 || q.fmt == 1) && !h.tb && q.r % (16 * q.nmm) == 0
      | _ => !blockTag q.fmt && (8 ≤ q.fmt && q.fmt ≤ 11 || q.fmt == 1) && q.nme == 0
        && (bound.map (·.val)) == some q.slot

/-- The tile origin (R235): TILE. -/
def tileOk (h : MxShape) (q : Rec) (k0 n0 : Nat) : Bool :=
  k0 % 16 == 0 && n0 % 16 == 0
    && decide (k0 + h.k ≤ if h.tb then q.c else q.r) && decide (n0 + h.n ≤ if h.tb then q.r else q.c)
    && !(q.kind == 0 && blockTag q.fmt && k0 % 32 != 0)
    && !(q.kind == 1 && (k0 % (16 * q.nmm) != 0 || h.k % (16 * q.nmm) != 0))

/-- SHP of a record (R235, R239), in the order NOBIND, REC. -/
def recFault (g : Agent) (h : MxShape) (q : Rec) (bound : Option (Fin 8)) : Option Flt :=
  if q.kind = 2 ∧ bound.isNone then some (flt cSHP subNobind)
  else if !recOk g h q bound then some (flt cSHP subRec)
  else none

/-- Bytes of a stored block of the N:M kind (R236). -/
def nmBlockBytes (q : Rec) : Nat := elemBytes q.fmt (16 * if q.nme = 0 then 16 else 8)

/-- Element metadata of the N:M kind starts here (R236). -/
def nmElemMeta (q : Rec) : Nat := roundUp (q.meta_ + 8 * (q.c / 16) * (q.r / (16 * q.nmm))) 64

/-- The last group of a tile in the order of the metadata (R236). -/
def nmLastGroup (h : MxShape) (q : Rec) (k0 n0 : Nat) : Nat :=
  ((n0 + h.n - 1) / 16) * (q.r / (16 * q.nmm)) + (k0 + h.k) / (16 * q.nmm) - 1

/-- The extents of a tile (R239): a dense tile's rows and side bytes, an N:M tile's metadata and blocks. -/
def tileFaults (g : Agent) (h : MxShape) (q : Rec) (org : Word) : List Flt :=
  let k0 := bitsOf org 0 32
  let n0 := bitsOf org 32 32
  match q.kind with
  | 0 =>
    let r0 := if h.tb then n0 else k0
    let c0 := if h.tb then k0 else n0
    let rows := if h.tb then h.n else h.k
    let cols := if h.tb then h.k else h.n
    ownOperand g q.base (r0 * q.stride + elemBytes q.fmt c0 + denseExtent rows (elemBytes q.fmt cols) q.stride) 64 false
      ++ if blockTag q.fmt then
        ownOperand g q.side (2 * ((n0 + h.n - 1) * (q.c / 32) + k0 / 32 + h.k / 32)) 2 false else []
  | 1 =>
    let e := nmLastGroup h q k0 n0 + 1
    ownOperand g q.meta_ (8 * e) 1 false
      ++ (if 1 ≤ q.nmn ∧ q.nmn ≤ q.nmm then ownOperand g q.base (e * q.nmn * nmBlockBytes q) 1 false
        ++ (if q.nme = 0 then [] else ownOperand g (nmElemMeta q) (64 * (e * q.nmn)) 1 false) else [])
  | _ => []

/-- The second register of a pair, read only when the form uses it (R221). -/
def State.rdSecond (s : State) (a : Fin 16) (used : Bool) : Except Stop Word :=
  if used then s.rdS (succ16 a) else .ok 0

/-- The faults and values of B's side of a multiply: dense, or by a shape record. A record that breaks a limit names no
operand (R446), and one that keeps them has its tile's extents checked beside the tile origin (R239; DEDUCED, log entry
108). -/
def State.bSide (s : State) (h : MxShape) (sparse : Bool) (b b2 : Word) (bound : Option (Fin 8)) :
    List Flt × Option Stop × List Nat × State :=
  if !sparse then (bFaults s.cur h b.toNat b2.toNat, none, [], s)
  else match s.readShape b with
    | (fs, p, none) => (fs, p, [], s)
    | (_, _, some (ws, t)) =>
      let q := shapeRec ws
      match recFault s.cur h q bound with
      | some f => ([f], none, [], s)
      | none =>
        (tileFaults s.cur h q b2
          ++ (if tileOk h q (bitsOf b2 0 32) (bitsOf b2 32 32) then [] else [flt cSHP subTile]), none, ws, t)

/-- Without a configuration only the operands' start addresses are checked (R239), that of an index list among them. -/
def startFaults (g : Agent) (a b : Nat) (list : Option Nat) (sparse : Bool) : List Flt :=
  ownOperand g a 1 64 false ++ (match list with
    | some l => ownOperand g l 1 2 false
    | none => []) ++ ownOperand g b 1 64 sparse ++ [flt cSHP subNocfg]

/-- The four multiply forms (R231). -/
def State.multiply (s : State) (sm : Bool) (op : MxOp) (gather sparse : Bool) (d a b : Fin 16) (q : Fin 4)
    (p z n : Bool) : Host.Outcome State Fault Refusal :=
  s.issue sm fun s => do
    let me ← threadOnly s
    noTx s
    let on ← s.mxPred d q p
    if !on then s.falseCommand me.1 d
    else
      let a1 ← s.rdS a
      let b1 ← s.rdS b
      let own := s.ctx me.1 me.2.val
      match own.mxcfg with
      | none => do
        let l ← s.rdSecond a gather
        checkAll (startFaults s.cur a1.toNat b1.toNat (if gather then some l.toNat else none) sparse)
        done s
      | some cfg => do
        let h := mxShape cfg
        let a2 ← s.rdSecond a (gather || blockTag h.af)
        let b2 ← s.rdSecond b (sparse || blockTag h.bf)
        let ix := if gather then s.readIndexList h a2.toNat else ([], none, [], s)
        let fa := if gather then gatherFaults s.cur h a1.toNat ix.2.2.1 else aFaults s.cur h a1.toNat a2.toNat
        let rb := ix.2.2.2.bSide h sparse b1 b2 own.cirrus
        waitIf ix.2.1
        waitIf rb.2.1
        checkAll (ix.1 ++ fa ++ rb.1)
        stopIf ix.2.1
        stopIf rb.2.1
        let s := rb.2.2.2
        let snap := if sparse && (shapeRec rb.2.2.1).kind == 2 then
          own.cirrus.map fun k => (s.cluster me.1 (clusterOf me.2.val)).cirrus.get k else none
        (s.bindAcc me.1 me.2).submit me.1 me.2 d fun act =>
          { s.mxCmd op n cfg act with
            z := z, a := a1, a2 := a2, b := b1, b2 := b2, rows := ix.2.2.1, shape := rb.2.2.1, slot := snap
            enumerated := !sparse || (shapeRec rb.2.2.1).kind == 0 }

def execMxmm (sm : Bool) (d a b : Fin 16) (q : Fin 4) (p z n : Bool) (s : State) : Host.Outcome State Fault Refusal :=
  s.multiply sm .mm false false d a b q p z n
def execMxmmg (sm : Bool) (d a b : Fin 16) (q : Fin 4) (p z n : Bool) (s : State) : Host.Outcome State Fault Refusal :=
  s.multiply sm .mmg true false d a b q p z n
def execMxmms (sm : Bool) (d a b : Fin 16) (q : Fin 4) (p z n : Bool) (s : State) : Host.Outcome State Fault Refusal :=
  s.multiply sm .mms false true d a b q p z n
def execMxmmgs (sm : Bool) (d a b : Fin 16) (q : Fin 4) (p z n : Bool) (s : State) : Host.Outcome State Fault Refusal :=
  s.multiply sm .mmgs true true d a b q p z n

/-! ## Results (R233, R234) -/

/-- The address of the scratchpad alias (R46). -/
def spadAlias : Nat := 0xFF40000000000000

/-- The output format is allowed for the accumulator (R233). -/
def storeFormatOk (op : MxOp) (h : MxShape) (f : Nat) : Bool :=
  match op with
  | .st => if h.int then f == 4 || f == 3 || f == 1 else decide (7 ≤ f) && decide (f ≤ 11)
  | .stq => blockTag f && !h.int && h.n % 32 == 0
  | _ => !h.int

/-- The bytes of a stored row of an output in a format that is allowed or not; a code that names no element width counts
a byte (R239; DESIGN CHOICE, log entry 108). -/
def outRowBytes (f n : Nat) : Nat := if 1 ≤ f ∧ f ≤ 13 then elemBytes f n else 1

/-- The faults of an output or of factors (R233, R234, R239). -/
def outFaults (g : Agent) (op : MxOp) (h : MxShape) (f : Nat) (a : Nat) (a2 : Word) : List Flt :=
  let ok := storeFormatOk op h f
  (match op with
  | .scale => ownOperand g a (4 * h.m) 4 false
  | _ => ownOperand g a (denseExtent h.m (outRowBytes f h.n) (bitsOf a2 0 24)) 64 false)
  ++ (match op with
  | .stq => ownOperand g (spadAlias + bitsOf a2 32 32) (2 * (h.m * h.n / 32)) 2 false
  | _ => []) ++ if ok then [] else [flt cSHP subOpnd]

/-- The seed behind `n` steps of the generator (R94). -/
def seedAfter (seed : Word) : Nat → Word
  | 0 => seed
  | n + 1 => seedAfter (srNext seed).1 n

/-- A store under SR advances the seed at issue (R233). -/
def State.advanceSeed (s : State) (op : MxOp) (h : MxShape) : State :=
  if rmOf s.me.fmode = .sr ∧ op ≠ .scale ∧ !h.int then s.modMe fun r => { r with srseed := seedAfter r.srseed (h.m * h.n) }
  else s

/-- The three MXO forms. -/
def State.mxOut (s : State) (sm : Bool) (op : MxOp) (d a : Fin 16) (f : Nat) (q : Fin 4) (p n : Bool) :
    Host.Outcome State Fault Refusal :=
  s.issue sm fun s => do
    let me ← threadOnly s
    noTx s
    let on ← s.mxPred d q p
    if !on then s.falseCommand me.1 d
    else
      let a1 ← s.rdS a
      let a2 ← s.rdSecond a (op != .scale)
      match (s.ctx me.1 me.2.val).mxcfg with
      | none => do
        checkAll (ownOperand s.cur a1.toNat 1 (if op = .scale then 4 else 64) false
          ++ (if op = .stq then ownOperand s.cur (spadAlias + bitsOf a2 32 32) 1 2 false else [])
          ++ [flt cSHP subNocfg])
        done s
      | some cfg => do
        let h := mxShape cfg
        checkAll (outFaults s.cur op h f a1.toNat a2)
        ((s.bindAcc me.1 me.2).advanceSeed op h).submit me.1 me.2 d fun act =>
          { s.mxCmd op n cfg act with a := a1, a2 := a2, fmt := f }

def execMxst (sm : Bool) (d a : Fin 16) (f : BitVec 4) (q : Fin 4) (p n : Bool) (s : State) :
    Host.Outcome State Fault Refusal :=
  s.mxOut sm .st d a f.toNat q p n
def execMxstq (sm : Bool) (d a : Fin 16) (f : BitVec 4) (q : Fin 4) (p n : Bool) (s : State) :
    Host.Outcome State Fault Refusal :=
  s.mxOut sm .stq d a f.toNat q p n
def execMxscale (sm : Bool) (d a : Fin 16) (q : Fin 4) (p n : Bool) (s : State) : Host.Outcome State Fault Refusal :=
  s.mxOut sm .scale d a 0 q p n

/-! ## Tile predicates (R240) -/

/-- A q register with a bit set or cleared; a void one is taken as zero. -/
def State.putBit (s : State) (sm : Bool) (d : Fin 4) (a : Fin 16) (b : Bool) : Host.Outcome State Fault Refusal :=
  s.issue sm fun s => do
    let _ ← threadOnly s
    noTx s
    let i ← s.rdS a
    let old := if (s.me.q.get d).void then 0 else (s.me.q.get d).val
    let bit := 1#128 <<< (i.toNat % 128)
    done (s.wrQ d (if b then old ||| bit else old &&& ~~~bit))

def execQset (sm : Bool) (d : Fin 4) (a : Fin 16) (s : State) : Host.Outcome State Fault Refusal := s.putBit sm d a true
def execQclr (sm : Bool) (d : Fin 4) (a : Fin 16) (s : State) : Host.Outcome State Fault Refusal := s.putBit sm d a false

def execQld (sm : Bool) (d : Fin 4) (a : Fin 16) (s : State) : Host.Outcome State Fault Refusal :=
  s.issue sm fun s => do
    let _ ← threadOnly s
    noTx s
    let ea ← s.rdS a
    let r ← s.load ea 16 true
    done (r.2.wrQ d (BitVec.ofNat 128 (leNat r.1)))

def execQst (sm : Bool) (d : Fin 4) (a : Fin 16) (s : State) : Host.Outcome State Fault Refusal :=
  s.issue sm fun s => do
    let _ ← threadOnly s
    noTx s
    let ea ← s.rdS a
    let _ ← s.place ea 16
    let v ← s.rdQ d
    let t ← s.store ea (leBytes 16 v.toNat) true
    done t

def execQtest (sm : Bool) (d : Fin 8) (a : Fin 4) (b : Fin 16) (s : State) : Host.Outcome State Fault Refusal :=
  s.issue sm fun s => do
    let _ ← threadOnly s
    noTx s
    let i ← s.rdS b
    let v ← s.rdQ a
    done (s.wrP d (v.getLsbD (i.toNat % 128)))

end Sys2Proof.Machine
end

