-- ==== Sys2Proof/Machine/Cirrus.lean ====
section
/-! DEFINITION. Pattern programs: the Cirrus generator's runs and words, and the PAT group (R242 to R265). -/

namespace Sys2Proof.Machine

/-! ## Runs (R250 to R253) -/

/-- PAT subcauses (R257). -/
def patNoninv : Nat := 1
def patNm : Nat := 2
def patRange : Nat := 3
def patOrder : Nat := 4
def patBudget : Nat := 5
def patIll : Nat := 6

/-- The steps that an operation may spend (R251). -/
def stepLimit : Nat := 4096

/-- A slot with values in place of P0, P1, NR and NC: those of a shape record (R247). -/
def CirrusSlot.withShape (k : CirrusSlot) (q : Rec) : CirrusSlot :=
  { k with par0 := BitVec.ofNat 32 q.par0, par1 := BitVec.ofNat 32 q.par1, nr := BitVec.ofNat 32 (q.r / 16)
           nc := BitVec.ofNat 32 (q.c / 16) }

/-- The index behind the last word of the section that a run executes (R249, R251). -/
def GenRun.endIndex (r : GenRun) : Nat :=
  if r.inverse then r.slot.prog.length else r.slot.inv.getD r.slot.prog.length

/-- A run has ended (R251). -/
def GenRun.finished (r : GenRun) : Bool := r.ended || r.flt.isSome || decide (r.endIndex ≤ r.index)

/-- The run for one block row begins (R250): counters and index; the budget goes on or begins anew. -/
def GenRun.start (f : GenFor) (slot : CirrusSlot) (inverse : Bool) (u vlo vhi v : Nat) (rank : Option (Nat × Nat))
    (steps written : Nat) : GenRun :=
  { for_ := f, slot := slot, inverse := inverse
    c := ((Vector.replicate 8 0).set 0 (BitVec.ofNat 32 u)).set 1 (BitVec.ofNat 32 (if inverse then v else vlo)) |>.set 2
      (BitVec.ofNat 32 (if inverse then 0 else vhi))
    index := if inverse then (slot.inv.getD slot.prog.length) + 1 else 0
    u := u, vlo := vlo, vhi := vhi, v := v, rank := rank, steps := steps, prev := none, answer := none
    written := written, ended := false, flt := none }

/-- The value of a source (R247). -/
def GenRun.src (r : GenRun) (a : Src) : BitVec 32 :=
  match a with
  | .c n => r.c.get n
  | .k n => r.slot.k.get n
  | .par0 => r.slot.par0
  | .par1 => r.slot.par1
  | .nr => r.slot.nr
  | .nc => r.slot.nc

/-- The value of an immediate (R246). -/
def cimm (i : BitVec 17) : BitVec 32 := BitVec.ofNat 32 i.toNat

/-- Set a counter. -/
def GenRun.setC (r : GenRun) (d : Fin 8) (v : BitVec 32) : GenRun := { r with c := r.c.set d.val v d.isLt }

/-- The counter after another (R248). -/
def succ8 (d : Fin 8) : Fin 8 := Fin.ofNat 8 (d.val + 1)

/-- The operation ends with PAT. -/
def GenRun.stop (r : GenRun) (sub : Nat) : GenRun := { r with flt := some sub, ended := true }

/-- What an emission does to the run and what it hands on (R252, R253): nothing, or a kept block (v, p). -/
def GenRun.emit (r : GenRun) (v p : Nat) : GenRun × Option (Nat × Nat) :=
  let rankBad := match r.rank with
    | some (lo, hi) => decide (hi - lo ≤ p)
    | none => false
  if r.inverse then
    if v ≠ r.v ∨ r.answer.isSome then (r.stop patOrder, none)
    else if rankBad then (r.stop patRange, none)
    else ({ r with answer := some p }, none)
  else if r.slot.nc.toNat ≤ v then (r.stop patRange, none)
  else
    let ordered := match r.prev with
      | none => r.vlo != 0 || p == 0
      | some (v', p') => decide (v' < v) && p == p' + 1
    if !ordered then (r.stop patOrder, none)
    else if rankBad then (r.stop patRange, none)
    else
      let r := { r with prev := some (v, p) }
      if r.vhi < v then ({ r with ended := true }, none)
      else if v < r.vlo then (r, none)
      else (r, some (v, p))

/-! ## Commands at the head of a queue -/

/-- The head of a core's matrix queue. -/
def State.mxHead (s : State) (x : Sec) (cl : Fin 96) (co : Fin 8) : Option MxCmd := ((s.cluster x cl).mx.get co).head?

/-- A list with its head changed. -/
def modHead {α : Type} (f : α → α) : List α → List α
  | [] => []
  | h :: t => f h :: t

/-- Change the head of a core's matrix queue. -/
def State.modMxHead (s : State) (x : Sec) (cl : Fin 96) (co : Fin 8) (f : MxCmd → MxCmd) : State :=
  s.modCluster x cl fun c => { c with mx := c.mx.set co.val (modHead f (c.mx.get co)) co.isLt }

/-- A kept block of a sparse command: its rank and its place (R256). -/
def State.keepBlock (s : State) (x : Sec) (cl : Fin 96) (co : Fin 8) (u v p : Nat) (lo : Nat) : State × Option Nat :=
  match s.mxHead x cl co with
  | none => (s, none)
  | some h =>
    let q := shapeRec h.shape
    if 0x200000 < spadOff q.base + (lo + p + 1) * elemBytes q.fmt 256 then (s, some patRange)
    else (s.modMxHead x cl co fun h => { h with blocks := h.blocks ++ [(u, v, lo + p)] }, none)

/-- A kept emission of a `pgrun`: its entry in the scratchpad (R262). -/
def State.keepEntry (s : State) (x : Sec) (cl : Fin 96) (co : Fin 8) (i u v : Nat) : State × Option Nat :=
  match s.mxHead x cl co with
  | none => (s, none)
  | some h =>
    if h.a2.toNat ≤ i then (s, some patRange)
    else (s.spadWrite x cl (spadOff (h.a.toNat + 8 + 8 * i))
      (leBytes 4 (h.b2.toNat + i) ++ leBytes 2 v ++ leBytes 2 u), none)

/-- Make an emission of the run in progress. -/
def State.genEmit (s : State) (r : GenRun) (v p : Nat) : State × GenRun :=
  match r.emit v p with
  | (r, none) => (s, r)
  | (r, some (v, p)) => match r.for_ with
    | .command x cl co =>
      let k := s.keepBlock x cl co r.u v p ((r.rank.map (·.1)).getD 0)
      (k.1, match k.2 with
        | some sub => r.stop sub
        | none => r)
    | .list x cl co =>
      let k := s.keepEntry x cl co r.written r.u v
      (k.1, match k.2 with
        | some sub => r.stop sub
        | none => { r with written := r.written + 1 })
    | .query _ _ _ _ _ => (s, r)

/-! ## The end of a step -/

/-- The answer of a `pginv` (R264): the parked instruction completes, or faults. -/
def State.endQuery (s : State) (g : Agent) (d : Fin 16) (w : BitVec 32) (was : SReg) (unread : Bool) (r : GenRun) : State :=
  let s := { s with gen := none }
  match (s.hart g).park with
  | some (.pginv _) => match r.flt with
    | some sub => ({ s.modHart g (fun h =>
        { h with
          park := none, s := h.s.set d.val was d.isLt
          unread := if unread then d :: h.unread else h.unread }) with cur := g, curWord := w }).raise (flt cPAT sub)
    | none => s.completeParked g fun h =>
      h.putS d (match r.answer with
        | some p => word p
        | none => BitVec.allOnes 64)
  | _ => s

/-- After a word: the next word of the run is due, or the run's operation goes on. -/
def State.genNext (s : State) (r : GenRun) : State :=
  if r.finished then
    match r.for_ with
    | .query g d w was unread => s.endQuery g d w was unread r
    | .command x cl _ => ({ s with gen := some r }).postFront (.engineStep x cl)
    | .list x cl _ => ({ s with gen := some r }).postFront (.engineStep x cl)
  else ({ s with gen := some r }).postFront (.cirrus (r.slot.prog.getD r.index 0))

/-- Execute one word of the run in progress as one step (R251); without a run nothing happens. -/
def State.genStep (s : State) (f : GenRun → GenRun) : Host.Outcome State Fault Refusal :=
  event (match s.gen with
    | none => s
    | some r =>
      if r.finished then s
      else if stepLimit ≤ r.steps then s.genNext (r.stop patBudget)
      else s.genNext (f { r with steps := r.steps + 1, index := r.index + 1 }))

/-! ## Words (R248) -/

/-- Set a counter from a function of the run. -/
def State.genSet (s : State) (d : Fin 8) (f : GenRun → BitVec 32) : Host.Outcome State Fault Refusal :=
  s.genStep fun r => r.setC d (f r)

def execCsetReg (d : Fin 8) (a : Src) (s : State) := s.genSet d fun r => r.src a
def execCsetImm (d : Fin 8) (i : BitVec 17) (s : State) := s.genSet d fun _ => cimm i
def execCaddReg (d : Fin 8) (a : Src) (n : Bool) (b : Src) (s : State) :=
  s.genSet d fun r => if n then r.src a - r.src b else r.src a + r.src b
def execCaddImm (d : Fin 8) (a : Src) (n : Bool) (i : BitVec 17) (s : State) :=
  s.genSet d fun r => if n then r.src a - cimm i else r.src a + cimm i
def execCmulReg (d : Fin 8) (a b : Src) (s : State) := s.genSet d fun r => r.src a * r.src b
def execCmulImm (d : Fin 8) (a : Src) (i : BitVec 17) (s : State) := s.genSet d fun r => r.src a * cimm i

/-- A division word: a zero divisor ends the command. -/
def State.genDiv (s : State) (b : GenRun → BitVec 32) (f : GenRun → BitVec 32 → GenRun) :
    Host.Outcome State Fault Refusal :=
  s.genStep fun r => if b r = 0 then r.stop patIll else f r (b r)

def execCdivReg (d : Fin 8) (a b : Src) (s : State) := s.genDiv (·.src b) fun r y => r.setC d (r.src a / y)
def execCdivImm (d : Fin 8) (a : Src) (i : BitVec 17) (s : State) :=
  s.genDiv (fun _ => cimm i) fun r y => r.setC d (r.src a / y)
def execCmodReg (d : Fin 8) (a b : Src) (s : State) := s.genDiv (·.src b) fun r y => r.setC d (r.src a % y)
def execCmodImm (d : Fin 8) (a : Src) (i : BitVec 17) (s : State) :=
  s.genDiv (fun _ => cimm i) fun r y => r.setC d (r.src a % y)

/-- The hash H. -/
def cirrusHash (a b : BitVec 32) : BitVec 32 :=
  let x := a ^^^ (b * 0x9E3779B1)
  let x := (x ^^^ (x >>> 15)) * 0x2C1B3C6D
  let x := (x ^^^ (x >>> 12)) * 0x297A2D39
  x ^^^ (x >>> 15)

def execChashReg (d : Fin 8) (a b : Src) (s : State) := s.genSet d fun r => cirrusHash (r.src a) (r.src b)
def execChashImm (d : Fin 8) (a : Src) (i : BitVec 17) (s : State) :=
  s.genSet d fun r => cirrusHash (r.src a) (cimm i)

/-- Conditions on unsigned values. -/
def cirrusCond (c : Cond) (x y : BitVec 32) : Bool :=
  match c with
  | .eq => x == y
  | .ne => x != y
  | .lt => x.ult y
  | .ge => !x.ult y
  | .le => x.ule y
  | .gt => !x.ule y
  | .ltu => x.ult y
  | .geu => !x.ult y

/-- Go to the index of the branch plus its offset. -/
def GenRun.branch (r : GenRun) (f : BitVec 14) : GenRun :=
  { r with index := ((r.index : Int) - 1 + signedOf 14 f.toNat).toNat }

def execCbr (c : Cond) (a b : Src) (f : BitVec 14) (s : State) :=
  s.genStep fun r => if cirrusCond c (r.src a) (r.src b) then r.branch f else r

def execCloop (d : Fin 8) (a : Src) (f : BitVec 14) (s : State) :=
  s.genStep fun r =>
    let v := r.c.get d + 1
    let lim := r.src a
    let r := r.setC d v
    if v.ult lim then r.branch f else r

/-- The first term of a progression at or above c1, and its number. -/
def GenRun.next (r : GenRun) (d : Fin 8) (a e : BitVec 32) : GenRun :=
  let lo := r.c.get 1
  let j := if lo.toNat ≤ a.toNat ∨ e = 0 then 0 else (lo.toNat - a.toNat + e.toNat - 1) / e.toNat
  (r.setC d (a + BitVec.ofNat 32 j * e)).setC (succ8 d) (BitVec.ofNat 32 j)

def execCnextReg (d : Fin 8) (a b : Src) (s : State) := s.genStep fun r => r.next d (r.src a) (r.src b)
def execCnextImm (d : Fin 8) (a : Src) (i : BitVec 17) (s : State) := s.genStep fun r => r.next d (r.src a) (cimm i)

/-- A step that can emit. -/
def State.genStepEmit (s : State) (f : State → GenRun → State × GenRun) : Host.Outcome State Fault Refusal :=
  event (match s.gen with
    | none => s
    | some r =>
      if r.finished then s
      else if stepLimit ≤ r.steps then s.genNext (r.stop patBudget)
      else
        let q := f s { r with index := r.index + 1 }
        q.1.genNext q.2)

/-- Emit one column at the position in a counter. -/
def State.genEmitOne (s : State) (d : Fin 8) (r : GenRun) (v : BitVec 32) : State × GenRun :=
  let p := r.c.get d
  let q := s.genEmit { r with steps := r.steps + 1 } v.toNat p.toNat
  (q.1, q.2.setC d (p + 1))

def execCemitReg (d : Fin 8) (a : Src) (s : State) := s.genStepEmit fun s r => s.genEmitOne d r (r.src a)
def execCemitImm (d : Fin 8) (i : BitVec 17) (s : State) := s.genStepEmit fun s r => s.genEmitOne d r (cimm i)

/-- Emit the columns from `col` up to `lim`, one step each, until the run ends. -/
def State.genEmitRun (s : State) (d : Fin 8) (lim : Nat) : Nat → Nat → GenRun → State × GenRun
  | 0, _, r => (s, r)
  | fuel + 1, col, r =>
    if lim ≤ col ∨ r.ended then (s, r)
    else if stepLimit ≤ r.steps then (s, r.stop patBudget)
    else
      let q := s.genEmitOne d r (BitVec.ofNat 32 col)
      q.1.genEmitRun d lim fuel (col + 1) q.2

/-- A run without an emission is one step. -/
def State.genRunWord (s : State) (d : Fin 8) (a lim : BitVec 32) (r : GenRun) : State × GenRun :=
  if lim.toNat ≤ a.toNat then (s, { r with steps := r.steps + 1 })
  else s.genEmitRun d lim.toNat (stepLimit + 1) a.toNat r

def execCrunReg (d : Fin 8) (a b : Src) (s : State) := s.genStepEmit fun s r => s.genRunWord d (r.src a) (r.src b) r
def execCrunImm (d : Fin 8) (a : Src) (i : BitVec 17) (s : State) :=
  s.genStepEmit fun s r => s.genRunWord d (r.src a) (cimm i) r

def execCkronReg (d : Fin 8) (a b : Src) (s : State) :=
  s.genDiv (·.src b) fun r y => (r.setC d (r.src a / y)).setC (succ8 d) (r.src a % y)
def execCkronImm (d : Fin 8) (a : Src) (i : BitVec 17) (s : State) :=
  s.genDiv (fun _ => cimm i) fun r y => (r.setC d (r.src a / y)).setC (succ8 d) (r.src a % y)

def execCinv (s : State) := s.genStep fun r => { r with ended := true }
def execCstop (s : State) := s.genStep fun r => { r with ended := true }

/-! ## Program images (R245, R249) -/

/-- A bit field of a word of a program. -/
def cfield (w lo n : Nat) : Nat := w / 2 ^ lo % 2 ^ n

/-- The word is one of the Cirrus forms (R246 to R249). -/
def cirrusWordOk (w : Nat) : Bool :=
  let cop := cfield w 27 5
  let sa := cfield w 19 5
  let sb := cfield w 12 5
  let i := cfield w 18 1 == 1
  let n := cfield w 17 1 == 1
  let cd7 := cfield w 24 3 == 7
  if cop = 12 ∨ cop = 13 then cfield w 0 27 == 0
  else if cop = 6 then decide (sa < 20) && decide (cfield w 14 5 < 20)
  else if cop = 7 then decide (sa < 20) && cfield w 14 5 == 0
  else if 14 ≤ cop then false
  else (!n || cop == 1) && !((cop == 8 || cop == 11) && cd7) && (i || cfield w 0 12 == 0)
    && if cop = 0 ∨ cop = 9 then (if i then sa == 0 else sb == 0 && decide (sa < 20))
       else decide (sa < 20) && (i || decide (sb < 20))

/-- The target of a branch word at an index lies in its section (R249). -/
def branchOk (n : Nat) (inv : Option Nat) (i w : Nat) : Bool :=
  if cfield w 27 5 = 6 ∨ cfield w 27 5 = 7 then
    let t := (i : Int) + signedOf 14 (w % 2 ^ 14)
    let sec : Nat × Nat := match inv with
      | none => (0, n)
      | some k => if i < k then (0, k) else (k + 1, n)
    decide ((sec.1 : Int) ≤ t) && decide (t < (sec.2 : Int))
  else true

/-- Indices of the `cinv` words. -/
def cinvAt (ws : List Nat) : List Nat := (ws.zipIdx.filter fun p => cfield p.1 27 5 == 12).map (·.2)

/-- A program passes the checks (R249); the index of its `cinv`. -/
def checkProgram (ws : List Nat) : Option (Option Nat) :=
  let inv := (cinvAt ws).head?
  if ws.all cirrusWordOk && decide ((cinvAt ws).length ≤ 1) && ws.zipIdx.all fun p => branchOk ws.length inv p.2 p.1 then
    some inv
  else none

/-! ## The PAT group (R258 to R265) -/

/-- The slot of the executing context's cluster, and a change of it. -/
def State.cirrusSlot (s : State) (x : Sec) (cl : Fin 96) (k : Fin 8) : CirrusSlot := (s.cluster x cl).cirrus.get k
def State.modCirrus (s : State) (x : Sec) (cl : Fin 96) (k : Fin 8) (f : CirrusSlot → CirrusSlot) : State :=
  s.modCluster x cl fun c => { c with cirrus := c.cirrus.set k.val (f (c.cirrus.get k)) k.isLt }

/-- Bind the executing context to a slot. -/
def State.bindCirrus (s : State) (x : Sec) (i : Nat) (k : Option (Fin 8)) : State :=
  s.modCtx x i fun c => { c with cirrus := k }

/-- Load `n` words with plain loads (R260). -/
def State.loadImage (s : State) (ea : Word) : Nat → Except Stop (List Nat × State)
  | 0 => .ok ([], s)
  | n + 1 => do
    let r ← s.loadNat ea 4 true
    let q ← r.2.loadImage (ea + 4) n
    .ok (r.1 :: q.1, q.2)

/-- The image at an address: its words and the index of its `cinv`. -/
def State.readImage (s : State) (ea : Word) : Except Stop (List Nat × Option Nat × State) := do
  let h ← s.loadNat ea 4 true
  require (decide (h.1 / 512 = 0) && decide (1 ≤ h.1) && decide (h.1 ≤ 256)) (flt cSHP subPgm)
  let r ← h.2.loadImage (ea + 4) h.1
  match checkProgram r.1 with
  | some inv => .ok (r.1, inv, r.2)
  | none => fault (flt cSHP subPgm)

/-- The program that `pgld` loads takes the slot. -/
def newProgram (o : Option SlotOwner) (ws : List Nat) (inv : Option Nat) : CirrusSlot :=
  { CirrusSlot.reset with owner := o, prog := ws, inv := inv }

/-- ADR of an address. -/
def startFault (g : Agent) (ea : Nat) : List Flt :=
  match placeOf g ea 4 with
  | .error f => [f]
  | .ok _ => []

def execPgld (sm : Bool) (d a b : Fin 16) (r : Bool) (s : State) : Host.Outcome State Fault Refusal :=
  s.issue sm fun s => do
    let me ← threadOnly s
    noTx s
    let kb ← s.rdS b
    let ea ← if r then .ok 0 else s.rdS a
    if ea.toNat % 4 ≠ 0 then checkAll (startFault s.cur ea.toNat ++ [fltAt cALN 0 ea.toNat])
    if s.bindingBusy s.cur then .error (.interlock .binding)
    else
      let s := s.engAwaited true
      let x := me.1
      let cl := clusterOf me.2.val
      let k := Fin.ofNat 8 kb.toNat
      let sl := s.cirrusSlot x cl k
      let own := s.slotOwner x me.2.val
      let mine := sl.owner.isSome && sl.owner == own
      let bound := (s.ctx x me.2.val).cirrus
      if bound.isSome ∧ bound ≠ some k then done (s.wrS d 4)
      else if r then if mine then done ((s.bindCirrus x me.2.val (some k)).wrS d 0) else done (s.wrS d 2)
      else if sl.owner.isSome && !mine then done (s.wrS d 1)
      else do
        let q ← s.readImage ea
        done (((q.2.2.modCirrus x cl k fun _ => newProgram own q.1 q.2.1).bindCirrus x me.2.val (some k)).wrS d 0)

/-- The slot to which the executing context is bound, or SHP (R265). -/
def State.needCirrus (s : State) (x : Sec) (i : Nat) : Except Stop (Fin 8) :=
  match (s.ctx x i).cirrus with
  | some k => .ok k
  | none => fault (flt cSHP subNobind)

/-- Write a parameter (R261). -/
def CirrusSlot.setParam (k : CirrusSlot) (i : Nat) (v : BitVec 32) : CirrusSlot :=
  if i < 8 then { k with k := k.k.set (i % 8) v (Nat.mod_lt _ (by decide)) }
  else if i = 8 then { k with par0 := v }
  else if i = 9 then { k with par1 := v }
  else if i = 10 then { k with nr := v }
  else { k with nc := v }

def execPgset (sm : Bool) (a b : Fin 16) (s : State) : Host.Outcome State Fault Refusal :=
  s.issue sm fun s => do
    let me ← threadOnly s
    noTx s
    let k ← s.needCirrus me.1 me.2.val
    let v ← s.rdS a
    let i ← s.rdS b
    require (decide (i.toNat ≤ 11)) (flt cSHP subPgm)
    done (s.modCirrus me.1 (clusterOf me.2.val) k fun q => q.setParam i.toNat (BitVec.ofNat 32 v.toNat))

def execPgrun (sm : Bool) (d a b : Fin 16) (s : State) : Host.Outcome State Fault Refusal :=
  s.issue sm fun s => do
    let me ← threadOnly s
    noTx s
    let k ← s.needCirrus me.1 me.2.val
    let dst ← s.rdPair a
    let row ← s.rdPair b
    let sl := s.cirrusSlot me.1 (clusterOf me.2.val) k
    let cap := dst.2.toNat
    let capOk := decide (1 ≤ cap) && decide (cap ≤ 262143)
    let rowsOk := decide (1 ≤ bitsOf row.1 32 32) && decide (bitsOf row.1 0 32 + bitsOf row.1 32 32 ≤ sl.nr.toNat)
    checkAll (ownOperand s.cur dst.1.toNat (8 + 8 * cap) 8 false
      ++ if capOk && rowsOk then [] else [flt cSHP subPgm])
    s.submit me.1 me.2 d fun act =>
      { s.mxCmd .run false (0, 0) act with a := dst.1, a2 := dst.2, b := row.1, b2 := row.2, slot := some sl }

def execPgrel (sm : Bool) (s : State) : Host.Outcome State Fault Refusal :=
  s.issue sm fun s => do
    let me ← threadOnly s
    noTx s
    match (s.ctx me.1 me.2.val).cirrus with
    | none => done s
    | some k =>
      if s.bindingBusy s.cur then .error (.interlock .binding)
      else done (((s.engAwaited true).modCirrus me.1 (clusterOf me.2.val) k fun _ => CirrusSlot.reset).bindCirrus me.1
        me.2.val none)

/-- The generator runs for no one. -/
def State.genFree (s : State) : Bool := match s.gen with
  | none => true
  | some _ => !(s.agenda.any fun d => match d with
    | .cirrus _ => true
    | .engineStep _ _ => true
    | _ => false)

def execPginv (sm : Bool) (d a : Fin 16) (s : State) : Host.Outcome State Fault Refusal :=
  s.issue sm fun s => do
    let me ← threadOnly s
    noTx s
    let k ← s.needCirrus me.1 me.2.val
    let q ← s.rdS a
    let sl := s.cirrusSlot me.1 (clusterOf me.2.val) k
    require sl.inv.isSome (flt cPAT patNoninv)
    require (decide (bitsOf q 0 32 < sl.nr.toNat) && decide (bitsOf q 32 32 < sl.nc.toNat)) (flt cPAT patRange)
    if !s.genFree then .error .stall
    else if (s.me.s.get d).claimed || s.zBusy s.cur d then .error (.interlock (.result d))
    else
      let r := GenRun.start (.query s.cur d s.curWord (s.me.s.get d) (s.me.unread.contains d)) sl true (bitsOf q 0 32) 0 0
        (bitsOf q 32 32) none 0 0
      if r.finished then done (s.wrS d (BitVec.allOnes 64))
      else .ok (((s.claimS d).modMe fun h => { h with park := some (.pginv d), sWait := sm }).genNext r, .stay)

end Sys2Proof.Machine
end

