-- ==== Sys2Proof/Machine/Fp.lean ====
section
/-! DEFINITION. Scalar FP32 (R131 to R134). -/

namespace Sys2Proof.Machine

def execFadd (sm : Bool) (d a b : Fin 16) (s : State) := s.issue sm fun s => s.fop2 fp32 d a b fp32.add
def execFsub (sm : Bool) (d a b : Fin 16) (s : State) := s.issue sm fun s => s.fop2 fp32 d a b fp32.sub
def execFmul (sm : Bool) (d a b : Fin 16) (s : State) := s.issue sm fun s => s.fop2 fp32 d a b fp32.mul
def execFdiv (sm : Bool) (d a b : Fin 16) (s : State) := s.issue sm fun s => s.fop2 fp32 d a b fp32.div
def execFfma (sm : Bool) (d a b : Fin 16) (s : State) := s.issue sm fun s => s.fop3 fp32 d a b
def execFmin (sm : Bool) (d a b : Fin 16) (s : State) :=
  s.issue sm fun s => s.fop2 fp32 d a b fun _ x y => fp32.pick false x y
def execFmax (sm : Bool) (d a b : Fin 16) (s : State) :=
  s.issue sm fun s => s.fop2 fp32 d a b fun _ x y => fp32.pick true x y

/-- The sign bit alone changes; a NaN keeps its payload and no flag is raised (R82). -/
def fpAbs (f : FFmt) (x : Nat) : Nat := x % f.signBit
def fpNeg (f : FFmt) (x : Nat) : Nat := if f.signBit ≤ x then x - f.signBit else x + f.signBit

def execFabs (sm : Bool) (d a : Fin 16) (s : State) := s.issue sm fun s => s.fop1 fp32 d a fun _ x => (fpAbs fp32 x, 0)
def execFneg (sm : Bool) (d a : Fin 16) (s : State) := s.issue sm fun s => s.fop1 fp32 d a fun _ x => (fpNeg fp32 x, 0)
def execFsqrt (sm : Bool) (d a : Fin 16) (s : State) := s.issue sm fun s => s.fop1 fp32 d a fp32.sqrt
def execFcmp (sm : Bool) (d : Fin 8) (a b : Fin 16) (c : Cond) (s : State) :=
  s.issue sm fun s => s.fopCmp fp32 d a b c

/-- The conversions of R134. -/
def fcvtValue (k : FcvtKind) (rnd : Rnd) (x : Word) : Word × Nat :=
  match k with
  | .f32i32 => cvtToInt fp32 32 rnd x
  | .f32i64 => cvtToInt fp32 64 rnd x
  | .i32f32 => cvtFromInt fp32 32 rnd x
  | .i64f32 => cvtFromInt fp32 64 rnd x
  | .f32bf16 => cvtFloat fp32 bf16 rnd x
  | .bf16f32 => cvtFloat bf16 fp32 rnd x
  | .f32f16 => cvtFloat fp32 fp16 rnd x
  | .f16f32 => cvtFloat fp16 fp32 rnd x

def execFcvt (sm : Bool) (d a : Fin 16) (k : FcvtKind) (s : State) := s.issue sm fun s => s.fopCvt d a (fcvtValue k)

end Sys2Proof.Machine
end

