-- ==== Sys2Proof/Machine/Ext.lean ====
section
/-! DEFINITION. Extension migration to a D core (R68, R139) and the FP64 instructions (R135 to R138). -/

namespace Sys2Proof.Machine

/-! ## Moving a context within its cluster (R68) -/

/-- Rename an agent where its slot names it: messages and commands name their vt (R305). -/
def State.renameAgent (s : State) (g g' : Agent) : State :=
  let ren : Agent → Agent := fun a => if a = g then g' else a
  { s with
    turns := s.turns.map ren
    marks := s.marks.map fun e => (e.1, { e.2 with writer := e.2.writer.map ren, readers := e.2.readers.map ren })
    zreqs := s.zreqs.map fun r => { r with agent := ren r.agent } }

/-- A context slot takes no part in the work of another vt. -/
def Ctx.free (c : Ctx) : Bool :=
  c.reserved.isNone && match c.holds with
    | .released | .bound _ => true
    | _ => false

/-- The free slot that a migrant takes: the lowest of core 6, then of core 7. -/
def State.freeDSlot (s : State) (x : Sec) (cl : Fin 96) : Option (Fin 6144) :=
  (((List.range 16).map fun k => Fin.ofNat 6144 (cl.val * 64 + 48 + k)).find? fun j =>
    (s.ctx x j.val).free && (s.coreSt x cl (coreOf j.val)).stopped.isNone)

/-- The registers of a context move; its job numbers stay with the slot. -/
def State.moveHart (s : State) (g g' : Agent) : State :=
  let h := s.hart g
  let h' := s.hart g'
  (s.setHart g' { h with jobCtr := h'.jobCtr }).setHart g { Hart.resetThread with jobCtr := h.jobCtr }

/-- The own state of a context moves with its vt: the bindings and configuration go, the sequence number stays. -/
def State.moveOwn (s : State) (x : Sec) (i j : Nat) : State :=
  let c := s.ctx x i
  let d := s.ctx x j
  (s.setCtx x j { c with extFrom := none, reserved := d.reserved, seq := d.seq }).setCtx x i
    { Ctx.reset (agentKey (ctxAgent x i)) with seq := c.seq, reserved := c.reserved }

/-- Where a vt runs. -/
def State.setRunning (s : State) (x : Sec) (v : VtName) (r : Option Nat) : State :=
  s.modInst x v.uid fun i => { i with vts := i.vts.map fun t => if t.n = v.n then { t with running := r } else t }

/-- A context's whole register state moves to another slot of its cluster. -/
def State.moveCtx (s : State) (x : Sec) (i j : Nat) : State :=
  let g := ctxAgent x i
  let s := ((s.dropRole g).moveHart g (ctxAgent x j)).renameAgent g (ctxAgent x j)
  match s.vtAt x i with
  | some v => ((s.moveOwn x i j).setRunning x v (some j)).landWaiting x j
  | none => s.moveOwn x i j

/-- Extension migration: the origin slot is kept for the vt; a slot that was waiting to draw draws later. -/
def State.extMigrate (s : State) (x : Sec) (i j : Nat) : State :=
  let waiting := match (s.ctx x j).holds with
    | .bound uid => some uid
    | _ => none
  let v := s.vtAt x i
  let s := s.moveCtx x i j
  (s.modCtx x j fun c => { c with extFrom := some i, drawAfter := waiting }).modCtx x i fun c =>
    { c with reserved := v }

/-- Return from a D core to the origin slot; the slot that the migrant held goes on as it was. -/
def State.extReturn (s : State) (x : Sec) (j i : Nat) : State :=
  let after := (s.ctx x j).drawAfter
  let s := (s.modCtx x i fun c => { c with reserved := none }).moveCtx x j i
  let s := s.modCtx x i fun c => { c with drawAfter := none }
  let s := match after with
    | some uid => (s.modCtx x j fun c => { c with holds := .bound uid }).post (.drawRequest (ctxAgent x j))
    | none => s.post (.contextChoose (ctxAgent x j))
  s.post (.dSlotFree x (clusterOf j))

/-- Execute a D-extension instruction (R66, R68, R135): here on a D core, elsewhere the context moves first. -/
def State.withD (s : State) (b : Body) : Except Stop (State × Next) :=
  match s.cur with
  | .master _ _ => b s
  | .thread x i =>
    if (s.cluster x (clusterOf i.val)).dFused then fault (flt cILL 0)
    else if 6 ≤ (coreOf i.val).val then b s
    else if (s.ctx x i.val).accBound then fault (flt cMIG 3)
    else match s.freeDSlot x (clusterOf i.val) with
      | some j => .ok (s.extMigrate x i.val j.val, .stay)
      | none => .error (.park .dslot)

/-! ## FP64 (R136 to R138) -/

def execDadd (sm : Bool) (d a b : Fin 16) (s : State) :=
  s.issue sm fun s => s.withD fun s => s.fop2 fp64 d a b fp64.add
def execDsub (sm : Bool) (d a b : Fin 16) (s : State) :=
  s.issue sm fun s => s.withD fun s => s.fop2 fp64 d a b fp64.sub
def execDmul (sm : Bool) (d a b : Fin 16) (s : State) :=
  s.issue sm fun s => s.withD fun s => s.fop2 fp64 d a b fp64.mul
def execDdiv (sm : Bool) (d a b : Fin 16) (s : State) :=
  s.issue sm fun s => s.withD fun s => s.fop2 fp64 d a b fp64.div
def execDfma (sm : Bool) (d a b : Fin 16) (s : State) :=
  s.issue sm fun s => s.withD fun s => s.fop3 fp64 d a b
def execDsqrt (sm : Bool) (d a : Fin 16) (s : State) :=
  s.issue sm fun s => s.withD fun s => s.fop1 fp64 d a fp64.sqrt
def execDcmp (sm : Bool) (d : Fin 8) (a b : Fin 16) (c : Cond) (s : State) :=
  s.issue sm fun s => s.withD fun s => s.fopCmp fp64 d a b c

/-- The conversions of R137. -/
def dcvtValue (k : DcvtKind) (rnd : Rnd) (x : Word) : Word × Nat :=
  match k with
  | .f64i64 => cvtToInt fp64 64 rnd x
  | .i64f64 => cvtFromInt fp64 64 rnd x
  | .f64f32 => cvtFloat fp64 fp32 rnd x
  | .f32f64 => cvtFloat fp32 fp64 rnd x
  | .f64i32 => cvtToInt fp64 32 rnd x
  | .i32f64 => cvtFromInt fp64 32 rnd x

def execDcvt (sm : Bool) (d a : Fin 16) (k : DcvtKind) (s : State) :=
  s.issue sm fun s => s.withD fun s => s.fopCvt d a (dcvtValue k)

end Sys2Proof.Machine
end

