-- ==== Sys2Proof/Machine/Slots.lean ====
section
/-! DEFINITION. Context slots: which may be given away and to whom, and what happens when a vt leaves one (R162, R163,
R360, R377, R404). -/

namespace Sys2Proof.Machine

/-- A context is eligible for an instance (R360). -/
def Inst.eligible (n : Inst) (i : Nat) : Bool :=
  let cl := i / 64
  let inUnit := decide (n.rcd.first ≤ cl) && decide (cl < n.rcd.first + n.rcd.clusters)
  let inSet := match n.rcd.domain with
    | 0 => inUnit
    | 1 => decide (n.rcd.first / 24 ≤ cl / 24) && decide (cl / 24 ≤ (n.rcd.first + n.rcd.clusters - 1) / 24)
    | _ => true
  n.rcd.mask / 2 ^ (i / 8 % 8) % 2 == 1 && decide (i % 8 < n.rcd.perCore) && !isService i && inSet

/-- A slot is on hardware that runs: its sector in service, its chiplet not fenced, its core not stopped. -/
def State.slotUp (s : State) (x : Sec) (i : Nat) : Bool :=
  decide ((s.sec x).power = .running) && !s.isFenced x (chipletOf (clusterOf i))
    && (s.coreSt x (clusterOf i) (coreOf i)).stopped.isNone

/-- A slot that is free: released, reserved for no vt, not a service context (R162, R377). -/
def State.slotFree (s : State) (x : Sec) (i : Nat) : Bool :=
  s.slotUp x i && !isService i && (s.ctx x i).reserved.isNone && decide ((s.ctx x i).holds = .released)

/-- A context of the cluster waits for a D slot (R68): the lowest. -/
def State.dWaiter (s : State) (x : Sec) (cl : Fin 96) : Option (Fin 6144) :=
  ((List.range 48).map fun k => Fin.ofNat 6144 (cl.val * 64 + k)).find? fun i =>
    (s.hart (.thread x i)).park = some .dslot

/-- A slot on a D core for which an extension migrant waits. -/
def State.dWanted (s : State) (x : Sec) (i : Nat) : Bool :=
  decide (6 ≤ (coreOf i).val) && (s.dWaiter x (clusterOf i)).isSome

/-- A migration message for any slot waits in the cluster. -/
def State.messageWaits (s : State) (x : Sec) (cl : Fin 96) : Bool :=
  let c := s.cluster x cl
  (c.migInbox ++ c.reserveBuf).any fun f => match f.body with
    | .migrate m => !m.bound
    | _ => false

/-- The saved image that a slot takes (R404): highest priority first, then the oldest. One that needs D goes only to a
core that has it (R28, R49). -/
def State.imageFor (s : State) (x : Sec) (i : Nat) : Option Saved :=
  let hasD := decide (6 ≤ (coreOf i).val) && !(s.cluster x (clusterOf i)).dFused
  let prio := fun (v : Saved) => ((s.inst x v.uid).map fun n => n.rcd.prio).getD 0
  ((s.sec x).saved.filter fun v => !v.needsD || hasD).foldl (fun b v => match b with
    | none => some v
    | some w => if prio w < prio v ∨ (prio w = prio v ∧ v.order < w.order) then some v else some w) none

/-- The lowest released context that a READY entry can use, if a choice by it is not preceded (R364, R367). -/
def State.idleContext (s : State) (x : Sec) : Option Nat :=
  match (s.sec x).insts.filter fun n => n.phase == .ready with
  | [] => none
  | ns => (List.range 6144).find? fun i => ns.any (·.eligible i) && s.slotFree x i

/-- Let the lowest idle context choose (R364). -/
def State.offer (s : State) (x : Sec) : State :=
  match s.idleContext x with
  | some i => s.post (.contextChoose (ctxAgent x i))
  | none => s

/-- A migration message bound for a home slot waits for the slot. -/
def State.boundWaits (s : State) (x : Sec) (i : Nat) : Bool :=
  (s.cluster x (clusterOf i)).migInbox.any fun f => match f.body with
    | .migrate m => m.bound && m.home == i
    | _ => false

/-- A slot has become free: an extension migrant, a waiting message, a saved image and allocation come in this order
(R377, R404). -/
def State.slotFreed (s : State) (x : Sec) (i : Nat) : State :=
  let cl := clusterOf i
  if s.dWanted x i then s.post (.dSlotFree x cl)
  else if s.boundWaits x i || s.messageWaits x cl then s.post (.migrationAdmit x cl)
  else if (s.imageFor x i).isSome then s.post (.imageRestore x (Fin.ofNat 6144 i))
  else s.offer x

/-- A context slot loses its vt and is released: its registers mean nothing until a vt begins or arrives. -/
def State.clearSlot (s : State) (x : Sec) (i : Nat) : State :=
  let g := ctxAgent x i
  let c := s.ctx x i
  let h := s.hart g
  let s := (s.dropRole g).setHart g { Hart.resetThread with jobCtr := h.jobCtr, pushEpoch := h.pushEpoch }
  ({ s with
      turns := s.turns.filter (· ≠ g)
      zreqs := s.zreqs.map fun (r : ZReq) => if r.agent = g then { r with d := none } else r }).setCtx x i
    { Ctx.reset (agentKey g) with seq := c.seq, reserved := c.reserved, drawAfter := c.drawAfter }

/-- Release a slot. A slot that an extension migrant leaves draws for its own instance again if it was doing so. -/
def State.releaseSlot (s : State) (x : Sec) (i : Nat) : State :=
  let s := s.clearSlot x i
  match (s.ctx x i).drawAfter with
  | some uid =>
    (s.modCtx x i fun c => { c with drawAfter := none, holds := .bound uid }).post (.drawRequest (ctxAgent x i))
  | none => s.slotFreed x i

/-- A slot is no longer kept for a vt. -/
def State.unreserve (s : State) (x : Sec) (i : Nat) (v : Option VtName) : State :=
  if v.isSome ∧ (s.ctx x i).reserved = v then s.modCtx x i fun c => { c with reserved := none } else s

/-- A vt leaves its home slot or runs elsewhere: the slot is kept for it (R162), unless another vt has it. -/
def State.keepHome (s : State) (x : Sec) (i : Nat) (v : VtName) : State :=
  let c := s.ctx x i
  if c.reserved.isNone ∧ c.holds = .released then s.modCtx x i fun c => { c with reserved := some v } else s

/-- An agent joins the round of agents. -/
def State.enlist (s : State) (g : Agent) : State := if s.turns.contains g then s else { s with turns := s.turns ++ [g] }

/-- The bindings of a vt end (R163, R228, R243): its slots in the sector's clusters are freed. -/
def State.unbindVt (s : State) (x : Sec) (uid home : Nat) : State :=
  s.freeOwned x fun o => o.uid == uid && o.home == home

/-- A vt ends on the slot that it runs on (R163): every slot kept for it is released but the home slot, which is
answered for the next step. -/
def State.leaveSlots (s : State) (x : Sec) (i home : Nat) : State :=
  let ext := (s.ctx x i).extFrom
  let v := s.vtAt x i
  let s := if i = home then s.clearSlot x i else s.releaseSlot x i
  let s := match ext with
    | some o => if o = home then s else (s.unreserve x o v).releaseSlot x o
    | none => s
  s.unreserve x home v

end Sys2Proof.Machine
end

