-- ==== Sys2Proof/Machine/Spawn.lean ====
section
/-! DEFINITION. Spawning, joining and aborting instances (R39 to R44, R150 to R156), and the spawn unit's steps (R360 to
R367). -/

namespace Sys2Proof.Machine

/-! ## The spawn record (R39 to R41) -/

/-- The fields of a record read at an address, with lease and z-initial lists still to be read. -/
structure RawRecord where
  rcd : SpawnRec
  leaseAddr : Nat
  leases : Nat
  zs : Nat
  zAddr : Nat
  ok : Bool
  deriving DecidableEq, Repr

/-- Take a record of 64 bytes apart and check every limit of R39. -/
def parseRecord (addr : Nat) (bs : List Byte) : RawRecord :=
  let w := fun (i : Nat) => leNat (slice bs (8 * i) 8)
  let f := fun (i lo n : Nat) => w i / 2 ^ lo % 2 ^ n
  let r : SpawnRec :=
    { addr := addr, entry := word (w 0), count := w 1, first := f 2 0 16, clusters := f 2 16 16, perCore := f 2 32 8
      mask := f 2 40 8, prio := f 2 48 2, domain := f 2 56 2, chk := f 3 0 1 == 1, re := f 3 1 1 == 1
      nest := f 3 2 1 == 1, save := w 6 }
  let leases := f 5 0 32
  let zs := f 5 32 32
  { rcd := r, leaseAddr := w 4, leases := leases, zs := zs, zAddr := w 7
    ok := decide (w 0 < 2 ^ 56) && w 0 % 4 == 0 && decide (w 1 ≤ 2 ^ 40) && decide (r.first ≤ 95)
      && decide (1 ≤ r.clusters) && decide (r.clusters ≤ 96 - r.first) && decide (1 ≤ r.perCore)
      && decide (r.perCore ≤ 8) && r.mask != 0 && f 2 50 6 == 0 && r.domain != 3 && f 2 58 6 == 0
      && f 3 3 61 == 0 && (leases == 0 || w 4 % 16 == 0) && decide (leases ≤ 4096) && decide (zs ≤ 16)
      && w 6 % 65536 == 0 && (zs == 0 || w 7 % 8 == 0) }

/-- A lease entry is legal (R41). -/
def leaseOk (e : Nat × Nat) : Bool :=
  e.1 % 65536 == 0 && e.2 % 65536 == 0 && e.2 != 0 && decide (e.1 + e.2 ≤ 2 ^ 56)

/-- Read `n` lease entries: those read, and the stop of a read that faults. -/
def State.readLeases (s : State) (addr : Nat) : Nat → List (Nat × Nat) × Option Stop × State
  | 0 => ([], none, s)
  | n + 1 =>
    match s.load (word addr) 16 true with
    | .error e => ([], some e, s)
    | .ok (bs, t) =>
      let r := t.readLeases (addr + 16) n
      ((leNat (slice bs 0 8), leNat (slice bs 8 8)) :: r.1, r.2.1, r.2.2)

/-- Read `n` z-initial values. -/
def State.readWords (s : State) (addr : Nat) : Nat → List Nat × Option Stop × State
  | 0 => ([], none, s)
  | n + 1 =>
    match s.load (word addr) 8 true with
    | .error e => ([], some e, s)
    | .ok (bs, t) =>
      let r := t.readWords (addr + 8) n
      (leNat bs :: r.1, r.2.1, r.2.2)

/-- The record, its leases and its z-initial values (R39 to R41, R152). A nested spawn that its instance does not allow
is ILL, which comes before the alignment and the load of the record (R40, R389). -/
def State.readRecord (s : State) (rec_ : Word) (nested : Bool) :
    Except Stop (SpawnRec × List (Nat × Nat) × Vector Word 16 × State) := do
  let p ← s.place rec_ 64
  match p with
  | .app _ => pure ()
  | .peer _ _ => pure ()
  | .spad _ _ => fault (fltAt cADR 0 rec_.toNat)
  | .reg _ _ => fault (fltAt cADR 0 rec_.toNat)
  let mayNest := match s.instOf s.cur with
    | some i => i.rcd.nest
    | none => false
  require (!nested || mayNest) (flt cILL 0)
  aligned rec_ 64
  let r ← s.load rec_ 64 true
  let raw := parseRecord rec_.toNat r.1
  require raw.ok (flt cSHP 1)
  let ls := r.2.readLeases raw.leaseAddr raw.leases
  let zs := match ls.2.1 with
    | none => ls.2.2.readWords raw.zAddr raw.zs
    | some e => ([], some e, ls.2.2)
  require (ls.1.all leaseOk) (flt cSHP 1)
  match zs.2.1 with
  | some e => .error e
  | none => .ok (raw.rcd, ls.1, Vector.ofFn fun k => word (zs.1.getD k.val 0), zs.2.2)

/-! ## Indices and handles (R9, R43) -/

/-- The lowest instance index that is free. -/
def State.freeIndex (s : State) (x : Sec) : Option (Fin 64) :=
  ((List.range 64).map (Fin.ofNat 64)).find? fun k => !((s.sec x).insts.any fun i => i.idx == some k)

/-- The handle of a record's address and an index (R43). -/
def handleOf (addr : Nat) (idx : Fin 64) : Word := word (addr % 2 ^ 56 / 64 * 64 + idx.val)

/-- Put an instance into the pool. -/
def State.addInst (s : State) (x : Sec) (i : Inst) : State := s.modSec x fun c => { c with insts := c.insts ++ [i] }

/-- An instance takes an index and enters LEASE (R361). -/
def State.giveIndex (s : State) (x : Sec) (uid : Nat) (k : Fin 64) : State :=
  (s.modInst x uid fun i => { i with idx := some k, handle := handleOf i.rcd.addr k, phase := .lease }).post
    (.leaseResidencyCheck x uid)

/-- The issuer's own record of its `spawn` (R158): a master core's latest instance. -/
def State.noteSpawn (s : State) (g : Agent) (uid : Nat) : State :=
  match g with
  | .master x n => s.modMaster x n fun m => { m with lastInst := some uid, finalZ := none }
  | .thread _ _ => s

/-- The instance that a spawn creates, without an index. -/
def State.newInst (s : State) (rcd : SpawnRec) (leases : List (Nat × Nat)) (z : Vector Word 16)
    (regs : Vector Word 12) : Inst :=
  let parent := s.instOf s.cur
  { uid := s.nextId, idx := none, handle := 0, rcd := rcd, asid := s.asidOf s.cur
    owner := match s.cur with
      | .master _ n => .master n
      | .thread _ _ => match s.vtOf s.cur with
        | some v => .vt v
        | none => .gone
    top := match s.cur, parent with
      | .master _ n, _ => n
      | .thread _ _, some p => p.top
      | .thread _ _, none => 0
    parent := parent.map (·.uid)
    leases := leases, probe := leases.head?.map (·.1), z := z, regs := regs
    fmode := s.me.fmode, srseed := s.me.srseed, chk := rcd.chk && (s.sec (secOf s.cur)).rce, phase := .waitIdx, leasePage := 0
    draw := 0, replay := [], vts := [], aborted := false, lost := false, final := none, readySeq := 0, bypass := 0
    probeHit := false, broadcast := false, codeSeq := s.wseq, ovfl := false
    heapUsed := false }

/-- Read s0 to s11, each when full (R152). -/
def State.captureRegs (s : State) : Except Stop (Vector Word 12) := do
  let l ← ((List.range 12).map (Fin.ofNat 16)).mapM s.rdS
  .ok (Vector.ofFn fun k => l.getD k.val 0)

/-- The index that a new entry of the pool takes at once: the lowest free one, if no entry waits for one (R361). -/
def State.poolIndex (s : State) (x : Sec) : Option (Fin 64) :=
  if (s.sec x).insts.any fun n => n.phase == .waitIdx then none else s.freeIndex x

/-- The pool takes no entry now: it is full, or an earlier `spawn` waits for it (R361). -/
def State.poolFull (s : State) (x : Sec) : Bool :=
  decide (1024 ≤ (s.sec x).insts.length) || !(s.sec x).poolWait.isEmpty

/-- The effect of `spawn` and `spawnn` (R152): the checks, the captured registers, a pool entry and an index. The record
and the lists are read once: while the pool is full, what they gave is kept. -/
def State.spawnBody (s : State) (sm : Bool) (d a : Fin 16) (nested : Bool) : Except Stop (State × Next) := do
  let x := secOf s.cur
  let rec_ ← s.rdS a
  let r ← s.readRecord rec_ nested
  let regs ← s.captureRegs
  s.released true
  let t := r.2.2.2
  let i := t.newInst r.1 r.2.1 r.2.2.1 regs
  if t.poolFull x then
    .ok ((t.fresh.modSec x fun c => { c with poolWait := c.poolWait ++ [i] }).parkMe sm (.pool i.uid d), .stay)
  else match t.poolIndex x with
    | some k => done ((((t.fresh.addInst x i).giveIndex x i.uid k).noteSpawn s.cur i.uid).wrS d (handleOf i.rcd.addr k))
    | none => .ok ((t.fresh.addInst x i).parkMe sm (.index i.uid d), .stay)

def execSpawn (sm : Bool) (d a : Fin 16) (s : State) : Host.Outcome State Fault Refusal :=
  s.issue sm fun s => do
    match s.cur with
    | .thread _ _ => fault (flt cPRV 0)
    | .master _ _ => pure ()
    noTx s
    s.spawnBody sm d a false

def execSpawnn (sm : Bool) (d a : Fin 16) (s : State) : Host.Outcome State Fault Refusal :=
  s.issue sm fun s => do
    let _ ← threadOnly s
    noTx s
    s.spawnBody sm d a true

/-! ## Instances by handle (R151) -/

/-- Status values (R150). -/
def finalCode : Final → Nat
  | .done => 0
  | .aborted => 1
  | .lost => 2
def statusRunning : Nat := 3

/-- The executing agent owns the instance. -/
def State.owns (s : State) (i : Inst) : Bool :=
  match i.owner, s.cur with
  | .master n, .master _ m => n == m
  | .vt v, .thread _ _ => s.vtOf s.cur == some v
  | _, _ => false

/-- The instance that a valid handle names for the executing agent, or SHP (R151). -/
def State.byHandle (s : State) (h : Word) (own : Bool) : Except Stop Inst :=
  match (s.sec (secOf s.cur)).insts.find? fun i => i.idx.isSome && i.handle == h with
  | none => fault (flt cSHP 2)
  | some i =>
    let inside := !own && (s.vtOf s.cur).any fun v => v.uid == i.uid
    if s.owns i || inside then .ok i else fault (flt cSHP 2)

/-- Agents parked on an instance's end. -/
def State.joiners (s : State) (uid : Nat) : List Due :=
  s.harts.filterMap fun e => match e.2.park with
    | some (.join u _) => if u = uid then some (.joinComplete (agentOfKey e.1)) else none
    | _ => none

/-- An index and a pool entry are free again: the oldest WAITIDX entry and the parked spawns are served (R361). -/
def State.poolFreed (s : State) (x : Sec) : State := (s.post (.indexAssign x)).post (.poolEntryFree x)

/-- A final status has been observed: the index and the entry are freed; a master core that owns it keeps the final
Zenith values until its next `spawn` (R9, R21, R154). -/
def State.retireInst (s : State) (x : Sec) (i : Inst) : State :=
  let s := match i.owner with
    | .master n =>
      if (s.master x n).lastInst = some i.uid then s.modMaster x n fun m => { m with finalZ := some i.z } else s
    | _ => s
  (s.modSec x fun c => { c with insts := c.insts.filter fun n => n.uid != i.uid }).poolFreed x

/-- `join` parks until the end; `jtest` answers RUNNING instead (R154). -/
def execJoin (sm : Bool) (d a : Fin 16) (s : State) : Host.Outcome State Fault Refusal :=
  s.issue sm fun s => do
    noTx s
    let h ← s.rdS a
    let i ← s.byHandle h true
    match i.final with
    | some f => do
      s.acquiring true
      done (((s.retireInst (secOf s.cur) i).acquired).wrS d (word (finalCode f)))
    | none => .error (.park (.join i.uid d))

def execJtest (sm : Bool) (d a : Fin 16) (s : State) : Host.Outcome State Fault Refusal :=
  s.issue sm fun s => do
    noTx s
    let h ← s.rdS a
    let i ← s.byHandle h true
    match i.final with
    | some f => do
      s.acquiring true
      done (((s.retireInst (secOf s.cur) i).acquired).wrS d (word (finalCode f)))
    | none => done (s.wrS d (word statusRunning))

/-- A parked `join` completes when the instance has ended (R154); while an earlier release is open it executes again, as
an acquire that waits (R311). -/
def execJoinComplete (g : Agent) (s : State) : Host.Outcome State Fault Refusal :=
  event (match (s.hart g).park with
    | some (.join uid d) => match s.inst (secOf g) uid with
      | some i => match i.final with
        | some f =>
          if s.releaseOpen g then s.unpark g
          else (s.retireInst (secOf g) i).completeParked g fun h =>
            { h.putS d (word (finalCode f)) with roSeq := s.wseq }
        | none => s
      | none => s
    | _ => s)

/-! ## The end of an instance (R153) -/

/-- Clear the access tags of an instance (R321). -/
def State.clearTags (s : State) (uid : Nat) : State :=
  (s.marks.filter fun e => e.2.gran.any fun q => (q.2.map (·.1)) == some uid).foldl (fun s e =>
    s.setMarks e.1 { e.2 with gran := e.2.gran.filter fun q => (q.2.map (·.1)) != some uid }) s

/-- The contexts of a sector that are bound to an instance, or hold a number of it that has not begun. -/
def State.boundTo (s : State) (x : Sec) (uid : Nat) : List Nat :=
  s.ctxs.filterMap fun e =>
    if e.1 / 6144 = x.val then match e.2.holds with
      | .bound u => if u = uid then some (e.1 % 6144) else none
      | .drawn u _ => if u = uid then some (e.1 % 6144) else none
      | _ => none
    else none

/-- The owner can no longer join (R9). -/
def State.ownerGone (s : State) (x : Sec) (i : Inst) : Bool :=
  match i.owner with
  | .master _ => false
  | .vt v => match s.inst x v.uid with
    | some p => !(p.vts.any fun t => t.n == v.n)
    | none => true
  | .gone => true

/-- An instance ends: its status is fixed and written to the status block, its leases, tags and slots are given up, its
joiners are due, and an instance that nobody can join frees its index (R9, R153, R397). -/
def State.endInst (s : State) (x : Sec) (i : Inst) : State :=
  let f : Final := if i.aborted then .aborted else if i.lost then .lost else .done
  let s := s.modInst x i.uid fun i => { i with phase := .ended, final := some f, leases := [], broadcast := false }
  let s := s.areaPut x i areaStatus 8 (finalCode f + 4)
  let s := s.areaPut x i (areaStatus + 48) 8 i.draw
  let s := (s.clearTags i.uid).freeOwned x fun o => o.uid == i.uid
  let s := (s.boundTo x i.uid).foldl (fun s k => s.releaseSlot x k) s
  let s := if s.ownerGone x i then s.retireInst x i else s.postAll (s.joiners i.uid)
  s.checkEnds x

def execInstanceEnd (x : Sec) (uid : Nat) (s : State) : Host.Outcome State Fault Refusal :=
  event (match s.inst x uid with
    | some i => if s.endable x i then s.endInst x i else s
    | none => s)

/-! ## Aborting (R155) -/

/-- The instances that descend from those of a list, by as many generations as `n`. -/
def State.descendants (s : State) (x : Sec) : Nat → List Nat → List Nat
  | 0, us => us
  | n + 1, us =>
    let more := (s.sec x).insts.filterMap fun i =>
      if us.contains i.uid then none else if (i.parent.map us.contains).getD false then some i.uid else none
    if more.isEmpty then us else s.descendants x n (us ++ more)

/-- Clear VALID in the fault record at a running index and take it off the count of parked faults (R396, R397). -/
def State.clearFault (s : State) (x : Sec) (inst : Inst) (i : Nat) : State :=
  let s := s.areaMod x inst (areaRecord i) 8 fun w => w - (w / 2 ^ 32 % 2) * 2 ^ 32
  s.areaMod x inst (areaStatus + 8) 4 fun n => n - 1

/-- Give up the park of an agent: a `spawn` that waits for the pool or an index withdraws its entry, for it executes
again (R142, R361, R392). -/
def State.withdraw (s : State) (g : Agent) : State :=
  let x := secOf g
  match (s.hart g).park with
  | some (.index uid _) => (s.modSec x fun c => { c with insts := c.insts.filter fun i => i.uid != uid }).poolFreed x
  | some (.pool uid _) =>
    (s.modSec x fun c => { c with poolWait := c.poolWait.filter fun i => i.uid != uid }).post (.poolEntryFree x)
  | _ => s

/-- A context stops and loses its vt, which has been aborted or lost. -/
def State.stopContext (s : State) (x : Sec) (inst : Inst) (i : Nat) : State :=
  let g := ctxAgent x i
  let s := ((s.abortTx g txAborted 0).withdraw g).stopQuery g
  let s := match (s.hart g).park with
    | some (.fault _) => s.clearFault x inst i
    | _ => s
  s.leaveSlots x i (s.homeIdx x i)

/-- A migration message of a vt. -/
def Flight.ofVt (f : Flight) (v : VtName) : Bool :=
  match f.body with
  | .migrate m => m.vt.uid == v.uid && m.vt.n == v.n
  | _ => false

/-- Discard the saved image of a vt; one that is parked on a fault has its record cleared (R396, R397, R411). -/
def State.dropSaved (s : State) (x : Sec) (inst : Inst) (v : VtName) : State :=
  let mine := fun (w : Saved) => decide (w.vt = v)
  let s := ((s.sec x).saved.filter fun w => mine w && w.fault.isSome).foldl (fun s w => s.clearFault x inst w.ran) s
  s.modSec x fun c => { c with saved := c.saved.filter fun w => !mine w }

/-- Take every trace of a vt off the sector, wherever it is: its context, its messages, the deposits kept for it (R14),
its saved image, the slots kept for it. -/
def State.stopVt (s : State) (x : Sec) (inst : Inst) (v : Vt) : State :=
  let name : VtName := ⟨inst.uid, v.n⟩
  let s1 := match v.running with
    | some i => s.stopContext x inst i
    | none => s
  let s2 := ((s1.dropEntries x fun f => f.ofVt name).dropDeposits x name).dropSaved x inst name
  let s3 := s2.unreserve x v.home (some name)
  if (s3.ctx x v.home).free then s3.slotFreed x v.home else s3

/-- The generator runs for the head command of a core's matrix queue. -/
def State.genRuns (s : State) (x : Sec) (cl : Fin 96) (co : Fin 8) : Bool :=
  match s.gen with
  | some r => decide (r.for_ = .command x cl co ∨ r.for_ = .list x cl co)
  | none => false

/-- Cancel the commands of an instance's vts that have not been started (R155): those of the engine, copy, gather, lease
and network units. A head command for which the generator runs has been started. The entries of the queues are free
(R373). -/
def State.cancelQueued (s : State) (x : Sec) (p : VtName → Bool) : State :=
  let of := fun (a : Actor) => match a.vt with
    | some v => p v
    | none => false
  let cut := ((List.range 96).map (Fin.ofNat 96)).filter fun cl =>
    let c := s.cluster x cl
    c.mx.toList.any (fun q => q.any fun m => of m.actor) || c.cp.toList.any fun q => q.any fun m => of m.actor
  let s := s.modSec x fun c => { c with asyncs := c.asyncs.filter fun a => a.started || !of a.actor }
  cut.foldl (fun s cl => (s.modCluster x cl fun c =>
      { c with
        mx := Vector.ofFn fun co => ((c.mx.get co).zipIdx.filter fun m =>
          m.1.left.isSome || (m.2 == 0 && s.genRuns x cl co) || !of m.1.actor).map (·.1)
        cp := c.cp.map fun q => q.filter fun m => !of m.actor }).queuesCut x cl) s

/-- An instance that no agent can join any more: once it has ended, its index is freed (R9, R386). -/
def State.orphan (s : State) (x : Sec) (i : Inst) : State :=
  let s := s.modInst x i.uid fun i => { i with owner := .gone }
  if i.final.isSome then s.retireInst x i else s

/-- The status block of an instance as its residency check leaves it (R397). -/
def State.initStatus (s : State) (x : Sec) (i : Inst) : State :=
  s.areaWrite x i.asid (i.rcd.save + areaStatus) (leBytes 8 statusRunning ++ List.replicate 56 0)

/-- Abort one instance (R155). -/
def State.abortInst (s : State) (x : Sec) (uid : Nat) (orphan : Bool) : State :=
  match s.inst x uid with
  | none => s
  | some i =>
    if i.final.isSome then if orphan then s.orphan x i else s
    else if i.phase = .waitIdx then
      (s.modSec x fun c => { c with insts := c.insts.filter fun n => n.uid != uid }).poolFreed x
    else
      let s := if i.phase = .lease then s.initStatus x i else s
      let s := s.modInst x uid fun i =>
        { i with aborted := true, phase := .drained, replay := [], vts := []
                 owner := if orphan then .gone else i.owner }
      let s := i.vts.foldl (fun s v => s.stopVt x i v) s
      let s := (s.boundTo x uid).foldl (fun s k => s.releaseSlot x k) s
      ((s.cancelQueued x fun v => v.uid == uid).dropJobs x fun v => v.uid == uid).clearTags uid
        |>.freeOwned x fun o => o.uid == uid

/-- Abort an instance and everything that descends from it (R155). -/
def State.abortTree (s : State) (x : Sec) (uid : Nat) : State :=
  ((s.descendants x 1024 [uid]).foldl (fun s u => s.abortInst x u (u != uid)) s).checkEnds x

/-- `spabort` does not wait; a vt that ends its own instance issues nothing further. -/
def execSpabort (sm : Bool) (a : Fin 16) (s : State) : Host.Outcome State Fault Refusal :=
  s.issue sm fun s => do
    noTx s
    let h ← s.rdS a
    let i ← s.byHandle h false
    let x := secOf s.cur
    let own := match s.vtOf s.cur with
      | some v => (s.descendants x 1024 [i.uid]).contains v.uid
      | none => false
    .ok (s.abortTree x i.uid, if own then .stay else .seq)

/-! ## Resuming a faulted context (R156, R399) -/

/-- The saved image of an instance at an index that is parked on a fault. -/
def State.savedFault (s : State) (x : Sec) (uid i : Nat) : Option Saved :=
  (s.sec x).saved.find? fun w => w.uid == uid && w.ran == i && w.fault.isSome

/-- Resume the context of an instance that is parked on a fault at an index: the state, or none when there is none. -/
def State.resume (s : State) (x : Sec) (inst : Inst) (i : Nat) (skip : Bool) : Option State :=
  let g := ctxAgent x i
  match (s.vtAt x i).any (fun v => v.uid == inst.uid), (s.hart g).park with
  | true, some (.fault next) =>
    some ((s.modHart g fun h => { h with park := none, sWait := false, pc := if skip then next else h.pc }).clearFault
      x inst i)
  | _, _ => match s.savedFault x inst.uid i with
    | none => none
    | some w =>
      let s := s.modSec x fun c => { c with saved := c.saved.map fun v => if v.order = w.order then { v with fault := none } else v }
      let s := match skip, w.fault with
        | true, some next => s.areaPut x inst (areaImage w.idx + 0x580) 8 next.toNat
        | _, _ => s
      some (s.clearFault x inst i)

def execTres (sm : Bool) (d a b : Fin 16) (k : Bool) (s : State) : Host.Outcome State Fault Refusal :=
  s.issue sm fun s => do
    noTx s
    let h ← s.rdS a
    let n ← s.rdS b
    let i ← s.byHandle h true
    let x := secOf s.cur
    if 6144 ≤ n.toNat then done (s.wrS d 1)
    else match s.resume x i n.toNat k with
      | some t => done (t.wrS d 0)
      | none => done (s.wrS d 1)

/-! ## The spawn unit (R348, R361 to R367) -/

/-- The agent that waits for an instance's index. -/
def State.indexWaiter (s : State) (uid : Nat) : Option (Agent × Fin 16) :=
  firstSome (fun e => match e.2.park with
    | some (.index u d) => if u = uid then some (agentOfKey e.1, d) else none
    | _ => none) s.harts

/-- The agent that waits for the pool with an instance. -/
def State.poolWaiter (s : State) (uid : Nat) : Option (Agent × Fin 16) :=
  firstSome (fun e => match e.2.park with
    | some (.pool u d) => if u = uid then some (agentOfKey e.1, d) else none
    | _ => none) s.harts

/-- A `spawn` that has waited for the pool enters it (R361): it completes with an index, or waits for one. -/
def State.enterPool (s : State) (x : Sec) (i : Inst) : State :=
  let t := s.modSec x fun c => { c with poolWait := c.poolWait.filter fun n => n.uid != i.uid }
  match s.poolWaiter i.uid with
  | none => t
  | some (g, d) => match t.poolIndex x with
    | some k => (((t.addInst x i).giveIndex x i.uid k).noteSpawn g i.uid).completeParked g fun h =>
        h.putS d (handleOf i.rcd.addr k)
    | none => (t.addInst x i).modHart g fun h => { h with park := some (.index i.uid d) }

/-- A free pool entry goes to the oldest `spawn` that waits for the pool. -/
def execPoolEntryFree (x : Sec) (s : State) : Host.Outcome State Fault Refusal :=
  event (match (s.sec x).poolWait with
    | i :: rest =>
      if 1024 ≤ (s.sec x).insts.length then s
      else
        let t := s.enterPool x i
        if rest.isEmpty then t else t.post (.poolEntryFree x)
    | [] => s)

/-- A freed index goes to the oldest WAITIDX entry, whose issuer's instruction completes (R361). -/
def execIndexAssign (x : Sec) (s : State) : Host.Outcome State Fault Refusal :=
  event (match (s.sec x).insts.find? fun i => i.phase == .waitIdx, s.freeIndex x with
    | some i, some k =>
      let s := s.giveIndex x i.uid k
      let s := match s.indexWaiter i.uid with
        | some (g, d) => (s.noteSpawn g i.uid).completeParked g fun h => h.putS d (handleOf i.rcd.addr k)
        | none => s
      if (s.sec x).insts.any fun n => n.phase == .waitIdx then s.post (.indexAssign x) else s
    | _, _ => s)

/-- The pages that the residency check takes, in order (R348): those of each lease, then the first 16 MiB of the
save-and-fault area. -/
def checkPages (i : Inst) : List (Nat × Nat) := i.leases ++ [(i.rcd.save, 0x1000000)]

/-- Page number `k` of a list of ranges. -/
def pageAt : List (Nat × Nat) → Nat → Option Nat
  | [], _ => none
  | (b, l) :: rs, k => if k < l / 65536 then some (b + k * 65536) else pageAt rs (k - l / 65536)

/-- How many pages a list of ranges has. -/
def pageCount (rs : List (Nat × Nat)) : Nat := rs.foldl (fun a r => a + r.2 / 65536) 0

/-- The first page from `k` on without a valid readable leaf, among `fuel` pages (R348). -/
def State.firstAbsent (s : State) (x : Sec) (asid : BitVec 16) (rs : List (Nat × Nat)) : Nat → Nat → Option (Nat × Nat)
  | 0, _ => none
  | fuel + 1, k =>
    match pageAt rs k with
    | none => none
    | some va => match s.walk x asid va with
      | .ok t => if t.perm.rd then s.firstAbsent x asid rs fuel (k + 1) else some (k, va)
      | .error _ => some (k, va)

/-- The probe of an entry hits when the LLC holds the line (R365). -/
def State.probe (s : State) (x : Sec) (i : Inst) : Bool :=
  match i.probe with
  | some va => (s.line (lineKey x i.asid va)).isSome
  | none => false

/-- An entry becomes READY (R361, R362, R365). -/
def State.makeReady (s : State) (x : Sec) (i : Inst) : State :=
  let seq := (s.sec x).readySeq
  let hit := s.probe x i
  ((s.modSec x fun c => { c with readySeq := seq + 1 }).modInst x i.uid fun i =>
    { i with phase := .ready, readySeq := seq, bypass := 0, probeHit := hit }).post (.readyBroadcast x i.uid)

/-- The residency check of an entry in LEASE: the first page that fails holds it and tells the master core; when every
page passes the entry becomes READY, or ends at once if it has no vt. -/
def execLeaseResidencyCheck (x : Sec) (uid : Nat) (s : State) : Host.Outcome State Fault Refusal :=
  event (match s.inst x uid with
    | none => s
    | some i =>
      if i.phase ≠ .lease then s
      else
        let rs := checkPages i
        match s.firstAbsent x i.asid rs (pageCount rs - i.leasePage) i.leasePage with
        | some (k, va) => (s.modInst x uid fun i => { i with leasePage := k }).irq x i.top irqLease (word va)
        | none =>
          let s := s.initStatus x i
          if i.rcd.count = 0 then (s.modInst x uid fun i => { i with phase := .drained }).post (.instanceEnd x uid)
          else s.makeReady x i)

/-- The broadcast reaches the clusters, and idle contexts can choose (R362). -/
def execReadyBroadcast (x : Sec) (uid : Nat) (s : State) : Host.Outcome State Fault Refusal :=
  event (match s.inst x uid with
    | some i => if i.phase = .ready then (s.modInst x uid fun i => { i with broadcast := true }).offer x else s
    | none => s)

/-- The residency probe of a READY entry (R365). -/
def execResidencyProbe (x : Sec) (uid : Nat) (s : State) : Host.Outcome State Fault Refusal :=
  event (match s.inst x uid with
    | some i => if i.phase = .ready then s.modInst x uid fun i => { i with probeHit := s.probe x i } else s
    | none => s)

/-- The entry that a context chooses among READY ones for which it is eligible (R364). -/
def chooseEntry (ns : List Inst) : Option Inst :=
  let top := ns.foldl (fun p n => Nat.max p n.rcd.prio) 0
  let ns := ns.filter fun n => n.rcd.prio == top
  let oldest := fun (l : List Inst) => l.foldl (fun (b : Option Inst) n => match b with
    | none => some n
    | some m => if n.readySeq < m.readySeq then some n else some m) none
  match oldest (ns.filter fun n => n.bypass == 4) with
  | some n => some n
  | none => match oldest (ns.filter (·.probeHit)) with
    | some n => some n
    | none => oldest ns

/-- A choice counts as a bypass of every older entry of the same priority (R366). -/
def State.countBypass (s : State) (x : Sec) (i : Nat) (c : Inst) : State :=
  s.modSec x fun q => { q with insts := q.insts.map fun n =>
    if n.uid = c.uid then { n with bypass := 0 }
    else if n.phase = .ready ∧ n.broadcast ∧ n.rcd.prio = c.rcd.prio ∧ n.readySeq < c.readySeq ∧ n.eligible i then
      { n with bypass := n.bypass + 1 }
    else n }

/-- A free slot chooses an instance and sends a draw; earlier claims on the slot come first (R364, R377, R404). -/
def execContextChoose (g : Agent) (s : State) : Host.Outcome State Fault Refusal :=
  event (match g with
    | .master _ _ => s
    | .thread x i =>
      if !s.slotFree x i.val then s
      else if s.dWanted x i.val || s.messageWaits x (clusterOf i.val) || (s.imageFor x i.val).isSome then s.slotFreed x i.val
      else match chooseEntry ((s.sec x).insts.filter fun n => n.phase == .ready && n.broadcast && n.eligible i.val) with
        | none => s
        | some n =>
          (((s.countBypass x i.val n).modCtx x i.val fun c => { c with holds := .bound n.uid }).post
            (.drawRequest g)).offer x)

/-- The number that a draw returns, and the instance after it (R363): a draw that meets no listed number adds 1 to the
draw register. An entry that gives no further number, though its draw register lies below the count, has been aborted or
lost its vts (R155, R385): its register stays. -/
def Inst.drawNumber (i : Inst) : Option Nat × Inst :=
  match i.replay with
  | n :: r => (some n, { i with replay := r })
  | [] =>
    if i.rcd.count ≤ i.draw then (none, { i with draw := i.draw + 1 })
    else if i.phase = .ready then (some i.draw, { i with draw := i.draw + 1 }) else (none, i)

/-- No number remains (R361, R363). -/
def Inst.exhausted (i : Inst) : Bool := i.replay.isEmpty && decide (i.rcd.count ≤ i.draw)

/-- A draw (R363): the oldest number of the replay list, else the draw register; without a number the context is
released and chooses again. -/
def execDrawRequest (g : Agent) (s : State) : Host.Outcome State Fault Refusal :=
  event (match g with
    | .master _ _ => s
    | .thread x i => match (s.ctx x i.val).holds with
      | .bound uid =>
        if s.dWanted x i.val && s.slotUp x i.val then s.post (.dSlotFree x (clusterOf i.val))
        else match s.inst x uid with
          | none => s.releaseSlot x i.val
          | some n =>
            let r := n.drawNumber
            let m := { r.2 with phase := if r.2.exhausted ∧ n.phase = .ready then .drained else n.phase }
            match r.1 with
            | some k => ((s.modInst x uid fun _ => { m with vts := m.vts ++ [⟨k, i.val, none⟩] }).modCtx x i.val fun c =>
                { c with holds := .drawn uid k }).post (.vtStart g)
            | none =>
              (((s.modInst x uid fun _ => m).releaseSlot x i.val).checkEnds x).kickPreempt x (clusterOf i.val) (coreOf i.val)
      | _ => s)

/-- The registers with which a vt begins (R44). -/
def startHart (h : Hart) (inst : Inst) (n : Nat) (i : Nat) (seq : Nat) : Hart :=
  { Hart.resetThread with
    s := Vector.ofFn fun k =>
      if k.val < 12 then ⟨inst.regs.toList.getD k.val 0, true, false⟩
      else if k.val = 12 then ⟨word n, true, false⟩
      else if k.val = 13 then ⟨inst.handle, true, false⟩
      else if k.val = 14 then ⟨word (0xFF40000000000000 + 0x1C0000 + (i % 64 + 1) * 0x1000), true, false⟩
      else ⟨0, true, false⟩
    pc := inst.rcd.entry, fmode := inst.fmode, srseed := inst.srseed + word n, pushEpoch := h.pushEpoch, roSeq := seq }

/-- A vt begins on its home context (R44, R225, R266). -/
def State.startVt (s : State) (x : Sec) (i : Fin 6144) (inst : Inst) (n : Nat) : State :=
  let g : Agent := .thread x i
  let h := s.hart g
  let c := s.ctx x i.val
  let s := s.setHart g (startHart h inst n i.val s.wseq)
  let s := s.setCtx x i.val { Ctx.reset (agentKey g) with
    holds := .running ⟨inst.uid, n⟩, vtn := word n, sph := inst.handle, seq := c.seq }
  (s.setRunning x ⟨inst.uid, n⟩ (some i.val)).enlist g

def execVtStart (g : Agent) (s : State) : Host.Outcome State Fault Refusal :=
  event (match g with
    | .master _ _ => s
    | .thread x i => match (s.ctx x i.val).holds with
      | .drawn uid n => match s.inst x uid with
        | some inst => (s.startVt x i inst n).kickPreempt x (clusterOf i.val) (coreOf i.val)
        | none => s.releaseSlot x i.val
      | _ => s)

end Sys2Proof.Machine
end

