-- ==== Sys2Proof/Machine/Loss.lean ====
section
/-! DEFINITION. Unit loss and replay: which vts are lost, what is taken away with them, and what becomes of their
instances (R383 to R386, R397, R410, R418). -/

namespace Sys2Proof.Machine

/-! ## Which vts are lost (R383) -/

/-- A cluster or sector index lies on a chiplet. -/
def onChiplet (ch : Fin 4) (i : Nat) : Bool := chipletOf (clusterOf i) == ch

/-- The vt of a migration message to or from the chiplet. -/
def Flight.ties (f : Flight) (x : Sec) (ch : Fin 4) : Option VtName :=
  match f.body with
  | .migrate m =>
    if f.sec = x ∧ (chipletOf f.cl = ch ∨ chipletOf (Fin.ofNat 96 m.from_) = ch) then some m.vt else none
  | _ => none

/-- The vts of the migration messages that tie them to the chiplet (R383): in flight to or from it, or a record in an
inbox or heap of a cluster of it. -/
def State.tied (s : State) (x : Sec) (ch : Fin 4) : List VtName :=
  let held := s.inboxes x ++ (s.sec x).stored.map (·.flight)
  (((s.flight ++ (s.sec x).refused).filter fun f => f.sec == x) ++ held.filter fun f => chipletOf f.cl == ch).filterMap
    fun f => f.ties x ch

/-- The vts of an instance that a fence of the chiplet loses, by number in ascending order. -/
def State.lostVts (s : State) (x : Sec) (ch : Fin 4) (i : Inst) : List Vt :=
  let tied := s.tied x ch
  let lost := i.vts.filter fun v =>
    onChiplet ch v.home || (v.running.map (onChiplet ch)).getD false || tied.contains ⟨i.uid, v.n⟩
  lost.mergeSort fun a b => decide (a.n ≤ b.n)

/-! ## Taking lost vts away -/

/-- The agents of a chiplet. -/
def agentOn (x : Sec) (ch : Fin 4) (g : Agent) : Bool := secOf g == x && chipletOfAgent g == ch

/-- The generator's run for a head command of a lost vt is given up. -/
def State.stopRunOf (s : State) (x : Sec) (p : Actor → Bool) : State :=
  let heads := fun (y : Sec) (cl : Fin 96) (co : Fin 8) =>
    y == x && match (s.cluster x cl).mx.get co with
      | h :: _ => p h.actor
      | [] => false
  match s.gen with
  | some r => match r.for_ with
    | .command y cl co => if heads y cl co then s.stopRun else s
    | .list y cl co => if heads y cl co then s.stopRun else s
    | .query _ _ _ _ _ => s
  | none => s

/-- The accesses of lost vts that have not been accepted are dropped, with their commands, messages and job records
(R327, R383). What the fence has accepted from the chiplet goes on (R417). -/
def State.dropWork (s : State) (x : Sec) (ch : Fin 4) (p : VtName → Bool) : State :=
  let of := fun (a : Actor) => secOf a.agent == x && match a.vt with
    | some v => p v
    | none => false
  let open_ := fun (a : Actor) => of a && !agentOn x ch a.agent
  let flown := fun (f : Flight) => open_ f.actor || match f.body with
    | .migrate m => p m.vt
    | _ => false
  let s := State.discard { s.stopRunOf x of with
    bankq := s.bankq.filter fun b => !open_ b.actor
    zreqs := s.zreqs.filter fun r => !(secOf r.agent == x && r.vt.any p && !agentOn x ch r.agent) } x flown
  let cut := ((List.range 96).map (Fin.ofNat 96)).filter fun cl =>
    let c := s.cluster x cl
    c.mx.toList.any (fun q => q.any fun m => of m.actor) || c.cp.toList.any (fun q => q.any fun m => of m.actor)
      || c.cpRunning.any fun m => of m.actor
  let s := cut.foldl (fun s cl => (s.modCluster x cl fun c => { c with
    mx := c.mx.map fun q => q.filter fun m => !of m.actor
    cp := c.cp.map fun q => q.filter fun m => !of m.actor
    cpRunning := c.cpRunning.filter fun m => !of m.actor }).queuesCut x cl) s
  (s.dropJobs x p).modSec x fun c => { c with asyncs := c.asyncs.filter fun a => !of a.actor }

/-! ## What becomes of the instance (R384, R385, R397) -/

/-- Append numbers to the unit-lost list and count them. -/
def State.listLost (s : State) (x : Sec) (i : Inst) (ns : List Nat) : State :=
  let r := s.areaGet x i (areaStatus + 24) 8
  let s := r.2.areaWrite x i.asid (i.rcd.save + areaLost + 8 * r.1) (ns.flatMap fun n => leBytes 8 n)
  s.areaPut x i (areaStatus + 24) 8 (r.1 + ns.length)

/-- A context of a chiplet in service is eligible for the instance. -/
def State.survives (s : State) (x : Sec) (i : Inst) : Bool :=
  (List.range 6144).any fun k => !s.isFenced x (chipletOf (clusterOf k)) && i.eligible k

/-- Settle an instance whose vts with the given numbers are lost: they go behind what the replay list holds (R363,
R384). -/
def State.settleLoss (s : State) (x : Sec) (i : Inst) (ns : List Nat) : State :=
  if !i.rcd.re then
    (s.modInst x i.uid fun i => { i with phase := .drained, lost := true }).listLost x i ns
  else
    let all := i.replay ++ ns
    if s.survives x i then
      let s := s.modInst x i.uid fun i => { i with replay := all }
      if i.phase = .drained then
        match s.inst x i.uid with
        | some j => s.makeReady x j
        | none => s
      else s
    else
      (s.modInst x i.uid fun i => { i with replay := [], phase := .drained, lost := true }).listLost x i all

/-- The lost vts of one instance are taken away and the instance is settled. -/
def State.loseVts (s : State) (x : Sec) (ch : Fin 4) (i : Inst) (lost : List Vt) : State :=
  let ns := lost.map (·.n)
  let s := lost.foldl (fun s v => s.stopVt x i v) s
  let s := s.modInst x i.uid fun i => { i with vts := i.vts.filter fun v => !ns.contains v.n }
  let s := lost.foldl (fun s v => (s.unbindVt x i.uid v.home)) s
  let s := s.dropWork x ch fun v => v.uid == i.uid && ns.contains v.n
  match s.inst x i.uid with
  | some i => s.settleLoss x i ns
  | none => s

/-- Instances owned by lost vts are aborted with all that descends from them (R386). -/
def State.abortOwned (s : State) (x : Sec) (uid : Nat) (ns : List Nat) : State :=
  let kids := (s.sec x).insts.filter fun i => match i.owner with
    | .vt v => v.uid == uid && ns.contains v.n
    | _ => false
  let all := s.descendants x 1024 (kids.map (·.uid))
  all.foldl (fun s u => s.abortInst x u true) s

/-! ## Telling the owner (R410) -/

/-- Tell a master core of an instance's loss. -/
def State.tellLoss (s : State) (x : Sec) (ch : Fin 4) (i : Inst) : State :=
  match i.owner with
  | .master n => s.chl x n ch i.handle
  | _ => s

/-- A vt that moves to a chiplet that has been fenced is lost (R418): it is settled as one lost at the fence, and its
owner is told (log entry 122). -/
def State.loseMoving (s : State) (x : Sec) (ch : Fin 4) (v : VtName) : State :=
  match s.inst x v.uid with
  | none => s
  | some i => match i.vts.find? fun t => t.n == v.n with
    | none => s
    | some t => (((s.loseVts x ch i [t]).abortOwned x i.uid [t.n]).tellLoss x ch i).checkEnds x

end Sys2Proof.Machine
end

