-- ==== Sys2Proof/Machine/Deliver.lean ====
section
/-! DEFINITION. Messages to clusters: pushes, deposits and migration messages, the inboxes and what happens when they
are full (R14, R166, R167, R170, R377 to R382, R401, R406). -/

namespace Sys2Proof.Machine

/-! ## Records of the overflow heap and the spill queue (R166, R380) -/

/-- The 160 bytes of a migration message. -/
def migBytes (m : Migration) (idx : Nat) : List Byte :=
  m.regs.toList.flatMap (fun w => leBytes 8 w.toNat)
  ++ leBytes 8 m.pc.toNat ++ leBytes 8 m.srseed.toNat
  ++ leBytes 8 (m.vt.n % 2 ^ 40 + idx % 64 * 2 ^ 40 + m.hpri.val * 2 ^ 46 + m.fflags.toNat % 32 * 2 ^ 48)
  ++ leBytes 2 (m.fmode.toNat % 512 + (m.preds.toList.zipIdx.foldl (fun a p => a + p.1.toNat * 2 ^ p.2) 0 / 2 % 128) * 512)
  ++ leBytes 2 (m.home / 64 % 128 + m.home % 64 * 128 + m.bound.toNat * 2 ^ 13)
  ++ leBytes 2 m.seq.toNat ++ leBytes 2 0

/-- A migration message read back from its 160 bytes; the instance is the one with the index. -/
def State.parseMig (s : State) (x : Sec) (cl : Nat) (bs : List Byte) : Option Migration :=
  let n := fun (o k : Nat) => leNat (slice bs o k)
  let w := n 0x90 8
  match (s.sec x).insts.find? fun i => (i.idx.map (·.val)) == some (w / 2 ^ 40 % 64) with
  | none => none
  | some i => some
      { regs := Vector.ofFn fun k => word (n (8 * k.val) 8), pc := word (n 0x80 8), srseed := word (n 0x88 8)
        fflags := word (w / 2 ^ 48 % 32), fmode := fmodeStored (word (n 0x98 2 % 512))
        preds := Vector.ofFn fun k => if k.val = 0 then false else n 0x98 2 / 2 ^ (8 + k.val) % 2 == 1
        hpri := Fin.ofNat 4 (w / 2 ^ 46), vt := ⟨i.uid, w % 2 ^ 40⟩
        home := n 0x9A 2 % 128 * 64 + n 0x9A 2 / 128 % 64, seq := BitVec.ofNat 16 (n 0x9C 2)
        bound := n 0x9A 2 / 2 ^ 13 % 2 == 1, from_ := cl, roSeq := s.wseq, unread := [] }

/-- The 192 bytes of a record (R380). -/
def State.recordBytes (s : State) (f : Flight) (order : Nat) : List Byte :=
  let head := fun (t ctx reg : Nat) =>
    leBytes 8 (t + f.cl.val * 2 ^ 8 + ctx % 64 * 2 ^ 15 + reg * 2 ^ 21) ++ leBytes 8 order ++ List.replicate 16 0
  match f.body with
  | .migrate m =>
    let idx := ((s.inst f.sec m.vt.uid).bind (·.idx)).map (·.val)
    head 1 0 0 ++ migBytes m (idx.getD 0)
  | .deposit c r v => head 2 c.val r.val ++ leBytes 8 v.toNat ++ List.replicate 152 0
  | .push _ _ => head 0 0 0 ++ List.replicate 160 0

/-- The parcel of a record, if it is live. -/
def State.parseRecordBody (s : State) (x : Sec) (bs : List Byte) : Option (Nat × Parcel) :=
  let w := leNat (slice bs 0 8)
  let cl := w / 2 ^ 8 % 128
  match w % 256 with
  | 1 => (s.parseMig x cl (slice bs 32 160)).map fun m => (cl, .migrate m)
  | 2 => some (cl, .deposit (Fin.ofNat 6144 (cl * 64 + w / 2 ^ 15 % 64)) (Fin.ofNat 16 (w / 2 ^ 21))
      (word (leNat (slice bs 32 8))))
  | _ => none

/-! ## Messages in flight -/

/-- A message in flight. -/
def State.flightOf (s : State) (id : Nat) : Option Flight := s.flight.find? fun f => f.id == id

/-- Take a message out of flight. -/
def State.unfly (s : State) (id : Nat) : State := { s with flight := s.flight.filter fun f => f.id != id }

/-- The copy command writes scratchpad bytes of a cluster as pushes. -/
def CpCmd.pushesTo (c : CpCmd) (cl : Fin 96) : Bool :=
  match c.op with
  | .send => match placeOf c.actor.agent c.dst.toNat 1 with
    | .ok (.spad k _) => k == cl
    | _ => false
  | .sendm => c.set.contains cl.val
  | _ => false

/-- Two pushes to one cluster write a common byte. -/
def Parcel.overlaps (p q : Parcel) : Bool :=
  match p, q with
  | .push o b, .push o' b' => decide (max o o' < min (o + b.length) (o' + b'.length))
  | _, _ => false

/-- A push of an earlier division of the issuer to the same cluster has not been accepted (R170), or an earlier push of
it to the same byte (R313). -/
def State.heldBack (s : State) (f : Flight) : Bool :=
  let earlier := fun (e : Flight) => e.actor.same f.actor && e.cl == f.cl && (decide (e.actor.epoch < f.actor.epoch)
    || (e.actor.job == 0 && f.actor.job == 0 && decide (e.id < f.id) && e.body.overlaps f.body))
  let cmd := fun (c : CpCmd) =>
    c.actor.same f.actor && decide (c.actor.epoch < f.actor.epoch) && c.pushesTo f.cl
  s.anyMessage f.sec earlier || s.clusters.any fun e => e.2.cpRunning.any cmd || e.2.cp.toList.any fun q => q.any cmd

/-- Bytes of a copy command have been accepted (R275). -/
def State.cpSettled (s : State) (x : Sec) (a : Actor) (n : Nat) : State :=
  if a.job = 0 then s
  else
    let cl := Fin.ofNat 96 (a.home / 64)
    let here := fun (s : State) (cl : Fin 96) =>
      (s.cluster x cl).cpRunning.find? fun c => c.actor.seq == a.seq && c.actor.job == a.job && c.actor.home == a.home
    let upd := fun (s : State) (cl : Fin 96) (id : Nat) =>
      (s.modCluster x cl fun c => { c with cpRunning := c.cpRunning.map fun k =>
        if k.id = id then { k with unaccepted := k.unaccepted - n } else k }).post (.copyComplete x cl id)
    match here s cl with
    | some c => upd s cl c.id
    | none => match ((List.range 96).map (Fin.ofNat 96)).find? fun k => (here s k).isSome with
      | some k => match here s k with
        | some c => upd s k c.id
        | none => s
      | none => s

/-- A push is accepted at its bank (R170, R279): the bytes, the full bits, the arrival marks. One toward a fenced
chiplet is discarded and counts as accepted (R418). -/
def State.acceptPush (s : State) (f : Flight) (off : Nat) (data : List Byte) : State :=
  let s := s.unfly f.id
  let s := if s.isFenced f.sec (chipletOf f.cl) then s
    else (s.spadWrite f.sec f.cl off data).markArrival f.sec f.cl off data.length
  ((s.cpSettled f.sec f.actor data.length).nudge f.actor).checkEnds f.sec

def execPushAccept (id : Nat) (s : State) : Host.Outcome State Fault Refusal :=
  event (match s.flightOf id with
    | none => s
    | some f => match f.body with
      | .push off data => if s.heldBack f then s else s.acceptPush f off data
      | _ => s)

/-! ## Deposits (R14) -/

/-- The issuer has an earlier access that has not been accepted: the deposit is a release (R308, R311). -/
def State.earlierOpen (s : State) (f : Flight) : Bool :=
  s.anyMessage f.sec (fun e => e.actor.same f.actor && e.awaited && decide (e.id < f.id))
    || s.zreqs.any fun r => r.by f.actor && decide (r.id < f.id)

/-- The vt that holds a context for deposits (R14): the one that it runs, the one for which the slot is kept (R162), or
the one that pre-emption saved last from it (R401). -/
def State.holderOf (s : State) (x : Sec) (i : Nat) : Option VtName :=
  match s.vtAt x i, (s.ctx x i).reserved with
  | some v, _ => some v
  | none, some v => some v
  | none, none => (((s.sec x).saved.filter fun w => w.ran == i || (w.needsD && w.idx == i)).getLast?).map (·.vt)

/-- A deposit that is kept for a vt can land in its register: the vt runs there, the register is empty with no local
write outstanding, and no deposit for the vt that reached the cluster before it waits for the register (R14). -/
def State.depositReady (s : State) (f : Flight) (c : Fin 6144) (r : Fin 16) : Bool :=
  let q := (s.hart (.thread f.sec c)).s.get r
  let older := fun (e : Flight) => e.kept == f.kept && (match f.arrived, e.arrived with
      | some m, some n => decide (n < m)
      | none, some _ => true
      | _, none => false) && match e.body with
    | .deposit c' r' _ => c' == c && r' == r
    | _ => false
  let k := s.cluster f.sec f.cl
  f.kept.isSome && s.vtAt f.sec c.val == f.kept && !q.full && !q.claimed && !(k.recvInbox ++ k.reserveBuf).any older

/-- A deposited value fills a register; the first read of it will be an acquire (R13, R325). -/
def State.fillDeposit (s : State) (g : Agent) (r : Fin 16) (v : Word) : State :=
  (s.fillS g r v).modHart g fun h => { h with unread := r :: h.unread }

/-- A deposit lands: the register is full, its readers and a sleeping context wake (R13, R14, R168). -/
def State.landDeposit (s : State) (f : Flight) (c : Fin 6144) (r : Fin 16) (v : Word) : State :=
  let g : Agent := .thread f.sec c
  let s := s.fillDeposit g r v
  let s := match (s.hart g).park with
    | some (.sleep _ _ _ _) => s.post (.sleepWake g)
    | _ => s
  (s.nudge f.actor).checkEnds f.sec

/-- The instance that a message belongs to (R379). -/
def State.instOfFlight (s : State) (f : Flight) : Option Inst :=
  match f.body with
  | .migrate m => s.inst f.sec m.vt.uid
  | .deposit c _ _ => (f.kept.orElse fun _ => s.holderOf f.sec c.val).bind fun v => s.inst f.sec v.uid
  | .push _ _ => none

/-- A message has been taken: a refusal episode of its instance is over (R381). -/
def State.endEpisode (s : State) (f : Flight) : State :=
  match s.instOfFlight f with
  | some i => if i.ovfl then s.modInst f.sec i.uid fun i => { i with ovfl := false } else s
  | none => s

/-- The cluster of a message's sender. -/
def senderCluster (f : Flight) : Option (Fin 96) :=
  match f.body with
  | .migrate m => some (Fin.ofNat 96 m.from_)
  | _ => clusterOfAgent f.actor.agent

/-- Refuse a message with back-pressure (R381): it is held, the owner is told once in an episode, and under the
compatibility policy a probe token goes to the sender's cluster (R382). -/
def State.refuse (s : State) (f : Flight) : State :=
  let s := (s.unfly f.id).modSec f.sec fun c => { c with refused := c.refused ++ [f] }
  let s := match s.instOfFlight f with
    | some i =>
      if i.ovfl then s
      else (s.modInst f.sec i.uid fun i => { i with ovfl := true }).irq f.sec i.top irqOvfl (word (f.cl.val * 64 + 7))
    | none => s
  if (s.sec f.sec).ovp then match senderCluster f with
    | some k =>
      ({ s with tokens := s.tokens ++ [(⟨s.nextId, f.sec, f.cl, k, 1⟩ : Token)], nextId := s.nextId + 1 }).post
        (.probeToken s.nextId)
    | none => s
  else s

/-- A message goes to the spill queue (R401): its context's core is stopped, or the vt for which a deposit is kept waits
as an image that was saved from that context. -/
def State.diverted (s : State) (f : Flight) : Bool :=
  let stopped := fun (i : Nat) => (s.coreSt f.sec (clusterOf i) (coreOf i)).stopped.isSome
  match f.body with
  | .deposit c _ _ => stopped c.val || (s.sec f.sec).saved.any fun w =>
      some w.vt == f.kept && (w.ran == c.val || (w.needsD && w.idx == c.val))
  | .migrate m => m.bound && stopped m.home
  | .push _ _ => false

/-- A message in flight is changed: it is known for whom a deposit is kept. -/
def State.setFlight (s : State) (f : Flight) : State :=
  { s with flight := s.flight.map fun e => if e.id = f.id then f else e }

/-- A message that has reached its cluster. -/
def Flight.at_ (f : Flight) (n : Nat) : Flight := { f with arrived := some n }

/-- Room for a deposit in the receive inbox; without it the overflow policy applies (R377, R379, R382). -/
def State.depositWaits (s : State) (f : Flight) : State :=
  if (s.cluster f.sec f.cl).recvInbox.length < 32 then
    (((s.unfly f.id).fresh).modCluster f.sec f.cl fun c => { c with recvInbox := c.recvInbox ++ [f.at_ s.nextId] }).endEpisode f
  else if (s.sec f.sec).ovp then s.refuse f
  else (s.setFlight f).post (.inboxOverflow f.sec f.cl f.id)

/-- A deposit is discarded, and counts as accepted (R14). -/
def State.dropDeposit (s : State) (f : Flight) : State := ((s.unfly f.id).nudge f.actor).checkEnds f.sec

/-- A deposit reaches its cluster (R14, R401), after every earlier access of its issuer and every push that an `fpush`
divides from it (R170, R311): it lands, waits, is diverted, or is discarded. -/
def State.arriveDeposit (s : State) (f : Flight) (c : Fin 6144) (r : Fin 16) (v : Word) : State :=
  if s.isFenced f.sec (chipletOf f.cl) then s.dropDeposit f
  else if s.heldBack f || s.earlierOpen f then s
  else
    let f := { f with kept := f.kept.orElse fun _ => s.holderOf f.sec c.val }
    if f.kept.isNone then s.dropDeposit f
    else if s.diverted f then (s.setFlight f).post (.spillQueueAppend f.id)
    else if s.depositReady f c r then (s.unfly f.id).landDeposit f c r v
    else s.depositWaits f

def execDepositArrive (id : Nat) (s : State) : Host.Outcome State Fault Refusal :=
  event (match s.flightOf id with
    | none => s
    | some f => match f.body with
      | .deposit c r v => s.arriveDeposit f c r v
      | _ => s)

/-- A waiting deposit lands when its register is empty (R14). -/
def execDepositLand (id : Nat) (s : State) : Host.Outcome State Fault Refusal :=
  event (match firstSome (fun (e : Nat × Cluster) =>
      (e.2.recvInbox ++ e.2.reserveBuf).find? fun f => f.id == id) s.clusters with
    | none => s
    | some f => match f.body with
      | .deposit c r v =>
        if s.depositReady f c r then
          let s := s.modCluster f.sec f.cl fun k =>
            { k with recvInbox := k.recvInbox.filter fun e => e.id != id
                     reserveBuf := k.reserveBuf.filter fun e => e.id != id }
          (s.landDeposit f c r v).inboxFreed f.sec f.cl
        else s
      | _ => s)

/-! ## Migration messages (R166, R167, R377, R378) -/

/-- The key of an origin: home cluster and slot. -/
def originKey (home : Nat) : Nat := home

/-- The window of an origin after a number arrives, or none when the number is a duplicate (R167). -/
def windowNext (w : Option Window) (q : BitVec 16) : Option Window :=
  match w with
  | none => some ⟨q, [q]⟩
  | some w =>
    let d := (q - w.high).toNat
    let keep := fun (h : BitVec 16) (l : List (BitVec 16)) => l.filter fun m => decide ((h - m).toNat ≤ 255)
    if 1 ≤ d ∧ d ≤ 32767 then some ⟨q, keep q (q :: w.marks)⟩
    else if (w.high - q).toNat ≤ 255 ∧ !w.marks.contains q then some ⟨w.high, q :: w.marks⟩
    else none

/-- Saturating increment of MIGDUP (R26). -/
def Cluster.countDup (c : Cluster) : Cluster :=
  { c with migdup := if c.migdup = BitVec.allOnes 32 then c.migdup else c.migdup + 1 }

/-- The registers of a context that a migration message starts (R166). -/
def arrivedHart (h : Hart) (m : Migration) : Hart :=
  { Hart.resetThread with
    s := m.regs.map fun w => ⟨w, true, false⟩, p := m.preds, pc := m.pc, fmode := m.fmode, fflags := m.fflags
    srseed := m.srseed, hpri := m.hpri, jobCtr := h.jobCtr, pushEpoch := h.pushEpoch, roSeq := m.roSeq, unread := m.unread }

/-- A message is admitted to a slot: its number is checked, and the vt runs there (R166, R167, R378). -/
def State.admitTo (s : State) (x : Sec) (cl : Fin 96) (m : Migration) (i : Nat) : State :=
  let c := s.cluster x cl
  match windowNext (Sparse.get none c.windows (originKey m.home)) m.seq with
  | none => s.modCluster x cl Cluster.countDup
  | some w =>
    let s := s.setCluster x cl { c with windows := Sparse.put none c.windows (originKey m.home) (some w) }
    match s.inst x m.vt.uid with
    | none => s
    | some inst =>
      let g := ctxAgent x i
      let h := s.hart g
      let own := s.ctx x i
      let s := s.setHart g (arrivedHart h m)
      let s := s.setCtx x i { Ctx.reset (agentKey g) with
        holds := .running m.vt, vtn := word m.vt.n, sph := inst.handle, homec := ctxidThread (agentKey (ctxAgent x m.home))
        seq := own.seq, drawAfter := own.drawAfter }
      ((s.setRunning x m.vt (some i)).enlist g).landWaiting x i

/-- A vt that an instance still counts (R167). -/
def State.vtLives (s : State) (x : Sec) (v : VtName) : Bool :=
  match s.inst x v.uid with
  | some i => i.vts.any fun t => t.n == v.n
  | none => false

/-- The free slot of a cluster that a message takes: lowest core, then lowest slot, never the service context (R166). -/
def State.freeSlotIn (s : State) (x : Sec) (cl : Fin 96) : Option Nat :=
  ((List.range 64).map fun k => cl.val * 64 + k).find? fun i => s.slotFree x i && !s.dWanted x i

/-- A message for any slot, or for its home slot, can be admitted there now. -/
def State.homeOpen (s : State) (x : Sec) (m : Migration) : Bool :=
  decide ((s.ctx x m.home).reserved = some m.vt) || s.slotFree x m.home

/-- A migration message reaches its cluster (R166, R377, R401). -/
def execMigrationMessageArrive (id : Nat) (s : State) : Host.Outcome State Fault Refusal :=
  event (match s.flightOf id with
    | none => s
    | some f => match f.body with
      | .migrate m =>
        let x := f.sec
        if !s.vtLives x m.vt then s.unfly id
        else if s.isFenced x (chipletOf f.cl) then (s.unfly id).loseMoving x (chipletOf f.cl) m.vt
        else if s.diverted f then s.post (.spillQueueAppend id)
        else match (if m.bound then (if s.homeOpen x m then some m.home else none)
            else if s.messageWaits x f.cl then none else s.freeSlotIn x f.cl) with
          | some i => ((s.unfly id).endEpisode f).admitTo x f.cl m i
          | none =>
            if (s.cluster x f.cl).migInbox.length < 32 then
              let t := (((s.unfly id).fresh).modCluster x f.cl fun c =>
                { c with migInbox := c.migInbox ++ [f.at_ s.nextId] }).endEpisode f
              if !m.bound && (t.freeSlotIn x f.cl).isSome then t.post (.migrationAdmit x f.cl) else t
            else if (s.sec x).ovp then s.refuse f
            else s.post (.inboxOverflow x f.cl id)
      | _ => s)

/-- The message that is admitted next: one whose home slot is open, else the one that reached the cluster first, if it
has a free slot (R377). An entry of the reserve buffer is an inbox entry (R382). -/
def State.nextAdmitted (s : State) (x : Sec) (cl : Fin 96) : Option (Flight × Migration × Nat) :=
  let c := s.cluster x cl
  let boxes := c.migInbox ++ c.reserveBuf
  let slot := fun (home : Bool) (f : Flight) => match f.body with
    | .migrate m =>
      if home then if m.bound ∧ s.homeOpen x m ∧ s.slotUp x m.home then some (f, m, m.home) else none
      else if m.bound then none else (s.freeSlotIn x cl).map fun i => (f, m, i)
    | _ => none
  let first := fun (home : Bool) => (firstArrived (boxes.filter fun f => (slot home f).isSome)).bind (slot home)
  (first true).orElse fun _ => first false

/-- The next waiting message is admitted to a slot (R377, R378). -/
def execMigrationAdmit (x : Sec) (cl : Fin 96) (s : State) : Host.Outcome State Fault Refusal :=
  event (match s.nextAdmitted x cl with
    | none => s
    | some (f, m, i) =>
      let s := s.modCluster x cl fun c => { c with
        migInbox := c.migInbox.filter fun e => e.id != f.id, reserveBuf := c.reserveBuf.filter fun e => e.id != f.id }
      let s := if s.vtLives x m.vt then s.admitTo x cl m i else s
      let s := s.inboxFreed x cl
      if (s.nextAdmitted x cl).isSome then s.post (.migrationAdmit x cl) else s)

/-! ## Overflow heaps (R379, R380) -/

/-- Append a message to the heap of an instance, unless the heap is full; the ring's header is set up at the first use.
The indices of the header count records (log entry 20). -/
def State.heapAppend (s : State) (f : Flight) (i : Inst) : Option State :=
  let s := if i.heapUsed then s else s.areaWrite f.sec i.asid (i.rcd.save + areaHeap) (List.replicate 192 0)
  let h := s.areaGet f.sec i areaHeap 8
  let t := h.2.areaGet f.sec i (areaHeap + 8) 8
  if heapRecords ≤ t.1 - h.1 then none
  else
    let s := t.2.areaWrite f.sec i.asid (i.rcd.save + heapSlot t.1) (t.2.recordBytes f t.1)
    let s := s.modSec f.sec fun c => { c with stored := c.stored ++ [⟨some i.uid, t.1, f⟩] }
    some ((s.areaPut f.sec i (areaHeap + 8) 8 (t.1 + 1)).modInst f.sec i.uid fun i => { i with heapUsed := true })

/-- Move entries to their heaps, in order (R379): the state, or none when one of them finds no heap or a full one.
DESIGN CHOICE (log entry 123): then none of them is moved. -/
def State.heapAll (s : State) : List Flight → Option State
  | [] => some s
  | f :: fs => match s.instOfFlight f with
    | none => none
    | some i => match s.heapAppend f i with
      | none => none
      | some s => s.heapAll fs

/-- The service context empties half of a full inbox into the heaps and takes the arriving message (R379); without room
the message is refused (R381). -/
def execInboxOverflow (x : Sec) (cl : Fin 96) (id : Nat) (s : State) : Host.Outcome State Fault Refusal :=
  event (match s.flightOf id with
    | none => s
    | some f =>
      if f.sec ≠ x ∨ f.cl ≠ cl ∨ (s.sec x).ovp then s
      else
        let c := s.cluster x cl
        let mig := match f.body with
          | .migrate _ => true
          | _ => false
        let box := if mig then c.migInbox else c.recvInbox
        if box.length < 32 then s.post (if mig then .migrationMessageArrive id else .depositArrive id)
        else match s.heapAll (box.take 16) with
          | none => s.refuse f
          | some t =>
            let rest := box.drop 16 ++ [f.at_ t.nextId]
            (((t.unfly id).fresh.modCluster x cl fun c =>
              if mig then { c with migInbox := rest } else { c with recvInbox := rest }).endEpisode f).inboxFreed x cl)

/-- The first live record of a cluster in a heap, from record `k` on. -/
def State.heapFind (s : State) (x : Sec) (i : Inst) (cl : Fin 96) : Nat → Nat → Option (Nat × Nat × Parcel) × State
  | 0, _ => (none, s)
  | fuel + 1, k =>
    let r := s.areaRead x i.asid (i.rcd.save + heapSlot k) 192
    match r.2.parseRecordBody x r.1 with
    | some (d, p) => if d = cl.val then (some (k, d, p), r.2) else r.2.heapFind x i cl fuel (k + 1)
    | none => r.2.heapFind x i cl fuel (k + 1)

/-- The inbox that a record waits in holds fewer than 8 entries (R379). -/
def Cluster.roomFor (c : Cluster) (p : Parcel) : Bool :=
  match p with
  | .migrate _ => decide (c.migInbox.length < 8)
  | _ => decide (c.recvInbox.length < 8)

/-- Put a message on its way again. -/
def State.resend (s : State) (f : Flight) : State :=
  State.post { s with flight := s.flight ++ [{ f with arrived := none }] } (match f.body with
    | .migrate _ => .migrationMessageArrive f.id
    | .deposit _ _ _ => .depositArrive f.id
    | .push _ _ => .pushAccept f.id)

/-- Replay the oldest record of a cluster from one heap through the loop-back port, if its inbox has room. -/
def State.heapTake (s : State) (x : Sec) (i : Inst) (cl : Fin 96) : Option State :=
  let h := s.areaGet x i areaHeap 8
  let t := h.2.areaGet x i (areaHeap + 8) 8
  match t.2.heapFind x i cl (t.1 - h.1) h.1 with
  | (none, _) => none
  | (some (k, _, p), s) => if !(s.cluster x cl).roomFor p then none else
    match (s.sec x).stored.find? fun r => r.heap == some i.uid && r.number == k with
    | some r => some ((s.killRecord x r).resend r.flight)
    | none =>
      let act : Actor := { agent := ctxAgent x (cl.val * 64 + 7), asid := i.asid, vt := none, home := 0, sys := false
                           job := 0, seq := 0, epoch := 0, after := 0 }
      some ((s.heapClear x i k).sendTo x cl act p)

/-- The instances whose heaps hold records of a cluster, that of the oldest record first. -/
def State.heapOrder (s : State) (x : Sec) (cl : Fin 96) : List Inst :=
  (((s.sec x).stored.filter fun r => r.flight.cl == cl).filterMap fun r => r.heap.bind (s.inst x))
    ++ (s.sec x).insts.filter (·.heapUsed)

/-- The service context replays the oldest record while its inbox holds fewer than 8 entries (R379). -/
def execHeapReplay (x : Sec) (cl : Fin 96) (s : State) : Host.Outcome State Fault Refusal :=
  event (match firstSome (fun i => s.heapTake x i cl) (s.heapOrder x cl) with
    | some t => t.post (.heapReplay x cl)
    | none => s)

/-- A refused message is offered again (R381). -/
def execBackpressureRetry (id : Nat) (s : State) : Host.Outcome State Fault Refusal :=
  event (match firstSome (fun (x : Sec) => (s.sec x).refused.find? fun f => f.id == id) [0, 1, 2, 3] with
    | none => s
    | some f =>
      (s.modSec f.sec fun c => { c with refused := c.refused.filter fun e => e.id != id }).resend f)

/-! ## Probe tokens (R382) -/

/-- The inboxes of a cluster are full. -/
def State.blocked (s : State) (x : Sec) (cl : Fin 96) : Bool :=
  let c := s.cluster x cl
  decide (32 ≤ c.migInbox.length) && decide (32 ≤ c.recvInbox.length)

def execProbeToken (id : Nat) (s : State) : Host.Outcome State Fault Refusal :=
  event (match s.tokens.find? fun t => t.id == id with
    | none => s
    | some t =>
      let s := { s with tokens := s.tokens.filter fun u => u.id != id }
      let refused := (s.sec t.sec).refused.find? fun f => f.cl == t.at_
      if t.at_ = t.name then
        match refused with
        | some f =>
          if (s.cluster t.sec t.at_).reserveBuf.length < 4 then
            let u := ((s.fresh.modSec t.sec fun c => { c with refused := c.refused.filter fun e => e.id != f.id }).modCluster
              t.sec t.at_ fun c => { c with reserveBuf := c.reserveBuf ++ [f.at_ s.nextId] }).endEpisode f
            match f.body with
            | .deposit _ _ _ => u.post (.depositLand f.id)
            | .migrate _ => u.post (.migrationAdmit t.sec t.at_)
            | .push _ _ => u
          else s
        | none => s
      else if t.hops ≥ 96 ∨ !s.blocked t.sec t.at_ then s
      else match refused with
        | none => s
        | some f => match senderCluster f with
          | none => s
          | some k => ({ s with tokens := s.tokens ++ [{ t with at_ := k, hops := t.hops + 1 }] }).post (.probeToken id))

/-! ## The spill queue (R401, R406) -/

/-- Append a diverted message to the spill queue; a full queue refuses it and tells the sector once (R406). A message
whose context has meanwhile been restored, or its core released, goes to its cluster. -/
def execSpillQueueAppend (id : Nat) (s : State) : Host.Outcome State Fault Refusal :=
  event (match s.flightOf id with
    | none => s
    | some f =>
      let x := f.sec
      let q := (s.sec x).spillq
      let head := leNat (s.readPhys x (spillBase q) 8)
      let tail := leNat (s.readPhys x (spillBase q + 8) 8)
      let idx := match f.body with
        | .deposit c _ _ => c.val
        | .migrate m => m.home
        | .push _ _ => 0
      if !s.diverted f then (s.unfly id).resend f
      else if spillRecords q ≤ tail - head then
        let t := ((s.unfly id).modSec x fun c => { c with refused := c.refused ++ [f] }).nudge f.actor
        if (s.sec x).spillFull then t
        else (t.modSec x fun c => { c with spillFull := true }).irqSector x irqSpill (word idx)
      else
        let t := (s.writePhys x (spillSlot q tail) (s.recordBytes f tail)).writePhys x (spillBase q + 8)
          (leBytes 8 (tail + 1))
        ((t.unfly id).modSec x fun c => { c with spillFull := false, stored := c.stored ++ [⟨none, tail, f⟩] }).nudge f.actor)

end Sys2Proof.Machine
end

