-- ==== Sys2Proof/Machine/MxRun.lean ====
section
/-! DEFINITION. The matrix engine at work: accumulator slots, enumeration of sparse tiles, sums and stores, and the
grants of the array (R99 to R104, R226 to R241, R254 to R257, R375). -/

namespace Sys2Proof.Machine

/-! ## Accumulator slots (R18, R19, R227) -/

/-- The elements of an accumulator. -/
def accSize : Nat := 16384

/-- The key of the first element of a slot. -/
def accKey (x : Sec) (cl : Fin 96) (co : Fin 8) (n : Fin 2) : Nat :=
  ((clusterKey x cl * 8 + co.val) * 2 + n.val) * accSize

/-- The contents of a slot, row-major. -/
def State.slotAcc (s : State) (x : Sec) (cl : Fin 96) (co : Fin 8) (n : Fin 2) : List Nat :=
  (Sparse.dense 0 s.accs (accKey x cl co n) accSize).map BitVec.toNat

/-- Set the contents of a slot. -/
def State.setAcc (s : State) (x : Sec) (cl : Fin 96) (co : Fin 8) (n : Fin 2) (vs : List Nat) : State :=
  { s with accs := Sparse.setRange 0 s.accs (accKey x cl co n) (vs.map (BitVec.ofNat 32)) }

/-- The tag of a slot. -/
def State.accTag (s : State) (x : Sec) (cl : Fin 96) (co : Fin 8) (n : Fin 2) : Option AccTag :=
  ((s.cluster x cl).accTags.get co).get n

/-- Set the tag of a slot. -/
def State.setAccTag (s : State) (x : Sec) (cl : Fin 96) (co : Fin 8) (n : Fin 2) (t : Option AccTag) : State :=
  s.modCluster x cl fun c =>
    { c with accTags := c.accTags.set co.val ((c.accTags.get co).set n.val t n.isLt) co.isLt }

/-- Write a slot's contents to its owner's image (R19). -/
def State.spillAcc (s : State) (x : Sec) (cl : Fin 96) (co : Fin 8) (n : Fin 2) (o : SlotOwner) : State :=
  match s.inst x o.uid with
  | some i => s.areaWrite x i.asid (i.rcd.save + areaAcc o.home + n.val * 0x10000)
      ((s.slotAcc x cl co n).flatMap (leBytes 4))
  | none => s

/-- Read an owner's image into a slot (R19). -/
def State.restoreAcc (s : State) (x : Sec) (cl : Fin 96) (co : Fin 8) (n : Fin 2) (o : SlotOwner) : State :=
  match s.inst x o.uid with
  | some i =>
    let r := s.areaRead x i.asid (i.rcd.save + areaAcc o.home + n.val * 0x10000) 65536
    r.2.setAcc x cl co n ((List.range accSize).map fun k => leNat (slice r.1 (4 * k) 4))
  | none => s

/-- The context that runs a command's vt. -/
def State.ctxOf (s : State) (a : Actor) : Option Nat :=
  match s.runsOn a with
  | .thread x i => if a.vt.isSome && s.vtAt x i.val == a.vt then some i.val else none
  | .master _ _ => none

/-- The owner that a command acts for; a vt's name outlives it for the commands that it left (R269). -/
def Actor.accOwner (a : Actor) : Option SlotOwner := a.vt.map fun v => ⟨a.asid, v.uid, a.home⟩

/-- Accumulator n of a command's context is live: as its context says or, once its vt has ended, as the core notes for
the commands that it left (R226, R269). -/
def State.accIsLive (s : State) (x : Sec) (cl : Fin 96) (co : Fin 8) (a : Actor) (n : Fin 2) : Bool :=
  match s.ctxOf a with
  | some i => (s.ctx (secOf a.agent) i).accLive.get n
  | none => match a.vt with
    | some v => (s.coreSt x cl co).orphans.contains (v, n)
    | none => false

/-- Note whether accumulator n of an ended vt is live. -/
def CoreSt.noteOrphan (c : CoreSt) (v : VtName) (n : Fin 2) (live : Bool) : CoreSt :=
  let rest := c.orphans.filter (· ≠ (v, n))
  { c with orphans := if live then (v, n) :: rest else rest }

/-- The other slots of a sector that hold an owner's accumulator n. -/
def State.slotsHolding (s : State) (x : Sec) (n : Fin 2) (p : SlotOwner → Bool) : List (Fin 96 × Fin 8) :=
  ((List.range 96).map (Fin.ofNat 96)).flatMap fun cl =>
    (((List.range 8).map (Fin.ofNat 8)).filter fun co => match s.accTag x cl co n with
      | some t => p t.owner
      | none => false).map fun co => (cl, co)

/-- A command's start must wait for a claim (R227): its live accumulator is held by another core. -/
def State.needsClaim (s : State) (x : Sec) (cl : Fin 96) (co : Fin 8) (h : MxCmd) : Bool :=
  match h.actor.accOwner with
  | none => false
  | some o => s.accIsLive x cl co h.actor h.n && (s.accTag x cl co h.n).map (·.owner) != some o
    && !(s.slotsHolding x h.n fun p => p == o).isEmpty

/-- Take the slot (R227): the state, and how many spills and restores it cost. An accumulator that is not live reads as
zero (R226). -/
def State.takeSlot (s : State) (x : Sec) (cl : Fin 96) (co : Fin 8) (h : MxCmd) : State × Nat :=
  match h.actor.accOwner with
  | none => (s, 0)
  | some o =>
    let live := s.accIsLive x cl co h.actor h.n
    let zeros := List.replicate accSize (0 : Nat)
    match s.accTag x cl co h.n with
    | some t =>
      if t.owner = o then (if live then s else s.setAcc x cl co h.n zeros, 0)
      else
        let a := if t.live then (s.spillAcc x cl co h.n t.owner, 1) else (s, 0)
        let b := if live then (a.1.restoreAcc x cl co h.n o, a.2 + 1) else (a.1.setAcc x cl co h.n zeros, a.2)
        (b.1.setAccTag x cl co h.n (some ⟨o, live⟩), b.2)
    | none =>
      let b := if live then (s.restoreAcc x cl co h.n o, 1) else (s.setAcc x cl co h.n zeros, 0)
      (b.1.setAccTag x cl co h.n (some ⟨o, live⟩), b.2)

/-- A claim travels to the sector's engines (R227): the slots that hold the accumulator of a home context are spilled.
-/
def execAccumulatorClaim (x : Sec) (home : Fin 6144) (slot : Fin 2) (s : State) : Host.Outcome State Fault Refusal :=
  event ((s.slotsHolding x slot fun o => o.home == home.val).foldl (fun s p =>
    match s.accTag x p.1 p.2 slot with
    | some t =>
      (if t.live then s.spillAcc x p.1 p.2 slot t.owner else s).setAccTag x p.1 p.2 slot none
    | none => s) s)

/-- Accumulator n of a command's context becomes live, or not live, in the slot that the command has taken (R226). -/
def State.setLive (s : State) (x : Sec) (cl : Fin 96) (co : Fin 8) (h : MxCmd) (live : Bool) : State :=
  let s := match s.ctxOf h.actor, h.actor.vt with
    | some i, _ => s.modCtx x i fun c => { c with accLive := c.accLive.set h.n.val live h.n.isLt }
    | none, some v => s.modCore x cl co fun c => c.noteOrphan v h.n live
    | none, none => s
  s.setAccTag x cl co h.n (h.actor.accOwner.map fun o => ⟨o, live⟩)

/-- When the last command that an ended vt left in a queue has completed, the slots hold nothing of it (R228). -/
def State.dropOrphan (s : State) (x : Sec) (cl : Fin 96) (co : Fin 8) (a : Actor) : State :=
  let left := ((s.cluster x cl).mx.get co).any fun c => c.actor.vt == a.vt
  if (s.ctxOf a).isSome || left then s
  else ([0, 1] : List (Fin 2)).foldl (fun s n =>
    if (s.accTag x cl co n).map (·.owner) == a.accOwner then s.setAccTag x cl co n none else s)
    (s.modCore x cl co fun c => { c with orphans := c.orphans.filter fun o => a.vt != some o.1 })

/-! ## Operands of a command (R230, R235 to R237) -/

/-- The tile origin of a sparse command, in elements. -/
def MxCmd.k0 (h : MxCmd) : Nat := if h.shape.isEmpty then 0 else bitsOf h.b2 0 32
def MxCmd.n0 (h : MxCmd) : Nat := if h.shape.isEmpty then 0 else bitsOf h.b2 32 32

/-- The command gathers the rows of A. -/
def MxCmd.gathers (h : MxCmd) : Bool := h.op == .mmg || h.op == .mmgs

/-- B lies in blocks that the enumeration lists. -/
def MxCmd.blocky (h : MxCmd) : Bool := !h.shape.isEmpty && (shapeRec h.shape).kind != 0

/-- Addresses of the stored rows of A; absent for a row of zeros. -/
def MxCmd.aRows (h : MxCmd) : List (Option Nat) :=
  let g := mxShape h.cfg
  if h.gathers then h.rows.map fun r => if r = 0xFFFF then none else some (h.a.toNat + r * g.astr)
  else (List.range (if g.ta then g.k else g.m)).map fun r => some (h.a.toNat + r * g.astr)

/-- Elements of a stored row of A and of B. -/
def MxCmd.aWidth (h : MxCmd) : Nat :=
  let g := mxShape h.cfg
  if g.ta && !h.gathers then g.m else g.k
def MxCmd.bWidth (h : MxCmd) : Nat :=
  let g := mxShape h.cfg
  if g.tb then g.k else g.n

/-- Addresses of the stored rows of a dense B: an operand of its own, or a tile of a stored matrix. -/
def MxCmd.bRows (h : MxCmd) : List Nat :=
  let g := mxShape h.cfg
  let q := shapeRec h.shape
  let base := if h.shape.isEmpty then h.b.toNat else q.base
  let stride := if h.shape.isEmpty then g.bstr else q.stride
  let r0 := if g.tb then h.n0 else h.k0
  let c0 := if g.tb then h.k0 else h.n0
  (List.range (if g.tb then g.n else g.k)).map fun r => base + (r0 + r) * stride + elemBytes g.bf c0

/-- Addresses of the side bytes of the rows of A and of the stored rows of B; 2 bytes for each block of K. -/
def MxCmd.aSides (h : MxCmd) : List Nat :=
  let g := mxShape h.cfg
  if blockTag g.af then (List.range g.m).map fun r => h.a2.toNat + 2 * (r * (g.k / 32)) else []
def MxCmd.bSides (h : MxCmd) : List Nat :=
  let g := mxShape h.cfg
  let q := shapeRec h.shape
  if !blockTag g.bf then []
  else (List.range g.n).map fun r =>
    if h.shape.isEmpty then h.b2.toNat + 2 * (r * (g.k / 32))
    else q.side + 2 * ((h.n0 + r) * (q.c / 32) + h.k0 / 32)

/-- The place and size of a listed block (R236, R237), and of its element metadata. -/
def MxCmd.blockAt (h : MxCmd) (q : Nat) : Nat × Nat :=
  let r := shapeRec h.shape
  if r.kind = 1 then (r.base + q * nmBlockBytes r, nmBlockBytes r)
  else (r.base + q * elemBytes r.fmt 256, elemBytes r.fmt 256)

/-- The scratchpad bytes that a command reads: addresses and lengths. -/
def MxCmd.reads (h : MxCmd) : List (Nat × Nat) :=
  let g := mxShape h.cfg
  match h.op with
  | .mm | .mmg | .mms | .mmgs =>
    (h.aRows.filterMap fun r => r.map fun a => (a, elemBytes g.af h.aWidth))
      ++ (h.aSides.map fun a => (a, 2 * (g.k / 32)))
      ++ if h.blocky then h.blocks.map fun b => h.blockAt b.2.2
         else (h.bRows.map fun a => (a, elemBytes g.bf h.bWidth)) ++ h.bSides.map fun a => (a, 2 * (g.k / 32))
  | .scale => [(h.a.toNat, 4 * g.m)]
  | .rest => if h.a.toNat < 2 ^ 56 then [] else [(h.a.toNat, 65536)]
  | _ => []

/-- No byte that the command reads next lies at or above a watermark (R24, R216): first the enumeration's own reads, and
the operand data only once the enumeration is complete without a fault (R257). -/
def State.mxUnblocked (s : State) (x : Sec) (cl : Fin 96) (h : MxCmd) : Bool :=
  (match h.wait with
  | some (o, n) => !s.belowMark x cl o n
  | none => true) && (h.blocky && !h.enumerated || h.flt.isSome
    || !(h.reads.any fun r => s.belowMark x cl (spadOff r.1) r.2))

/-- The runs of scratchpad bytes that an N:M enumeration with these blocks has read (R236): group metadata and element
metadata. -/
def MxCmd.nmReads (h : MxCmd) (bs : List (Nat × Nat × Nat)) : List (Nat × Nat) :=
  let q := shapeRec h.shape
  bs.flatMap fun b => (q.meta_ + 8 * (b.2.2 / max 1 q.nmn), 8) ::
    if q.nme = 0 then [] else [(nmElemMeta q + 64 * b.2.2, 64)]

/-- The place of a matrix command's reads in the order of its context: those of bytes in an open channel are acquires
once an instruction has waited for the command (R306, R324). -/
def State.engObserve (s : State) (x : Sec) (cl : Fin 96) (h : MxCmd) (rs : List (Nat × Nat)) : State :=
  match s.ctxOf h.actor with
  | some i =>
    if rs.any fun r => s.inOpen x cl (spadOff r.1) r.2 then
      s.modHart (ctxAgent x i) fun c => { c with engSeq := (s.wseq, if h.bind_.isSome then s.wseq else c.engSeq.2) }
    else s
  | none => s

/-- The head of a queue can run (R216, R375). -/
def State.mxRunnable (s : State) (x : Sec) (cl : Fin 96) (h : MxCmd) : Bool :=
  s.earlierDone h.actor && s.mxUnblocked x cl h

/-! ## Enumeration of N:M tiles (R236, R238) -/

/-- Positions rise strictly and lie below a limit. -/
def risingBelow (lim : Nat) : List Nat → Bool
  | [] => true
  | p :: ps => decide (p < lim) && (match ps with
    | [] => true
    | r :: _ => decide (p < r)) && risingBelow lim ps

/-- The block metadata of a group is legal. -/
def nmGroupOk (q : Rec) (bs : List Nat) : Bool :=
  risingBelow q.nmm (bs.take q.nmn) && (bs.drop q.nmn).all fun b => b == 0xFF

/-- The kept positions of a column of a block, from its 4 bytes: positions by K group. -/
def nmKept (nme : Nat) (w : Nat) : List (List Nat) :=
  let nib := (List.range 8).map fun t => w / 2 ^ (4 * t) % 16
  if nme = 1 then (List.range 4).map fun h => (nib.drop (2 * h)).take 2
  else (List.range 2).map fun h => (nib.drop (4 * h)).take 4

/-- The element metadata of a block is legal. -/
def nmElemOk (nme : Nat) (bs : List Byte) : Bool :=
  (List.range 16).all fun j => (nmKept nme (leNat (slice bs (4 * j) 4))).all (risingBelow (if nme = 1 then 4 else 8))

/-- What stops an enumeration: a wait for bytes, or a fault. -/
inductive EnumStop where
  | wait (off len : Nat)
  | fault (f : Flt)
  deriving DecidableEq, Repr

/-- A read of an enumeration: it waits below a watermark, and meets MCE (R256, R257). -/
def State.enumRead (s : State) (x : Sec) (cl : Fin 96) (ea n : Nat) : Except EnumStop (List Byte) :=
  if s.belowMark x cl (spadOff ea) n then .error (.wait (spadOff ea) n)
  else match s.engRead x cl ea n with
    | .ok bs => .ok bs
    | .error f => .error (.fault f)

/-- The kept blocks of one group of an N:M tile: (u, v, rank). -/
def State.nmGroup (s : State) (x : Sec) (cl : Fin 96) (q : Rec) (c g : Nat) : Except EnumStop (List (Nat × Nat × Nat)) := do
  let id := c * (q.r / (16 * q.nmm)) + g
  let bs := (← s.enumRead x cl (q.meta_ + 8 * id) 8).map BitVec.toNat
  if !nmGroupOk q bs then throw (.fault (flt cPAT patNm))
  let out := (List.range q.nmn).map fun t => (g * q.nmm + bs.getD t 0, c, id * q.nmn + t)
  if q.nme = 0 then .ok out
  else do
    for b in out do
      let e ← s.enumRead x cl (nmElemMeta q + 64 * b.2.2) 64
      if !nmElemOk q.nme e then throw (.fault (flt cPAT patNm))
    .ok out

/-- The blocks of an N:M tile, by ascending group, then block column. -/
def State.nmEnumerate (s : State) (x : Sec) (cl : Fin 96) (h : MxCmd) : Except EnumStop (List (Nat × Nat × Nat)) :=
  let q := shapeRec h.shape
  let g := mxShape h.cfg
  if q.nmn = 0 ∨ q.nmm < q.nmn then .error (.fault (flt cPAT patNm))
  else
    let grp := 16 * q.nmm
    let gs := (List.range (g.k / grp)).map (· + h.k0 / grp)
    let cs := (List.range ((g.n + 15) / 16)).map (· + h.n0 / 16)
    (gs.flatMap fun u => cs.map fun c => (c, u)).foldlM (fun (out : List (Nat × Nat × Nat)) p => do
      let b ← s.nmGroup x cl q p.1 p.2
      .ok (out ++ b)) []

/-! ## Enumeration of pattern tiles and lists (R254 to R257, R262) -/

/-- Row-rank entries u and u + 1, read once for a row: the entries and the state that keeps them. DESIGN CHOICE (log
entry 128): an entry u + 1 beyond the scratchpad gives RANGE before entry u is read. -/
def State.rankOf (s : State) (x : Sec) (cl : Fin 96) (co : Fin 8) (h : MxCmd) (u : Nat) :
    Except EnumStop ((Nat × Nat) × State) :=
  match h.ranks.find? fun r => r.1 == u with
  | some r => .ok (r.2, s)
  | none =>
    let ea := (shapeRec h.shape).meta_ + 4 * u
    if 0x200000 < spadOff (shapeRec h.shape).meta_ + 4 * u + 8 then .error (.fault (flt cPAT patRange))
    else do
      let bs ← s.enumRead x cl ea 8
      let lo := leNat (slice bs 0 4)
      let hi := leNat (slice bs 4 4)
      if hi < lo then throw (.fault (flt cPAT patRange))
      .ok ((lo, hi), (s.engObserve x cl h [(ea, 8)]).modMxHead x cl co fun h => { h with ranks := h.ranks ++ [(u, lo, hi)] })

/-- The runs of an enumeration, in order: block row, and queried column (R254, R255); the rows of a `pgrun`. -/
def MxCmd.runs (h : MxCmd) : List (Nat × Nat) :=
  let g := mxShape h.cfg
  let ks := (List.range (g.k / 16)).map (· + h.k0 / 16)
  let ns := (List.range ((g.n + 15) / 16)).map (· + h.n0 / 16)
  if g.tb then ks.flatMap fun v => ns.map fun u => (u, v) else ks.map fun u => (u, 0)

/-- The enumeration of the head command has ended. -/
def State.enumDone (s : State) (x : Sec) (cl : Fin 96) (co : Fin 8) (f : Option Flt) : State :=
  ({ s with gen := none }.modMxHead x cl co fun h => { h with enumerated := true, wait := none, flt := f }).postFront
    (.engineStep x cl)

/-- Begin a run of the generator; an empty one is over at once. -/
def State.genBegin (s : State) (r : GenRun) : State := s.genNext r

/-- Stop or wait on behalf of the head command. -/
def State.enumStop (s : State) (x : Sec) (cl : Fin 96) (co : Fin 8) (e : EnumStop) : State :=
  match e with
  | .fault f => s.enumDone x cl co (some f)
  | .wait o n => ({ s with gen := none }.modMxHead x cl co fun h =>
      { h with wait := some (o, n), blocks := [], ranks := [] }).post (.engineStep x cl)

/-- Begin run number `k` of the head command's enumeration. -/
def State.commandRun (s : State) (x : Sec) (cl : Fin 96) (co : Fin 8) (h : MxCmd) (k steps : Nat) : State :=
  match h.slot, h.runs[k]? with
  | some slot, some (u, v) =>
    let g := mxShape h.cfg
    match s.rankOf x cl co h u with
    | .error e => s.enumStop x cl co e
    | .ok (rank, s) =>
      let lo := h.n0 / 16
      s.genBegin { GenRun.start (.command x cl co) (slot.withShape (shapeRec h.shape)) g.tb u lo
        (lo + (g.n + 15) / 16 - 1) v (some rank) steps 0 with written := k }
  | _, _ => s.enumDone x cl co none

/-- Begin the forward run of one block row of a `pgrun`. DESIGN CHOICE (log entry 127): with NC = 0, v_hi is 0. -/
def State.listRun (s : State) (x : Sec) (cl : Fin 96) (co : Fin 8) (h : MxCmd) (u written : Nat) : State :=
  match h.slot with
  | none => s.enumDone x cl co none
  | some slot =>
    if bitsOf h.b 0 32 + bitsOf h.b 32 32 ≤ u then
      (s.spadWrite x cl (spadOff h.a.toNat) (leBytes 8 written)).enumDone x cl co none
    else s.genBegin (GenRun.start (.list x cl co) slot false u 0 (slot.nc.toNat - 1) 0 none 0 written)

/-- A run of a sparse command has ended: its block is listed and the next run begins. `written` counts the runs. DESIGN
CHOICE (log entry 128): the RANGE of a block beyond the scratchpad is met at the emission in a forward run and at the
end of an inverse one. -/
def State.commandNext (s : State) (x : Sec) (cl : Fin 96) (co : Fin 8) (h : MxCmd) (r : GenRun) : State :=
  match r.flt with
  | some sub => s.enumDone x cl co (some (flt cPAT sub))
  | none =>
    let k : State × Option Nat := match r.inverse, r.answer with
      | true, some p => s.keepBlock x cl co r.u r.v p ((r.rank.map (·.1)).getD 0)
      | _, _ => (s, none)
    match k.2 with
    | some sub => k.1.enumDone x cl co (some (flt cPAT sub))
    | none => k.1.commandRun x cl co ((k.1.mxHead x cl co).getD h) (r.written + 1) r.steps

/-- Go on with the enumeration of the head command. -/
def State.enumerate (s : State) (x : Sec) (cl : Fin 96) (co : Fin 8) (h : MxCmd) : State :=
  let mine : Option GenRun := match s.gen with
    | some r => if r.for_ = .command x cl co ∨ r.for_ = .list x cl co then some r else none
    | none => none
  match mine with
  | some r =>
    if !r.finished then s
    else if h.op = .run then match r.flt with
      | some sub => s.enumDone x cl co (some (flt cPAT sub))
      | none => s.listRun x cl co h (r.u + 1) r.written
    else s.commandNext x cl co h r
  | none =>
    if !s.genFree then s.post (.engineStep x cl)
    else if h.op = .run then (s.startJob x h.actor).listRun x cl co h (bitsOf h.b 0 32) 0
    else if (shapeRec h.shape).kind = 1 then match s.nmEnumerate x cl h with
      | .ok bs =>
        ((s.engObserve x cl h (h.nmReads bs)).modMxHead x cl co fun h => { h with blocks := bs }).enumDone x cl co none
      | .error e => s.enumStop x cl co e
    else if (mxShape h.cfg).tb ∧ (h.slot.bind (·.inv)).isNone then s.enumDone x cl co (some (flt cPAT patNoninv))
    else s.commandRun x cl co h 0 0

/-! ## Sums (R101 to R104) -/

/-- The tag of an operand format. -/
def operandTag (t : Nat) : Tag :=
  match t with
  | 1 => .i8
  | 8 => .bf16
  | 9 => .f16
  | 10 => .e4m3
  | 11 => .e5m2
  | 12 => .e2m1x
  | _ => .b8

/-- The value of an element without its block's scale. -/
def operandNum (t code spare : Nat) : Num :=
  if blockTag t then elemNum (operandTag t) code spare
  else match fmtOfTag (operandTag t) with
    | some f => f.decode code
    | none => .ofInt (signedOf 8 code)

/-- A row or column along K: element codes, absent where no block is stored, with the scale and spare of each block. -/
structure Strip where
  codes : List (Option Nat)
  sides : List (Nat × Nat)
  deriving DecidableEq, Repr

/-- The scale code of a strip at an element; formats without scales have 2^0. -/
def Strip.scale (t : Strip) (k : Nat) : Nat := (t.sides.getD (k / 32) (127, 0)).1
def Strip.spare (t : Strip) (k : Nat) : Nat := (t.sides.getD (k / 32) (127, 0)).2

/-- The numbers of `n` elements of a strip from `k` on. -/
def Strip.nums (t : Strip) (f k n : Nat) : List (Option Num) :=
  (((t.codes.drop k).take n).zipIdx).map fun p => p.1.map fun c => operandNum f c (t.spare (k + p.2))

/-- The group sum G × 2^e and whether NV is due (R102, R103): absent when the group holds no stored product. A NaN
element counts wherever it lies in the group; beside it, a product of 0 and infinity sets NV and infinite products of
both signs do not (DESIGN CHOICE, log entry 109). -/
def groupSum (xs ys : List (Option Num)) (sa sb : Nat) : Option Num :=
  let stored := (xs.zip ys).filterMap fun p => match p with
    | (some a, some b) => some (a, b)
    | _ => none
  if stored.isEmpty then none
  else
    let isNan := fun (o : Option Num) => match o with
      | some v => v.isNan
      | none => false
    if xs.any isNan || ys.any isNan || sa == 255 || sb == 255 then
      some (.nan (stored.any fun p => (Num.mul p.1 p.2).2))
    else
      match sumNum rneRnd (stored.map fun p => (Num.mul p.1 p.2).1) with
      | .fin neg m e => some (.fin (neg && m != 0) m (e + (sa : Int) - 127 + (sb : Int) - 127))
      | v => some v

/-- Add a group to an FP32 accumulator element (R102, R103). -/
def addGroup (acc : Nat × Nat) (g : Option Num) : Nat × Nat :=
  match g with
  | none => acc
  | some v => withFlags (fp32.round rneRnd (sumNum rneRnd [fp32.decode acc.1, v])) acc.2

/-- The groups of a strip pair, in ascending K. -/
def sumElem (af bf grp k : Nat) (a b : Strip) (acc : Nat × Nat) : Nat × Nat :=
  (List.range (k / grp)).foldl (fun acc g =>
    addGroup acc (groupSum (a.nums af (g * grp) grp) (b.nums bf (g * grp) grp) (a.scale (g * grp)) (b.scale (g * grp)))) acc

/-- The integer class: exact products modulo 2^32 (R104). -/
def sumInt (a b : Strip) (acc : Nat) : Nat :=
  modPow 32 ((a.codes.zip b.codes).foldl (fun (t : Int) p => match p with
    | (some x, some y) => t + signedOf 8 x * signedOf 8 y
    | _ => t) (acc : Int))

/-- The accumulator after a multiply, and its flags (R231). Element i of the list is at row i / 128, column i % 128. -/
def multiplyAcc (h : MxShape) (z : Bool) (rows cols : List Strip) (acc : List Nat) : List Nat × Nat :=
  let grp := if mxClass h.af = some 1 then 16 else 32
  let out := acc.zipIdx.map fun p =>
    let i := p.2 / 128
    let j := p.2 % 128
    if h.m ≤ i ∨ h.n ≤ j then (p.1, 0)
    else
      let c := if z then 0 else p.1
      match rows[i]?, cols[j]? with
      | some a, some b => if h.int then (sumInt a b c, 0) else sumElem h.af h.bf grp h.k a b (c, 0)
      | _, _ => (c, 0)
  (out.map (·.1), out.foldl (fun f p => f ||| p.2) 0)

/-! ## Reading the operands -/

/-- Element codes of bytes. -/
def elemCodes (t n : Nat) (bs : List Byte) : List Nat := lanesOf n (elemBits t) (leNat bs)

/-- Rows become columns. -/
def transpose (n : Nat) (rows : List (List Nat)) : List (List Nat) :=
  (List.range n).map fun j => rows.map fun r => r.getD j 0

/-- Read rows of elements; an absent row is zeros. -/
def State.readRows (s : State) (x : Sec) (cl : Fin 96) (t n : Nat) (rows : List (Option Nat)) :
    Except Flt (List (List Nat)) :=
  rows.mapM fun r => match r with
    | none => .ok (List.replicate n 0)
    | some ea => do
      let bs ← s.engRead x cl ea (elemBytes t n)
      .ok (elemCodes t n bs)

/-- Read the scale and spare bytes of rows. -/
def State.readSides (s : State) (x : Sec) (cl : Fin 96) (n : Nat) (eas : List Nat) : Except Flt (List (List (Nat × Nat))) :=
  eas.mapM fun ea => do
    let bs ← s.engRead x cl ea (2 * n)
    .ok ((List.range n).map fun b => ((bs.getD (2 * b) 0).toNat, (bs.getD (2 * b + 1) 0).toNat))

/-- Strips of element codes with their sides. -/
def strips (codes : List (List Nat)) (sides : List (List (Nat × Nat))) : List Strip :=
  codes.zipIdx.map fun p => ⟨p.1.map some, sides.getD p.2 []⟩

/-- The rows of A along K. -/
def State.aStrips (s : State) (x : Sec) (cl : Fin 96) (h : MxCmd) : Except Flt (List Strip) := do
  let g := mxShape h.cfg
  let rows ← s.readRows x cl g.af h.aWidth h.aRows
  let sides ← s.readSides x cl (g.k / 32) h.aSides
  .ok (strips (if g.ta && !h.gathers then transpose g.m rows else rows) sides)

/-- The columns of a dense B along K. -/
def State.bStrips (s : State) (x : Sec) (cl : Fin 96) (h : MxCmd) : Except Flt (List Strip) := do
  let g := mxShape h.cfg
  let rows ← s.readRows x cl g.bf h.bWidth (h.bRows.map some)
  let sides ← s.readSides x cl (g.k / 32) h.bSides
  .ok (strips (if g.tb then rows else transpose g.n rows) sides)

/-- The 256 codes of an N:M block from its kept elements (R236): row-major, absent values are zero. -/
def nmExpand (nme : Nat) (kept : List Nat) (md : List Byte) : List Nat :=
  let w := if nme = 1 then 4 else 8
  let per := if nme = 1 then 2 else 4
  (List.range 256).map fun e =>
    let r := e / 16
    let j := e % 16
    match ((nmKept nme (leNat (slice md (4 * j) 4))).getD (r / w) []).findIdx? (· == r % w) with
    | some t => kept.getD ((r / w * per + t) * 16 + j) 0
    | none => 0

/-- The 256 codes of a listed block. -/
def State.blockCodes (s : State) (x : Sec) (cl : Fin 96) (h : MxCmd) (q : Nat) : Except Flt (List Nat) := do
  let r := shapeRec h.shape
  let at_ := h.blockAt q
  let bs ← s.engRead x cl at_.1 at_.2
  if r.kind = 1 ∧ r.nme ≠ 0 then
    let md ← s.engRead x cl (nmElemMeta r + 64 * q) 64
    .ok (nmExpand r.nme (elemCodes r.fmt 128 bs) md)
  else .ok (elemCodes r.fmt 256 bs)

/-- The columns of B along K from listed blocks: an element of a block that is not stored is absent (R231). -/
def blockStrips (g : MxShape) (k0 n0 : Nat) (bl : List ((Nat × Nat) × List Nat)) : List Strip :=
  (List.range g.n).map fun j =>
    { codes := (List.range g.k).map fun k =>
        let r := if g.tb then n0 + j else k0 + k
        let c := if g.tb then k0 + k else n0 + j
        (bl.find? fun b => b.1.1 == r / 16 && b.1.2 == c / 16).map fun b => b.2.getD (r % 16 * 16 + c % 16) 0
      sides := [] }

/-- The columns of a sparse B along K. -/
def State.sparseStrips (s : State) (x : Sec) (cl : Fin 96) (h : MxCmd) : Except Flt (List Strip) := do
  let bl ← h.blocks.mapM fun b => do
    let cs ← s.blockCodes x cl h b.2.2
    .ok ((b.1, b.2.1), cs)
  .ok (blockStrips (mxShape h.cfg) h.k0 h.n0 bl)

/-! ## Stores (R233, R234) -/

/-- Row i of an accumulator, columns below N. -/
def accRow (acc : List Nat) (i n : Nat) : List Nat := (acc.drop (128 * i)).take n

/-- An element of `mxst` (R97, R233). -/
def storeElem (h : MxShape) (f : Nat) (rnd : Rnd) (v : Nat) : Nat × Nat :=
  if h.int then (v % 2 ^ elemBits f, 0)
  else match (match f with
    | 7 => some fp32
    | 8 => some bf16
    | 9 => some fp16
    | 10 => some e4m3
    | 11 => some e5m2
    | _ => none) with
    | some g => g.round rnd (fp32.decode v)
    | none => (v, 0)

/-- The roundings of row i of a store (R94, R233). -/
def rowRnds (h : MxCmd) (rnds : List Rnd) (i : Nat) : List Rnd :=
  let n := (mxShape h.cfg).n
  (rnds.drop (i * n)).take n

/-- `mxst`: the state with the rows stored, and the flags. DESIGN CHOICE (log entry 126): where rows overlap, the later
row stays. -/
def State.storeRows (s : State) (x : Sec) (cl : Fin 96) (h : MxCmd) (acc : List Nat) : State × Nat :=
  let g := mxShape h.cfg
  let rnds := (cvtRnds h.fmode (if g.int then 0 else g.m * g.n) h.seed).1
  (List.range g.m).foldl (fun (r : State × Nat) i =>
    let row := (accRow acc i g.n).zipIdx.map fun p =>
      storeElem g h.fmt ((rowRnds h rnds i).getD p.2 (arithRnd h.fmode)) p.1
    (r.1.spadWrite x cl (spadOff (h.a.toNat + i * bitsOf h.a2 0 24))
      (row.flatMap fun v => leBytes (elemBits h.fmt / 8) v.1), row.foldl (fun f v => f ||| v.2) r.2)) (s, 0)

/-- The blocks of a row of `mxstq` (R99). -/
def rowBlocks (h : MxCmd) (acc : List Nat) (rnds : List Rnd) (i : Nat) : List Block :=
  let n := (mxShape h.cfg).n
  (List.range (n / 32)).map fun b =>
    quantise (operandTag h.fmt) (bitAt h.fmode 8)
      ((((accRow acc i n).drop (32 * b)).take 32).map fp32.decode) (((rowRnds h rnds i).drop (32 * b)).take 32)

/-- `mxstq`: element data and side bytes in the split form (R89). DESIGN CHOICE (log entry 126): rows are written in
ascending order, each its data and then its side bytes, and the later bytes stay. -/
def State.storeBlocks (s : State) (x : Sec) (cl : Fin 96) (h : MxCmd) (acc : List Nat) : State × Nat :=
  let g := mxShape h.cfg
  let rnds := (cvtRnds h.fmode (g.m * g.n) h.seed).1
  (List.range g.m).foldl (fun (r : State × Nat) i =>
    let bl := rowBlocks h acc rnds i
    let codes := bl.flatMap (·.codes)
    let data := leBytes (elemBytes h.fmt g.n) (ofLanes (elemBits h.fmt) codes)
    let side := bl.flatMap fun b => leBytes 1 b.scale ++ leBytes 1 (if h.fmt = 12 then b.spare else 0)
    ((r.1.spadWrite x cl (spadOff (h.a.toNat + i * bitsOf h.a2 0 24)) data).spadWrite x cl
      (bitsOf h.a2 32 32 + 2 * (i * (g.n / 32))) side, bl.foldl (fun f b => f ||| b.flags) r.2)) (s, 0)

/-- `mxscale`: the accumulator and the flags (R234). -/
def scaleAcc (h : MxShape) (fs acc : List Nat) : List Nat × Nat :=
  let out := acc.zipIdx.map fun p =>
    if h.m ≤ p.2 / 128 ∨ h.n ≤ p.2 % 128 then (p.1, 0) else fp32.mul rneRnd p.1 (fs.getD (p.2 / 128) 0)
  (out.map (·.1), out.foldl (fun f p => f ||| p.2) 0)

/-- `mxsave` to application space: the context's plain stores, in words of 8 bytes (R333); bytes written before a fault
stay (R229). -/
def State.saveWords (s : State) (a : Actor) : Nat → List Byte → Nat → State × Option Flt
  | _, _, 0 => (s, none)
  | va, bs, n + 1 =>
    match s.actWrite a va (bs.take 8) true with
    | .error f => (s, some f)
    | .ok t => t.saveWords a (va + 8) (bs.drop 8) n

/-- `mxrest` from application space, in words of 8 bytes; what the reads before a fault did to lines and tags stays
(R330, R333). -/
def State.restWords (s : State) (a : Actor) : Nat → Nat → State × Except Flt (List Byte)
  | _, 0 => (s, .ok [])
  | va, n + 1 =>
    match s.actRead a va 8 true with
    | .error f => (s, .error f)
    | .ok r =>
      let q := r.2.restWords a (va + 8) n
      (q.1, q.2.map (r.1 ++ ·))

/-- What a command does when it completes: the state, its flags and its fault. -/
def State.mxEffect (s : State) (x : Sec) (cl : Fin 96) (co : Fin 8) (h : MxCmd) : State × Nat × Option Flt :=
  let g := mxShape h.cfg
  let acc := s.slotAcc x cl co h.n
  match h.op with
  | .run => (s, 0, none)
  | .zero => ((s.setAcc x cl co h.n (List.replicate accSize 0)).setLive x cl co h false, 0, none)
  | .mm | .mmg | .mms | .mmgs =>
    match s.aStrips x cl h with
    | .error f => (s, 0, some f)
    | .ok rows => match if h.blocky then s.sparseStrips x cl h else s.bStrips x cl h with
      | .error f => (s, 0, some f)
      | .ok cols =>
        let r := multiplyAcc g h.z rows cols acc
        ((s.setAcc x cl co h.n r.1).setLive x cl co h true, r.2, none)
  | .st =>
    let r := s.storeRows x cl h acc
    (r.1, r.2, none)
  | .stq =>
    let r := s.storeBlocks x cl h acc
    (r.1, r.2, none)
  | .scale => match s.engRead x cl h.a.toNat (4 * g.m) with
    | .error f => (s, 0, some f)
    | .ok bs =>
      let r := scaleAcc g ((List.range g.m).map fun i => leNat (slice bs (4 * i) 4)) acc
      ((s.setAcc x cl co h.n r.1).setLive x cl co h true, r.2, none)
  | .save =>
    let bs := acc.flatMap (leBytes 4)
    if h.a.toNat < 2 ^ 56 then
      let r := s.saveWords h.actor h.a.toNat bs 8192
      (r.1, 0, r.2)
    else (s.spadWrite x cl (spadOff h.a.toNat) bs, 0, none)
  | .rest =>
    let r := if h.a.toNat < 2 ^ 56 then s.restWords h.actor h.a.toNat 8192 else (s, s.engRead x cl h.a.toNat 65536)
    let t := r.1
    match r.2 with
    | .error f => (t, 0, some f)
    | .ok bs =>
      ((t.setAcc x cl co h.n ((List.range accSize).map fun k => leNat (slice bs (4 * k) 4))).setLive x cl co h true, 0, none)

/-! ## Time (R241) and grants (R375) -/

/-- Array cycles of a multiply over a dense B. -/
def denseCycles (h : MxShape) : Nat :=
  if mxClass h.af = some 1 then 2 * h.k else if h.af = 12 ∧ h.bf = 12 then h.k / 2 else h.k

/-- Array cycles of a multiply over listed blocks: the dense time times the density, at least a quarter, rounded up. -/
def sparseCycles (h : MxCmd) : Nat :=
  let g := mxShape h.cfg
  let all := (g.k / 16) * ((g.n + 15) / 16) * if (shapeRec h.shape).nme = 0 then 1 else 2
  (denseCycles g * max (4 * h.blocks.length) all + 4 * all - 1) / (4 * all)

/-- Array cycles of a command. -/
def MxCmd.cycles (h : MxCmd) : Nat :=
  match h.op with
  | .mm | .mmg | .mms | .mmgs => if h.blocky then sparseCycles h else denseCycles (mxShape h.cfg)
  | .st | .stq | .scale => 128
  | .save | .rest => 512
  | .zero => 1
  | .run => 0

/-- The head command starts: its job runs, it takes its slot unless its enumeration has faulted. -/
def State.mxStart (s : State) (x : Sec) (cl : Fin 96) (co : Fin 8) (h : MxCmd) : State :=
  if h.flt.isSome ∨ h.op = .run then
    ((s.startJob x h.actor).modMxHead x cl co fun h => { h with left := some (if h.flt.isSome then 0 else h.cycles) }).postFront
      (.engineStep x cl)
  else if s.needsClaim x cl co h then
    (s.postFront (.engineStep x cl)).postFront (.accumulatorClaim x (Fin.ofNat 6144 h.actor.home) h.n)
  else
    let r := (s.startJob x h.actor).takeSlot x cl co h
    (r.1.modMxHead x cl co fun h => { h with left := some (h.cycles + 512 * r.2) }).postFront (.engineStep x cl)

/-- Array time for the head command of the visited queue, within the present step. -/
def State.mxWork (s : State) (x : Sec) (cl : Fin 96) (co : Fin 8) (h : MxCmd) : State :=
  match h.left with
  | none => if h.enumerated || h.shape.isEmpty && h.op != .run then s.mxStart x cl co h else s.enumerate x cl co h
  | some left =>
    let c := s.cluster x cl
    let use := min c.budget left
    let spent := c.budget - use
    let s := (s.modMxHead x cl co fun h => { h with left := some (left - use) }).modCluster x cl fun c =>
      { c with budget := spent, visit := if spent = 0 ∧ c.stepsLeft = 0 then Fin.ofNat 8 (co.val + 1) else c.visit }
    if left - use = 0 then s.postFront (.matrixCommandComplete x cl co) else s.post (.engineStep x cl)

/-- The visit to a queue ends; what is left of it is forfeited. -/
def State.endVisit (s : State) (x : Sec) (cl : Fin 96) : State :=
  (s.modCluster x cl fun c => { c with budget := 0, stepsLeft := 0, visit := Fin.ofNat 8 (c.visit.val + 1) }).post
    (.engineStep x cl)

/-- The weight of a queue (R35): 0 counts as 1. -/
def weightOf (w : BitVec 32) (n : Nat) : Nat := max 1 (w.toNat / 2 ^ (4 * n) % 16)

/-- The next queue with a command that can run, in the order of visits from a queue on. -/
def State.mxNextQueue (s : State) (x : Sec) (cl : Fin 96) (from_ : Nat) : Option (Fin 8) :=
  ((List.range 8).map fun k => Fin.ofNat 8 (from_ + k)).find? fun co => match s.mxHead x cl co with
    | some h => s.mxRunnable x cl h
    | none => false

/-- A new step of the array: the same queue while its visit lasts, else the next one that can run. -/
def State.mxGrant (s : State) (x : Sec) (cl : Fin 96) : State :=
  let c := s.cluster x cl
  let stay := decide (0 < c.stepsLeft) && match s.mxHead x cl c.visit with
    | some h => s.mxRunnable x cl h
    | none => false
  if stay then
    (s.modCluster x cl fun c => { c with budget := 128, stepsLeft := c.stepsLeft - 1 }).postFront (.engineStep x cl)
  else match s.mxNextQueue x cl (if 0 < c.stepsLeft then c.visit.val + 1 else c.visit.val) with
    | some co => (s.modCluster x cl fun c =>
        { c with budget := 128, visit := co, stepsLeft := weightOf c.weights co.val - 1 }).postFront (.engineStep x cl)
    | none => s.modCluster x cl fun c => { c with budget := 0, visit := 0, stepsLeft := 0 }

/-- One step of a cluster's matrix engine (R216, R375). -/
def execEngineStep (x : Sec) (cl : Fin 96) (s : State) : Host.Outcome State Fault Refusal :=
  event (
    let c := s.cluster x cl
    if !s.unitsRun x ∨ s.isFenced x (chipletOf cl) then s
    else if c.budget = 0 then s.mxGrant x cl
    else match s.mxHead x cl c.visit with
      | some h => if s.mxRunnable x cl h then s.mxWork x cl c.visit h else s.endVisit x cl
      | none => s.endVisit x cl)

/-- A command's flags reach the context that runs its vt (R98, R218). -/
def State.mergeFlags (s : State) (a : Actor) (f : Nat) : State :=
  match s.ctxOf a with
  | some i => s.modHart (ctxAgent (secOf a.agent) i) fun h => { h with fflags := h.fflags ||| word (f % 32) }
  | none => s

/-- The head command of a core's queue has had its time: it takes effect, its job ends, and the queue goes on (R216). -/
def execMatrixCommandComplete (x : Sec) (cl : Fin 96) (co : Fin 8) (s : State) : Host.Outcome State Fault Refusal :=
  event (match s.mxHead x cl co with
    | none => s
    | some h =>
      if h.left ≠ some 0 then s
      else if !s.mxRunnable x cl h then s.post (.engineStep x cl)
      else
        let r := match h.flt with
          | some f => (s, 0, some f)
          | none => (s.engObserve x cl h h.reads).mxEffect x cl co h
        if r.2.2.any Flt.waits then s.post (.matrixCommandComplete x cl co)
        else
          let t := r.1.modCluster x cl fun c => { c with mx := c.mx.set co.val (c.mx.get co).tail co.isLt }
          let t := (t.dropOrphan x cl co h.actor).mergeFlags h.actor (if r.2.2.isSome then 0 else r.2.1)
          let t := t.endJob x h.actor 1 0 r.2.2
          ((t.postAll (t.queueWaiters x cl co .engine)).kickPreempt x cl co).postFront (.engineStep x cl))

end Sys2Proof.Machine
end

