-- ==== Sys2Proof/Machine/Copy.lean ====
section
/-! DEFINITION. The copy unit (R271 to R283, R376): the commands at issue, their flits, receive channels and receive
rings. -/

namespace Sys2Proof.Machine

/-! ## Operands at issue (R274) -/

/-- The fault of a peer extent at issue: the slot and the imported length. -/
def State.importFault (s : State) (slot off n ea : Nat) : List Flt :=
  let i := s.import_ (secOf s.cur) slot
  if !i.valid then [fltAt cPEER peerSlot ea] else if i.len < off + n then [fltAt cPEER peerRange ea] else []

/-- The faults of a copy's other operand: application space and peer windows, and with `own` the own scratchpad, with
`push` every cluster's. -/
def State.copyOperand (s : State) (ea n align : Nat) (own push : Bool) : List Flt :=
  (match placeOf s.cur ea (max n 1) with
  | .error f => [f]
  | .ok (.app _) => []
  | .ok (.peer slot off) => s.importFault slot off n ea
  | .ok (.spad cl _) =>
    if push then [] else if !own then [fltAt cADR 0 ea]
    else if clusterOfAgent s.cur = some cl then [] else [fltAt cREMR 0 ea]
  | .ok (.reg _ _) => [fltAt cADR 0 ea]) ++ if ea % align = 0 then [] else [fltAt cALN 0 ea]

/-- The length of a copy. DESIGN CHOICE (log entry 129): the faulting address of a length that is no multiple of 8 is
the length itself. -/
def lengthFaults (n : Nat) : List Flt :=
  (if n % 8 = 0 then [] else [fltAt cALN 0 n]) ++ if 8 ≤ n ∧ n ≤ 0x200000 then [] else [flt cSHP 0x22]

/-- Two extents of the own scratchpad overlap. -/
def State.overlaps (s : State) (a b n : Nat) : List Flt :=
  match placeOf s.cur a 1, placeOf s.cur b 1 with
  | .ok (.spad c o), .ok (.spad e p) => if c = e ∧ o < p + n ∧ p < o + n then [flt cSHP 0x22] else []
  | _, _ => []

/-- The clusters of a `sendm` set. -/
def setClusters (w : Nat) : List Nat := (List.range (w / 2 ^ 8 % 2 ^ 7)).map fun i => w % 2 ^ 7 + i * (w / 2 ^ 16 % 2 ^ 7)

/-- The set of `sendm` and its offset. -/
def setFaults (off set n : Nat) : List Flt :=
  let count := set / 2 ^ 8 % 2 ^ 7
  let stride := set / 2 ^ 16 % 2 ^ 7
  (if off % 8 = 0 then [] else [fltAt cALN 0 off])
  ++ if 1 ≤ count ∧ count ≤ 96 ∧ 1 ≤ stride ∧ stride ≤ 95 ∧ set / 2 ^ 7 % 2 = 0 ∧ set / 2 ^ 15 % 2 = 0
        ∧ set / 2 ^ 23 = 0 ∧ (setClusters set).all (fun k => decide (k ≤ 95)) ∧ off + n ≤ 0x200000 then []
     else [flt cSHP 0x22]

/-- The own extents of a `sendm` that names its own cluster overlap. -/
def State.setOverlap (s : State) (off set src n : Nat) : List Flt :=
  match clusterOfAgent s.cur with
  | some cl =>
    if (setClusters set).contains cl.val ∧ spadOff src < off + n ∧ off < spadOff src + n then [flt cSHP 0x22] else []
  | none => []

/-! ## Queueing (R273) -/

/-- The flits of an extent: cut at the 64-byte boundaries of its address. -/
def flitsOf (base len : Nat) : List (Nat × Nat) :=
  (List.range (if len = 0 then 0 else (base + len - 1) / 64 - base / 64 + 1)).map fun i =>
    let lo := max base ((base / 64 + i) * 64)
    let hi := min (base + len) ((base / 64 + i + 1) * 64)
    (lo - base, hi - lo)

/-- A command as it is queued. -/
def State.cpCmd (s : State) (op : CpOp) (pk : Bool) (dst src : Word) (len : Nat) (set : List Nat) (a : Actor) : CpCmd :=
  { id := s.nextId, op := op, actor := a, core := match s.cur with
      | .thread _ i => coreOf i.val
      | .master _ _ => 0
    pc := if s.me.chain.isEmpty then s.me.pc else s.me.chainPc, instr := s.curWord
    dst := dst, src := src, len := len, pk := pk, set := set
    todo := match op with
      | .sendg => []
      | .fetch => flitsOf src.toNat len
      | _ => flitsOf dst.toNat len
    unaccepted := if op = .sendg then 1 else 0
    stop := none, flt := none, ring := none, got := [], full := false }

/-- Accept a command into the queue of the context's core (R273). -/
def State.submitCopy (s : State) (x : Sec) (i : Fin 6144) (d : Fin 16) (c : Actor → CpCmd) :
    Except Stop (State × Next) := do
  let cl := clusterOf i.val
  let co := coreOf i.val
  if 8 ≤ ((s.cluster x cl).cp.get co).length then .error (.park (.queue .copy))
  else
    let s ← s.jobRoom
    let r := s.newJob true
    let s := r.2.fresh.modCluster x cl fun k => { k with cp := k.cp.set co.val (k.cp.get co ++ [c r.1]) co.isLt }
    done ((s.post (.copyCommandStart x cl)).wrS d (word r.1.job))

def execSend (sm : Bool) (d a b : Fin 16) (k : Bool) (s : State) : Host.Outcome State Fault Refusal :=
  s.issue sm fun s => do
    let me ← threadOnly s
    noTx s
    let dst ← s.rdS a
    let p ← s.rdPair b
    let n := p.2.toNat
    checkAll (ownOperand s.cur p.1.toNat n 8 false ++ s.copyOperand dst.toNat n 8 true true ++ lengthFaults n
      ++ s.overlaps p.1.toNat dst.toNat n)
    s.submitCopy me.1 me.2 d (s.cpCmd .send k dst p.1 n [])

def execSendm (sm : Bool) (d a b : Fin 16) (k : Bool) (s : State) : Host.Outcome State Fault Refusal :=
  s.issue sm fun s => do
    let me ← threadOnly s
    noTx s
    let q ← s.rdPair a
    let p ← s.rdPair b
    let n := p.2.toNat
    checkAll (ownOperand s.cur p.1.toNat n 8 false ++ lengthFaults n ++ setFaults q.1.toNat q.2.toNat n
      ++ s.setOverlap q.1.toNat q.2.toNat p.1.toNat n)
    s.submitCopy me.1 me.2 d (s.cpCmd .sendm k q.1 p.1 n (setClusters q.2.toNat))

def execFetch (sm : Bool) (d a b : Fin 16) (s : State) : Host.Outcome State Fault Refusal :=
  s.issue sm fun s => do
    let me ← threadOnly s
    noTx s
    let dst ← s.rdS a
    let p ← s.rdPair b
    let n := p.2.toNat
    checkAll (ownOperand s.cur dst.toNat n 8 false ++ s.copyOperand p.1.toNat n 8 true false ++ lengthFaults n
      ++ s.overlaps p.1.toNat dst.toNat n)
    s.submitCopy me.1 me.2 d (s.cpCmd .fetch false dst p.1 n [])

def execFlush (sm : Bool) (d a b : Fin 16) (k : Bool) (s : State) : Host.Outcome State Fault Refusal :=
  s.issue sm fun s => do
    let me ← threadOnly s
    noTx s
    let dst ← s.rdS a
    let p ← s.rdPair b
    let n := p.2.toNat
    checkAll (ownOperand s.cur p.1.toNat n 8 false ++ s.copyOperand dst.toNat n 8 false false ++ lengthFaults n)
    s.submitCopy me.1 me.2 d (s.cpCmd .flush k dst p.1 n [])

/-- The source of `sendg` is read with its length rounded up to a multiple of 8 (R274). -/
def execSendg (sm : Bool) (d a b : Fin 16) (k : Bool) (s : State) : Host.Outcome State Fault Refusal :=
  s.issue sm fun s => do
    let me ← threadOnly s
    noTx s
    let dst ← s.rdS a
    let p ← s.rdPair b
    let n := p.2.toNat
    checkAll (ownOperand s.cur p.1.toNat (roundUp n 8) 8 false ++ s.copyOperand dst.toNat 64 64 false false
      ++ if 1 ≤ n ∧ n ≤ 4096 then [] else [flt cSHP 0x22])
    s.submitCopy me.1 me.2 d (s.cpCmd .sendg k dst p.1 n [])

/-! ## Receive channels (R278, R280) -/

/-- A channel other than `c` is open and overlaps a range. -/
def channelClash (q : Cluster) (c : Fin 16) (off n : Nat) : Bool :=
  ((List.range 16).map (Fin.ofNat 16)).any fun k =>
    let ch := q.channels.get k
    k != c && ch.isOpen && decide (off < ch.base + ch.len) && decide (ch.base < off + n)

/-- Set a channel; every parked read of the cluster is tested again. -/
def State.setChannel (s : State) (x : Sec) (cl : Fin 96) (c : Fin 16) (ch : Channel) : State :=
  (s.modCluster x cl fun q => { q with channels := q.channels.set c.val ch c.isLt }).post (.watermarkWake x cl)

/-- Clear the arrival marks of a range. -/
def State.clearArrival (s : State) (x : Sec) (cl : Fin 96) (off n : Nat) : State :=
  { s with spadMarks := Sparse.setRange false s.spadMarks (spadWord x cl off) (List.replicate (n / 8) false) }

def execWmset (sm : Bool) (a b : Fin 16) (s : State) : Host.Outcome State Fault Refusal :=
  s.issue sm fun s => do
    let me ← threadOnly s
    noTx s
    let q ← s.rdS a
    let p ← s.rdPair b
    let cl := clusterOf me.2.val
    let c : Fin 16 := Fin.ofNat 16 q.toNat
    let n := p.2.toNat
    if n = 0 then
      let old := (s.cluster me.1 cl).channels.get c
      done (s.setChannel me.1 cl c { old with isOpen := false })
    else
      let off := spadOff p.1.toNat
      checkAll (ownOperand s.cur p.1.toNat n 8 false ++ (if n % 8 = 0 then [] else [fltAt cALN 0 n])
        ++ if channelClash (s.cluster me.1 cl) c off n then [flt cSHP 0x22] else [])
      done ((s.clearArrival me.1 cl off n).setChannel me.1 cl c ⟨true, off, n, off⟩)

/-- `wmget` is an acquire. -/
def execWmget (sm : Bool) (d a : Fin 16) (s : State) : Host.Outcome State Fault Refusal :=
  s.issue sm fun s => do
    let me ← threadOnly s
    noTx s
    let q ← s.rdS a
    s.acquiring true
    let ch := (s.cluster me.1 (clusterOf me.2.val)).channels.get (Fin.ofNat 16 q.toNat)
    done (s.acquired.wrS d (word (ch.isOpen.toNat * 2 ^ 63 + ch.wm)))

/-! ## Running commands (R275, R277, R376) -/

/-- A running command of a cluster. -/
def State.running (s : State) (x : Sec) (cl : Fin 96) (id : Nat) : Option CpCmd :=
  (s.cluster x cl).cpRunning.find? fun c => c.id == id

/-- Change a running command, which may complete by it. -/
def State.modRunning (s : State) (x : Sec) (cl : Fin 96) (id : Nat) (f : CpCmd → CpCmd) : State :=
  (s.modCluster x cl fun c => { c with cpRunning := c.cpRunning.map fun k => if k.id = id then f k else k }).post
    (.copyComplete x cl id)

/-- The side of a copy that a peer window can hold (R277): where it starts. -/
def CpCmd.side (c : CpCmd) : Nat := if c.op = .fetch then c.src.toNat else c.dst.toNat

/-- A command meets a failure (R277): at a page that is not resident at the exporter, or whose handle's generation has
changed, it stops there and moves what lies below; any other failure ends it, and the lowest address is kept. -/
def CpCmd.fails (c : CpCmd) (f : Flt) : CpCmd :=
  if f.cause = cPEER ∧ (f.sub = peerNotres ∨ f.sub = peerGen) ∧ c.op ≠ .sendg then
    let page := max c.side (f.addr.toNat / 65536 * 65536)
    let first := match c.stop with
      | some g => decide (page < g.addr.toNat)
      | none => true
    if first then
      { c with stop := some { f with addr := word page }, todo := c.todo.filter fun p => c.side + p.1 < page }
    else c
  else
    let first := match c.flt with
      | some g => decide (f.addr.toNat < g.addr.toNat)
      | none => true
    { c with flt := if first then some f else c.flt, todo := [] }

/-- Send a request of a unit on its way. -/
def State.request (s : State) (b : BankReq) : State :=
  (State.fresh { s with bankq := s.bankq ++ [{ b with id := s.nextId }] }).post ({ b with id := s.nextId } : BankReq).due

/-- A request of a copy command. -/
def copyReq (x : Sec) (cl : Fin 96) (c : CpCmd) (off ea len : Nat) (op : BankOp) (data : List Byte) (back : Bool) :
    BankReq :=
  { id := 0, sec := x, cl := cl, actor := c.actor, copy := true, cmd := c.id, elem := off, ea := ea, len := len
    op := op, data := data, spans := [], back := back }

/-- Push bytes to clusters; those on fenced chiplets take nothing (R418). -/
def State.pushAll (s : State) (x : Sec) (a : Actor) (off : Nat) (bs : List Byte) (cls : List (Fin 96)) : State :=
  cls.foldl (fun s cl => s.sendTo x cl a (.push off bs)) s

/-- The first word of a scratchpad range with a lasting error, as the failure of a read from `src` (R277, R408). -/
def State.badSource (s : State) (x : Sec) (cl : Fin 96) (so len src : Nat) : Option Flt :=
  ((wordsOf so len).find? fun o => s.badWord x cl o).map fun o => fltAt cMCE 1 (src + (o - so))

/-- The pieces of `bs` at an offset of a ring: address and bytes; the data area wraps. -/
def ringPieces (r : RingSlot) (off : Nat) (bs : List Byte) : List (Nat × List Byte) :=
  let p := off % r.size
  let n := min bs.length (r.size - p)
  ((r.data + p, bs.take n) :: if n = bs.length then [] else [(r.data, bs.drop n)]).filter fun q => !q.2.isEmpty

/-- The pieces of a record, each within one line: payload, length word, and the number last. -/
def recordPieces (r : RingSlot) (home : Nat) (payload : List Byte) : List (Nat × List Byte) :=
  (ringPieces r (r.off + 16) payload ++ ringPieces r r.off (leBytes 8 (payload.length + home % 2 ^ 13 * 2 ^ 32))
    ++ ringPieces r (r.off + 8) (leBytes 8 r.q)).flatMap fun p =>
    (chunks p.1 p.2.length).map fun c => (c.1, slice p.2 (c.1 - p.1) c.2)

/-- `sendg` is finished. -/
def State.sendgDone (s : State) (x : Sec) (cl : Fin 96) (id : Nat) (f : Option Flt) : State :=
  s.modRunning x cl id fun c =>
    let c := { c with unaccepted := 0 }
    match f with
    | some f => c.fails f
    | none => c

/-- Move one flit of a `sendg` toward its ring (R376); with the last one the record is complete at the ring's home
(R282). -/
def State.moveRecordFlit (s : State) (x : Sec) (cl : Fin 96) (c : CpCmd) (r : RingSlot) (off len : Nat) : State :=
  let so := spadOff c.src.toNat + off
  match s.badSource x cl so len (c.src.toNat + off) with
  | some f => s.sendgDone x cl c.id (some f)
  | none =>
    let got := c.got ++ s.spadBytes x cl so len
    let t := s.modRunning x cl c.id fun k => { k with got := got }
    if !c.todo.isEmpty then t
    else
      let bs := got.take c.len
      t.request { copyReq x cl c 0 c.dst.toNat c.len .record bs false with
        spans := (recordPieces r c.actor.home bs).map fun p => (p.1, p.2.length) }

/-- Move one flit of a command: read it here and send it, or ask for it. -/
def State.moveFlit (s : State) (x : Sec) (cl : Fin 96) (c : CpCmd) (off len : Nat) : State :=
  let src := c.src.toNat + off
  let dst := c.dst.toNat + off
  let count := fun (s : State) (n : Nat) => s.modRunning x cl c.id fun k => { k with unaccepted := k.unaccepted + n }
  match placeOf c.actor.agent src 1, c.ring with
  | .ok (.spad _ _), some r => s.moveRecordFlit x cl c r off len
  | .ok (.spad _ so), none =>
    match s.badSource x cl so len src with
    | some f => s.modRunning x cl c.id fun k => k.fails f
    | none =>
      let bs := s.spadBytes x cl so len
      if c.op = .sendm then
        let cls := (c.set.map (Fin.ofNat 96)).filter fun k => !s.isFenced x (chipletOf k)
        count (s.pushAll x c.actor dst bs cls) (len * cls.length)
      else if c.op = .fetch then count (s.request (copyReq x cl c off dst len .read bs true)) len
      else match placeOf c.actor.agent dst 1 with
        | .ok (.spad k o) =>
          if s.isFenced x (chipletOf k) then s.modRunning x cl c.id id
          else count (s.sendTo x k c.actor (.push o bs)) len
        | _ => count (s.request (copyReq x cl c off dst len .write bs false)) len
  | _, _ => count (s.request (copyReq x cl c off src len .read [] false)) len

/-- A running command can take a turn: it has a flit whose source the watermarks allow to be read (R24, R376). -/
def State.cpTurn (s : State) (x : Sec) (cl : Fin 96) (c : CpCmd) : Option (Nat × Nat) :=
  match c.todo with
  | [] => none
  | (off, len) :: _ => match placeOf c.actor.agent (c.src.toNat + off) 1 with
    | .ok (.spad _ so) => if s.belowMark x cl so len then none else some (off, len)
    | _ => some (off, len)

/-- The queue that starts next: the next one after the last whose head can start. -/
def State.cpNext (s : State) (x : Sec) (cl : Fin 96) : Option (Fin 8 × CpCmd) :=
  let c := s.cluster x cl
  firstSome (fun k =>
    let q : Fin 8 := Fin.ofNat 8 (c.cpLast.val + 1 + k)
    match c.cp.get q with
    | h :: _ => if s.earlierDone h.actor then some (q, h) else none
    | [] => none) (List.range 8)

/-- Start the head of a queue. -/
def State.cpStart (s : State) (x : Sec) (cl : Fin 96) (q : Fin 8) (h : CpCmd) : State :=
  let s := (s.modCluster x cl fun c =>
    { c with cp := c.cp.set q.val (c.cp.get q).tail q.isLt, cpRunning := c.cpRunning ++ [h], cpLast := q }).startJob x
      h.actor
  let s := s.postAll (s.queueWaiters x cl q .copy)
  if h.op = .sendg then s.post (.ringReservation x cl h.id) else s

/-- The unit's next action: start a command, else move the next flit of the running command whose turn it is. -/
def execCopyCommandStart (x : Sec) (cl : Fin 96) (s : State) : Host.Outcome State Fault Refusal :=
  event (
    let c := s.cluster x cl
    let again := fun (s : State) => s.post (.copyCommandStart x cl)
    if !s.unitsRun x ∨ s.isFenced x (chipletOf cl) then s
    else match (if c.cpRunning.length < 8 then s.cpNext x cl else none) with
      | some (q, h) => again (s.cpStart x cl q h)
      | none => match firstSome (fun (k : CpCmd) => (s.cpTurn x cl k).map fun p => (k, p)) c.cpRunning with
        | none => s
        | some (k, p) =>
          let k' := { k with todo := k.todo.tail }
          let s := s.modCluster x cl fun c => { c with cpRunning := c.cpRunning.filter (fun e => e.id != k.id) ++ [k'] }
          again (s.moveFlit x cl k' p.1 p.2))

/-- Bytes of a command have been accepted, or have failed. -/
def State.flitDone (s : State) (b : BankReq) (n : Nat) (f : Option Flt) : State :=
  s.modRunning b.sec b.cl b.cmd fun c =>
    let c := { c with unaccepted := c.unaccepted - n }
    match f with
    | some f => c.fails f
    | none => c

/-- Read words for a job from an address up: those before the first that fails. -/
def State.readWordsOf (s : State) (a : Actor) (ea : Nat) : Nat → List Byte × State × Option Flt
  | 0 => ([], s, none)
  | n + 1 => match s.jobRead a ea 8 with
    | .error f => ([], s, some f)
    | .ok r =>
      let q := r.2.readWordsOf a (ea + 8) n
      (r.1 ++ q.1, q.2.1, q.2.2)

/-- Write words for a job from an address up: those before the first that fails. -/
def State.writeWordsOf (s : State) (a : Actor) (ea : Nat) (bs : List Byte) : Nat → State × Nat × Option Flt
  | 0 => (s, 0, none)
  | n + 1 => match s.jobWrite a ea (bs.take 8) with
    | .error f => (s, 0, some f)
    | .ok t =>
      let q := t.writeWordsOf a (ea + 8) (bs.drop 8) n
      (q.1, q.2.1 + 8, q.2.2)

/-- The exporter's page of a peer address, which the unit translates before it moves a flit there (R277; log entry 110):
the failure of one that is not resident. -/
def State.peerPage (s : State) (a : Actor) (ea : Nat) (kind : AccKind) : Option Flt :=
  match placeOf a.agent ea 1 with
  | .ok (.peer slot off) => match s.peerCheck (secOf a.agent) slot off 1 kind with
    | .error sub => some (fltAt cPEER sub ea)
    | .ok (y, asid, va) => match s.translate y asid va with
      | .error (.page sub) => if sub = subPerm then none else some (fltAt cPEER peerNotres ea)
      | _ => none
  | _ => none

/-- A request tries again later: a set was full of pinned lines (R331). -/
def State.serveAgain (s : State) (b : BankReq) : State := s.post b.due

/-- A flit's read at its home (R275, R333): its words before a failing one are moved. -/
def State.serveFlitRead (s : State) (b : BankReq) : State :=
  let r := match s.peerPage b.actor b.ea .read with
    | some f => ([], s, some f)
    | none => s.readWordsOf b.actor b.ea (b.len / 8)
  if r.2.2.any Flt.waits then s.serveAgain b
  else
  let t := { r.2.1 with bankq := r.2.1.bankq.filter fun e => e.id != b.id }
  let got := r.1.length
  let t := if b.len = got then t else t.flitDone b (b.len - got) r.2.2
  if got = 0 then t
  else match t.running b.sec b.cl b.cmd with
    | none => t
    | some c => t.request (copyReq b.sec b.cl c b.elem (c.dst.toNat + b.elem) got .read r.1 true)

/-- `flush` empties each source word whose bytes have been accepted (R275). -/
def State.emptySource (s : State) (b : BankReq) (n : Nat) : State :=
  match s.running b.sec b.cl b.cmd with
  | some c =>
    if c.op = .flush then
      (List.range (n / 8)).foldl (fun s i => s.setFull b.sec b.cl (spadOff (c.src.toNat + b.elem) + 8 * i) false) s
    else s
  | none => s

/-- A flit's write at its home (R275). -/
def State.serveFlitWrite (s : State) (b : BankReq) : State :=
  let r := match s.peerPage b.actor b.ea .write with
    | some f => (s, 0, some f)
    | none => s.writeWordsOf b.actor b.ea b.data (b.len / 8)
  if r.2.2.any Flt.waits then s.serveAgain b
  else
  let t := { r.1 with bankq := r.1.bankq.filter fun e => e.id != b.id }
  (t.emptySource b r.2.1).flitDone b b.len r.2.2

/-- The exporter hears of the page at which a copy stops (R357, R394). -/
def State.stopNotice (s : State) (x : Sec) (c : CpCmd) : State :=
  match c.stop with
  | some f => s.peerNotice x f
  | none => s

/-- The remainder of a copy (R277, R396): the descriptor in the fault record of the issuing context, and the interrupt
to the owner. -/
def State.remainder (s : State) (x : Sec) (a : Actor) (f : Flt) (resume rest : Nat) (pc : Word) (w : BitVec 32) : State :=
  match a.vt, a.agent with
  | some v, .thread _ i => match s.inst x v.uid with
    | none => s
    | some inst =>
      let s := s.areaWrite x inst.asid (inst.rcd.save + areaRecord i.val)
        (faultRecord { f with job := a.job, detail := resume } false false true pc (word v.n)
          (ctxidThread (agentKey (ctxAgent x a.home))) w rest)
      s.irq x inst.top irqCopy f.addr
  | _, .master _ n => s.irq x n irqCopy f.addr
  | none, _ => s

/-- A command with nothing left to move and nothing outstanding ends (R275, R277, R282). -/
def State.finishCopy (s : State) (x : Sec) (cl : Fin 96) (c : CpCmd) : State :=
  let s := s.modCluster x cl fun k => { k with cpRunning := k.cpRunning.filter fun e => e.id != c.id }
  let s := match c.flt, c.stop with
    | some f, _ => s.endJob x c.actor 1 0 (some f)
    | none, some f =>
      let resume := f.addr.toNat - c.side
      ((s.stopNotice x c).remainder x c.actor f resume (c.len - resume) c.pc c.instr).endJob x c.actor 2 resume none
    | none, none =>
      if c.full then s.endJob x c.actor 3 0 none
      else s.endJob x c.actor 1 (match c.ring with
        | some r => r.q % 2 ^ 56
        | none => 0) none
  (s.nudge c.actor).post (.copyCommandStart x cl)

/-- A running command is looked at: it completes, or goes on. -/
def execCopyComplete (x : Sec) (cl : Fin 96) (id : Nat) (s : State) : Host.Outcome State Fault Refusal :=
  event (match s.running x cl id with
    | none => s
    | some c =>
      if c.todo.isEmpty ∧ c.unaccepted = 0 then s.finishCopy x cl c
      else if c.op = .sendg ∧ c.ring.isNone then s.post (.ringReservation x cl id)
      else if c.todo.isEmpty then s
      else s.post (.copyCommandStart x cl))

/-! ## Receive rings (R281 to R283) -/

/-- Where a ring lies: its home sector, the address space there, and how far an address is from its virtual address
there. -/
structure RingHome where
  sec : Sec
  asid : BitVec 16
  /-- The first address of the space and its virtual address at the home. -/
  base : Nat
  va : Nat
  deriving DecidableEq, Repr

/-- The home of `n` bytes at an address (R282, R357). -/
def State.ringHome (s : State) (a : Actor) (ea n : Nat) (kind : AccKind) : Except Flt RingHome :=
  match placeOf a.agent ea n with
  | .error f => .error f
  | .ok (.app va) => .ok ⟨secOf a.agent, a.asid, ea, va⟩
  | .ok (.peer slot off) => match s.peerCheck (secOf a.agent) slot off n kind with
    | .ok (y, asid, va) => .ok ⟨y, asid, ea, va⟩
    | .error sub => .error (fltAt cPEER sub ea)
  | .ok _ => .error (fltAt cADR 0 ea)

/-- Two addresses are in the same space, and in the same slot if they are in peer windows (R281). -/
def sameSpace (a b : Nat) : Bool := if a / 2 ^ 56 = 0 then b / 2 ^ 56 == 0 else a / 2 ^ 40 == b / 2 ^ 40

/-- The header's fields, and the header after a reservation of `r` bytes. -/
structure RingHead where
  head : Nat
  tail : Nat
  size : Nat
  data : Nat
  count : Nat
  deriving DecidableEq, Repr
def parseRing (bs : List Byte) : RingHead :=
  let w := fun (i : Nat) => leNat (slice bs (8 * i) 8)
  ⟨w 0, w 1, w 2, w 3, w 4⟩
def RingHead.legal (h : RingHead) : Bool :=
  decide (8192 ≤ h.size) && decide (h.size ≤ 2 ^ 40) && (List.range 41).any (fun k => h.size == 2 ^ k) && h.data % 64 == 0
def RingHead.fits (h : RingHead) (r : Nat) : Bool := decide ((h.tail + r + (2 ^ 64 - h.head)) % 2 ^ 64 ≤ h.size)
def ringAfter (old r : Nat) : Nat :=
  let bs := leBytes 64 old
  let h := parseRing bs
  leNat (splice (splice bs 8 (leBytes 8 (h.tail + r))) 32 (leBytes 8 (h.count + 1)))

/-- The size of a record. -/
def recordSize (len : Nat) : Nat := 16 + roundUp len 16

/-- How a record's writes are checked: plain stores of the issuer; a retry makes no race check. -/
def recordAcc (race : Option VtName) : Acc := { kind := .write, app := true, nc := false, race := race }

/-- The first page of a record that has no valid mapping, by home address. -/
def State.missingPage (s : State) (y : Sec) (asid : BitVec 16) (segs : List (Nat × List Byte)) : Option Nat :=
  firstSome (fun p =>
    if (s.line (lineKey y asid p.1)).isSome then none
    else match s.translate y asid p.1 with
      | .ok _ => none
      | .error (.page sub) => if sub = subNomap then some (p.1 / 65536 * 65536) else none
      | .error _ => none) segs

/-- Write the pieces of a record at its home. -/
def State.writeRecord (s : State) (y : Sec) (asid : BitVec 16) (race : Option VtName) :
    List (Nat × List Byte) → Except (HomeErr × Nat) State
  | [] => .ok s
  | p :: ps => match (s.conflictRange y asid p.1 p.2.length true).writeHome y asid p.1 p.2 (recordAcc race) with
    | .ok t => t.writeRecord y asid race ps
    | .error e => .error e

/-- The instance of a command is checked for races. -/
def State.raceOf (s : State) (a : Actor) : Option VtName := (s.actAcc a .write true).race

/-- Reserve a record at the home of its header (R282): the header's access is checked as an atomic, without a race
check, and nothing is reserved when it fails. -/
def State.reserve (s : State) (x : Sec) (cl : Fin 96) (c : CpCmd) : State :=
  let a := c.actor
  let ea := c.dst.toNat
  let fail := fun (f : Flt) => s.sendgDone x cl c.id (some f)
  match s.ringHome a ea 64 .atomic with
  | .error f => fail f
  | .ok h => match (if h.base < 2 ^ 56 then s.actLease a h.va 64 else .ok ()) with
    | .error f => fail f
    | .ok _ =>
      let acc := { recordAcc none with kind := AccKind.atomic }
      let err := fun (e : HomeErr) =>
        if ea < 2 ^ 56 then homeFlt false .atomic e ea else peerErr false .atomic e ea
      match (s.conflictRange h.sec h.asid h.va 64 true).updateHome h.sec h.asid h.va 64 acc id with
      | .error .busy => s.post (.ringReservation x cl c.id)
      | .error e => (s.peerNotice x (err e)).sendgDone x cl c.id (some (err e))
      | .ok (old, _) =>
        let q := parseRing (leBytes 64 old)
        let r := recordSize c.len
        if !q.legal then fail (flt cSHP 0x29)
        else if !q.fits r then (s.modRunning x cl c.id fun c => { c with full := true }).sendgDone x cl c.id none
        else match (s.conflictRange h.sec h.asid h.va 64 true).updateHome h.sec h.asid h.va 64 acc (ringAfter · r) with
          | .error .busy => s.post (.ringReservation x cl c.id)
          | .error e => fail (err e)
          | .ok (_, t) =>
            let slot : RingSlot := ⟨q.tail, (q.count + 1) % 2 ^ 64, q.data, q.size⟩
            (t.modRunning x cl c.id fun c => { c with
              ring := some slot, todo := flitsOf (q.data + (q.tail + 16) % q.size) (roundUp c.len 8) }).post
              (.copyCommandStart x cl)

/-- The reservation of a `sendg`, once its source can be read; its bytes are then moved flit by flit (R376). -/
def execRingReservation (x : Sec) (cl : Fin 96) (id : Nat) (s : State) : Host.Outcome State Fault Refusal :=
  event (match s.running x cl id with
    | none => s
    | some c =>
      let so := spadOff c.src.toNat
      if c.op ≠ .sendg ∨ c.ring.isSome ∨ c.unaccepted = 0 then s
      else if s.belowMark x cl so (roundUp c.len 8) then s
      else match s.badSource x cl so (roundUp c.len 8) c.src.toNat with
        | some f => s.sendgDone x cl id (some f)
        | none => s.reserve x cl c)

/-- The port of a ring's home Stratus that receives the record of a cluster (R283, R412): the link of its chiplet in the
own sector, else the bridge on the path (log entry 131). -/
def State.receivingPort (s : State) (x : Sec) (cl : Fin 96) (y : Sec) : Nat :=
  let bridge := fun (a : Sec) => 4 + ((bridgeOf a y).map (·.val)).getD 0
  if x = y then (chipletOf cl).val
  else if s.bridgeUp x y then bridge x
  else match ([0, 1, 2, 3] : List Sec).find? fun c => s.bridgeUp x c && s.bridgeUp c y with
    | some c => bridge c
    | none => bridge x

/-- A record reaches its ring (R282, R283): a missing page holds it at the port that received it, or here while the
fault queue there is full. DESIGN CHOICE (log entry 130): a data area outside the header's space ends the job with ADR
at its start. -/
def State.serveRecord (s : State) (b : BankReq) (c : CpCmd) (r : RingSlot) : State :=
  let drop := fun (s : State) => { s with bankq := s.bankq.filter fun e => e.id != b.id }
  let fail := fun (f : Flt) => (drop s).sendgDone b.sec b.cl c.id (some f)
  if !sameSpace c.dst.toNat r.data then fail (fltAt cADR 0 r.data)
  else match s.ringHome b.actor r.data r.size .write with
    | .error f => fail f
    | .ok h =>
      let segs := (recordPieces r b.actor.home b.data).map fun p => (p.1 - h.base + h.va, p.2)
      match s.missingPage h.sec h.asid segs with
      | some page =>
        let port := s.receivingPort b.sec b.cl h.sec
        if ((s.sec h.sec).held.filter fun e => e.port == port).length < 64 then
          let rec_ : HeldRecord := ⟨port, h.asid, r.q, h.va + r.off % r.size, segs⟩
          let t := (drop s).modSec h.sec fun y => { y with held := y.held ++ [rec_] }
          (t.irqSector h.sec irqRing (word page)).sendgDone b.sec b.cl c.id none
        else s
      | none => match s.writeRecord h.sec h.asid (s.raceOf b.actor) segs with
        | .ok t => (drop t).sendgDone b.sec b.cl c.id none
        | .error (.busy, _) => s.serveAgain b
        | .error (e, va) =>
          let ea := va - h.va + h.base
          fail (if ea < 2 ^ 56 then homeFlt false .write e ea else peerErr false .write e ea)

/-- Serve a request of a copy command at its home. -/
def State.serveCopy (s : State) (b : BankReq) : State :=
  match s.running b.sec b.cl b.cmd with
  | none => { s with bankq := s.bankq.filter fun e => e.id != b.id }
  | some c => match b.op, c.ring with
    | .read, _ => s.serveFlitRead b
    | .record, some r => s.serveRecord b c r
    | _, _ => s.serveFlitWrite b

/-- Retry the held records of a sector in ascending order of their numbers (R283). -/
def State.retryRecord (s : State) (y : Sec) (r : HeldRecord) : State :=
  match s.missingPage y r.asid r.segs with
  | some _ => s.modSec y fun c => { c with held := c.held ++ [r] }
  | none => match s.writeRecord y r.asid none r.segs with
    | .ok t => t
    | .error (.busy, _) => s.modSec y fun c => { c with held := c.held ++ [r] }
    | .error _ => s.irqSector y irqRingdrop (word r.va)
def State.retryHeld (s : State) (y : Sec) : State :=
  let rs := (s.sec y).held.mergeSort fun a b => decide (a.q ≤ b.q)
  let s := rs.foldl (fun s r => s.retryRecord y r) (s.modSec y fun c => { c with held := [] })
  s.postAll (s.bankq.filterMap fun b => if b.op = .record then some b.due else none)

end Sys2Proof.Machine
end

