-- ==== Sys2Proof/Decode.lean ====
section
/-! DEFINITION. The decoder, total on any bytes and rejecting by name, and after it the encoder, both written from the
formats and the opcode map (R50 to R58, R66) and from the Cirrus formats (R246 to R248). The definitions that build an
instruction past the 245th constructor are marked noncomputable, because the compiler cannot represent such a value;
the kernel evaluates them like any other. -/

namespace Sys2Proof

/-- Bits [lo+n-1:lo] of a word. -/
def fld (w lo n : Nat) : Nat := w / 2 ^ lo % 2 ^ n

/-- Bit `lo` of a word. -/
def bit (w lo : Nat) : Bool := fld w lo 1 == 1

/-- A field value as a number below `n + 1`. -/
def finOf (n : Nat) [NeZero n] (v : Nat) : Fin n := Fin.ofNat n v

/-- Condition codes (R55). -/
def condOf (n : Nat) : Cond :=
  match n with
  | 0 => .eq
  | 1 => .ne
  | 2 => .lt
  | 3 => .ge
  | 4 => .le
  | 5 => .gt
  | 6 => .ltu
  | _ => .geu

/-- The code of a `Cond`. -/
def condCode : Cond → Nat
  | .eq => 0
  | .ne => 1
  | .lt => 2
  | .ge => 3
  | .le => 4
  | .gt => 5
  | .ltu => 6
  | .geu => 7

/-- Scope codes (R57). -/
def scopeOf (n : Nat) : Scope :=
  match n with
  | 0 => .cl
  | 1 => .ch
  | 2 => .se
  | _ => .pk

/-- The code of a `Scope`. -/
def scopeCode : Scope → Nat
  | .cl => 0
  | .ch => 1
  | .se => 2
  | .pk => 3

/-- Order codes (R57). -/
def orderOf (n : Nat) : Order :=
  match n with
  | 0 => .rlx
  | 1 => .acq
  | 2 => .rel
  | _ => .ar

/-- The code of a `Order`. -/
def orderCode : Order → Nat
  | .rlx => 0
  | .acq => 1
  | .rel => 2
  | .ar => 3

/-- Size codes (R122). -/
def sizeOf (n : Nat) : Size :=
  match n with
  | 0 => .b
  | 1 => .h
  | 2 => .w
  | _ => .d

/-- The code of a `Size`. -/
def sizeCode : Size → Nat
  | .b => 0
  | .h => 1
  | .w => 2
  | .d => 3

/-- ORD codes (R56). -/
def mordOf (n : Nat) : MOrd :=
  match n with
  | 0 => .rlx
  | 1 => .sector
  | 2 => .package
  | _ => .ro

/-- The code of a `MOrd`. -/
def mordCode : MOrd → Nat
  | .rlx => 0
  | .sector => 1
  | .package => 2
  | .ro => 3

/-- Codes of `fcvt` (R134). -/
def fcvtOf (n : Nat) : FcvtKind :=
  match n with
  | 0 => .f32i32
  | 1 => .f32i64
  | 2 => .i32f32
  | 3 => .i64f32
  | 4 => .f32bf16
  | 5 => .bf16f32
  | 6 => .f32f16
  | _ => .f16f32

/-- The code of a `FcvtKind`. -/
def fcvtCode : FcvtKind → Nat
  | .f32i32 => 0
  | .f32i64 => 1
  | .i32f32 => 2
  | .i64f32 => 3
  | .f32bf16 => 4
  | .bf16f32 => 5
  | .f32f16 => 6
  | .f16f32 => 7

/-- Codes of `dcvt` (R137). -/
def dcvtOf (n : Nat) : Option DcvtKind :=
  match n with
  | 0 => some .f64i64
  | 1 => some .i64f64
  | 2 => some .f64f32
  | 3 => some .f32f64
  | 4 => some .f64i32
  | 5 => some .i32f64
  | _ => none

/-- The code of a `DcvtKind`. -/
def dcvtCode : DcvtKind → Nat
  | .f64i64 => 0
  | .i64f64 => 1
  | .f64f32 => 2
  | .f32f64 => 3
  | .f64i32 => 4
  | .i32f64 => 5

/-- Tag codes (R17); 14 names nothing. -/
def tagOf (n : Nat) : Option Tag :=
  match n with
  | 0 => some .raw
  | 1 => some .i8
  | 2 => some .u8
  | 3 => some .i16
  | 4 => some .i32
  | 5 => some .i64
  | 6 => some .f64
  | 7 => some .f32
  | 8 => some .bf16
  | 9 => some .f16
  | 10 => some .e4m3
  | 11 => some .e5m2
  | 12 => some .e2m1x
  | 13 => some .b8
  | 15 => some .inv
  | _ => none

/-- The code of a `Tag`. -/
def tagCode : Tag → Nat
  | .raw => 0
  | .i8 => 1
  | .u8 => 2
  | .i16 => 3
  | .i32 => 4
  | .i64 => 5
  | .f64 => 6
  | .f32 => 7
  | .bf16 => 8
  | .f16 => 9
  | .e4m3 => 10
  | .e5m2 => 11
  | .e2m1x => 12
  | .b8 => 13
  | .inv => 15

/-- Class codes (R187). -/
def vclassOf (n : Nat) : Option VClass :=
  match n with
  | 0 => some .nan
  | 1 => some .negInf
  | 2 => some .posInf
  | 3 => some .negNormal
  | 4 => some .posNormal
  | 5 => some .negSub
  | 6 => some .posSub
  | 7 => some .negZero
  | 8 => some .posZero
  | 9 => some .sNan
  | 10 => some .inf
  | 11 => some .zero
  | 12 => some .signBit
  | _ => none

/-- The code of a `VClass`. -/
def vclassCode : VClass → Nat
  | .nan => 0
  | .negInf => 1
  | .posInf => 2
  | .negNormal => 3
  | .posNormal => 4
  | .negSub => 5
  | .posSub => 6
  | .negZero => 7
  | .posZero => 8
  | .sNan => 9
  | .inf => 10
  | .zero => 11
  | .signBit => 12

/-- Source codes of a Cirrus word (R247). -/
def srcOf (n : Nat) : Option Src :=
  if n < 8 then some (.c (finOf 8 n))
  else if n < 16 then some (.k (finOf 8 (n - 8)))
  else match n with
    | 16 => some .par0
    | 17 => some .par1
    | 18 => some .nr
    | 19 => some .nc
    | _ => none

/-- The code of a `Src`. -/
def srcCode : Src → Nat
  | .c n => n.val
  | .k n => 8 + n.val
  | .par0 => 16
  | .par1 => 17
  | .nr => 18
  | .nc => 19

/-- Group Int (OP 0x00, R58). -/
def decodeInt (w : Nat) : Except Reject Instr :=
  match fld w 7 6 with
  | 0 => if fld w 0 7 = 0 then .ok (.add (bit w 31) (finOf 16 (fld w 21 4)) (finOf 16 (fld w 17 4)) (finOf 16 (fld w 13 4))) else .error .res0
  | 1 => if fld w 0 7 = 0 then .ok (.sub (bit w 31) (finOf 16 (fld w 21 4)) (finOf 16 (fld w 17 4)) (finOf 16 (fld w 13 4))) else .error .res0
  | 2 => if fld w 0 7 = 0 then .ok (.addw (bit w 31) (finOf 16 (fld w 21 4)) (finOf 16 (fld w 17 4)) (finOf 16 (fld w 13 4))) else .error .res0
  | 3 => if fld w 0 7 = 0 then .ok (.subw (bit w 31) (finOf 16 (fld w 21 4)) (finOf 16 (fld w 17 4)) (finOf 16 (fld w 13 4))) else .error .res0
  | 4 => if fld w 0 7 = 0 then .ok (.and (bit w 31) (finOf 16 (fld w 21 4)) (finOf 16 (fld w 17 4)) (finOf 16 (fld w 13 4))) else .error .res0
  | 5 => if fld w 0 7 = 0 then .ok (.or (bit w 31) (finOf 16 (fld w 21 4)) (finOf 16 (fld w 17 4)) (finOf 16 (fld w 13 4))) else .error .res0
  | 6 => if fld w 0 7 = 0 then .ok (.xor (bit w 31) (finOf 16 (fld w 21 4)) (finOf 16 (fld w 17 4)) (finOf 16 (fld w 13 4))) else .error .res0
  | 7 => if fld w 0 7 = 0 then .ok (.andn (bit w 31) (finOf 16 (fld w 21 4)) (finOf 16 (fld w 17 4)) (finOf 16 (fld w 13 4))) else .error .res0
  | 8 => if fld w 0 7 = 0 then .ok (.shl (bit w 31) (finOf 16 (fld w 21 4)) (finOf 16 (fld w 17 4)) (finOf 16 (fld w 13 4))) else .error .res0
  | 9 => if fld w 0 7 = 0 then .ok (.shr (bit w 31) (finOf 16 (fld w 21 4)) (finOf 16 (fld w 17 4)) (finOf 16 (fld w 13 4))) else .error .res0
  | 10 => if fld w 0 7 = 0 then .ok (.sar (bit w 31) (finOf 16 (fld w 21 4)) (finOf 16 (fld w 17 4)) (finOf 16 (fld w 13 4))) else .error .res0
  | 11 => if fld w 0 7 = 0 then .ok (.min (bit w 31) (finOf 16 (fld w 21 4)) (finOf 16 (fld w 17 4)) (finOf 16 (fld w 13 4))) else .error .res0
  | 12 => if fld w 0 7 = 0 then .ok (.max (bit w 31) (finOf 16 (fld w 21 4)) (finOf 16 (fld w 17 4)) (finOf 16 (fld w 13 4))) else .error .res0
  | 13 => if fld w 0 7 = 0 then .ok (.minu (bit w 31) (finOf 16 (fld w 21 4)) (finOf 16 (fld w 17 4)) (finOf 16 (fld w 13 4))) else .error .res0
  | 14 => if fld w 0 7 = 0 then .ok (.maxu (bit w 31) (finOf 16 (fld w 21 4)) (finOf 16 (fld w 17 4)) (finOf 16 (fld w 13 4))) else .error .res0
  | 15 => if fld w 0 7 = 0 ∧ fld w 13 4 = 0 then .ok (.abs (bit w 31) (finOf 16 (fld w 21 4)) (finOf 16 (fld w 17 4))) else .error .res0
  | 16 => if fld w 0 7 = 0 ∧ fld w 13 4 = 0 then .ok (.neg (bit w 31) (finOf 16 (fld w 21 4)) (finOf 16 (fld w 17 4))) else .error .res0
  | 17 => if fld w 0 7 = 0 ∧ fld w 13 4 = 0 then .ok (.mov (bit w 31) (finOf 16 (fld w 21 4)) (finOf 16 (fld w 17 4))) else .error .res0
  | 18 => if fld w 0 7 = 0 then .ok (.sh1add (bit w 31) (finOf 16 (fld w 21 4)) (finOf 16 (fld w 17 4)) (finOf 16 (fld w 13 4))) else .error .res0
  | 19 => if fld w 0 7 = 0 then .ok (.sh2add (bit w 31) (finOf 16 (fld w 21 4)) (finOf 16 (fld w 17 4)) (finOf 16 (fld w 13 4))) else .error .res0
  | 20 => if fld w 0 7 = 0 then .ok (.sh3add (bit w 31) (finOf 16 (fld w 21 4)) (finOf 16 (fld w 17 4)) (finOf 16 (fld w 13 4))) else .error .res0
  | _ => .error .sub

/-- OP 0x01 (R58). -/
def decodeAddi (w : Nat) : Except Reject Instr :=
  .ok (.addi (bit w 31) (finOf 16 (fld w 21 4)) (finOf 16 (fld w 17 4)) (BitVec.ofNat 17 (fld w 0 17)))

/-- OP 0x02 (R58). -/
def decodeAndi (w : Nat) : Except Reject Instr :=
  .ok (.andi (bit w 31) (finOf 16 (fld w 21 4)) (finOf 16 (fld w 17 4)) (BitVec.ofNat 17 (fld w 0 17)))

/-- OP 0x03 (R58). -/
def decodeOri (w : Nat) : Except Reject Instr :=
  .ok (.ori (bit w 31) (finOf 16 (fld w 21 4)) (finOf 16 (fld w 17 4)) (BitVec.ofNat 17 (fld w 0 17)))

/-- OP 0x04 (R58). -/
def decodeXori (w : Nat) : Except Reject Instr :=
  .ok (.xori (bit w 31) (finOf 16 (fld w 21 4)) (finOf 16 (fld w 17 4)) (BitVec.ofNat 17 (fld w 0 17)))

/-- Group Shi (OP 0x05, R58). -/
def decodeShi (w : Nat) : Except Reject Instr :=
  match fld w 7 6 with
  | 0 => if fld w 6 1 = 0 ∧ fld w 13 4 = 0 then .ok (.shli (bit w 31) (finOf 16 (fld w 21 4)) (finOf 16 (fld w 17 4)) (BitVec.ofNat 6 (fld w 0 6))) else .error .res0
  | 1 => if fld w 6 1 = 0 ∧ fld w 13 4 = 0 then .ok (.shri (bit w 31) (finOf 16 (fld w 21 4)) (finOf 16 (fld w 17 4)) (BitVec.ofNat 6 (fld w 0 6))) else .error .res0
  | 2 => if fld w 6 1 = 0 ∧ fld w 13 4 = 0 then .ok (.sari (bit w 31) (finOf 16 (fld w 21 4)) (finOf 16 (fld w 17 4)) (BitVec.ofNat 6 (fld w 0 6))) else .error .res0
  | _ => .error .sub

/-- OP 0x06 (R58). -/
def decodeLdi (w : Nat) : Except Reject Instr :=
  if fld w 17 4 = 0 then .ok (.ldi (bit w 31) (finOf 16 (fld w 21 4)) (BitVec.ofNat 17 (fld w 0 17))) else .error .res0

/-- OP 0x07 (R58). -/
def decodeCmpi (w : Nat) : Except Reject Instr :=
  .ok (.cmpi (bit w 31) (finOf 8 (fld w 22 3)) (condOf (fld w 19 3)) (finOf 16 (fld w 15 4)) (BitVec.ofNat 15 (fld w 0 15)))

/-- Group Mul (OP 0x08, R58). -/
def decodeMul (w : Nat) : Except Reject Instr :=
  match fld w 7 6 with
  | 0 => if fld w 0 7 = 0 then .ok (.mul (bit w 31) (finOf 16 (fld w 21 4)) (finOf 16 (fld w 17 4)) (finOf 16 (fld w 13 4))) else .error .res0
  | 1 => if fld w 0 7 = 0 then .ok (.mulh (bit w 31) (finOf 16 (fld w 21 4)) (finOf 16 (fld w 17 4)) (finOf 16 (fld w 13 4))) else .error .res0
  | 2 => if fld w 0 7 = 0 then .ok (.mulhu (bit w 31) (finOf 16 (fld w 21 4)) (finOf 16 (fld w 17 4)) (finOf 16 (fld w 13 4))) else .error .res0
  | 3 => if fld w 0 7 = 0 then .ok (.mulw (bit w 31) (finOf 16 (fld w 21 4)) (finOf 16 (fld w 17 4)) (finOf 16 (fld w 13 4))) else .error .res0
  | 4 => if fld w 0 7 = 0 then .ok (.div (bit w 31) (finOf 16 (fld w 21 4)) (finOf 16 (fld w 17 4)) (finOf 16 (fld w 13 4))) else .error .res0
  | 5 => if fld w 0 7 = 0 then .ok (.divu (bit w 31) (finOf 16 (fld w 21 4)) (finOf 16 (fld w 17 4)) (finOf 16 (fld w 13 4))) else .error .res0
  | 6 => if fld w 0 7 = 0 then .ok (.rem (bit w 31) (finOf 16 (fld w 21 4)) (finOf 16 (fld w 17 4)) (finOf 16 (fld w 13 4))) else .error .res0
  | 7 => if fld w 0 7 = 0 then .ok (.remu (bit w 31) (finOf 16 (fld w 21 4)) (finOf 16 (fld w 17 4)) (finOf 16 (fld w 13 4))) else .error .res0
  | _ => .error .sub

/-- Group Bit (OP 0x09, R58). -/
def decodeBit (w : Nat) : Except Reject Instr :=
  match fld w 7 6 with
  | 0 => if fld w 0 7 = 0 ∧ fld w 13 4 = 0 then .ok (.clz (bit w 31) (finOf 16 (fld w 21 4)) (finOf 16 (fld w 17 4))) else .error .res0
  | 1 => if fld w 0 7 = 0 ∧ fld w 13 4 = 0 then .ok (.ctz (bit w 31) (finOf 16 (fld w 21 4)) (finOf 16 (fld w 17 4))) else .error .res0
  | 2 => if fld w 0 7 = 0 ∧ fld w 13 4 = 0 then .ok (.popc (bit w 31) (finOf 16 (fld w 21 4)) (finOf 16 (fld w 17 4))) else .error .res0
  | 3 => if fld w 0 7 = 0 ∧ fld w 13 4 = 0 then .ok (.bswap (bit w 31) (finOf 16 (fld w 21 4)) (finOf 16 (fld w 17 4))) else .error .res0
  | 4 => if fld w 0 7 = 0 then .ok (.bfx (bit w 31) (finOf 16 (fld w 21 4)) (finOf 16 (fld w 17 4)) (finOf 16 (fld w 13 4))) else .error .res0
  | 5 => if fld w 0 7 = 0 then .ok (.bfxu (bit w 31) (finOf 16 (fld w 21 4)) (finOf 16 (fld w 17 4)) (finOf 16 (fld w 13 4))) else .error .res0
  | 6 => if fld w 0 7 = 0 then .ok (.bfi (bit w 31) (finOf 16 (fld w 21 4)) (finOf 16 (fld w 17 4)) (finOf 16 (fld w 13 4))) else .error .res0
  | _ => .error .sub

/-- Group Cmp (OP 0x0A, R58). -/
def decodeCmp (w : Nat) : Except Reject Instr :=
  match fld w 7 6 with
  | 0 => if fld w 3 4 = 0 ∧ fld w 24 1 = 0 then .ok (.cmp (bit w 31) (finOf 8 (fld w 21 3)) (finOf 16 (fld w 17 4)) (finOf 16 (fld w 13 4)) (condOf (fld w 0 3))) else .error .res0
  | 1 => if fld w 1 6 = 0 ∧ fld w 24 1 = 0 then .ok (.test (bit w 31) (finOf 8 (fld w 21 3)) (finOf 16 (fld w 17 4)) (finOf 16 (fld w 13 4)) (bit w 0)) else .error .res0
  | _ => .error .sub

/-- Group Pred (OP 0x0B, R58). -/
def decodePred (w : Nat) : Except Reject Instr :=
  match fld w 7 6 with
  | 0 => if fld w 3 4 = 0 then .ok (.sel (bit w 31) (finOf 16 (fld w 21 4)) (finOf 16 (fld w 17 4)) (finOf 16 (fld w 13 4)) (finOf 8 (fld w 0 3))) else .error .res0
  | 1 => if fld w 0 7 = 0 ∧ fld w 16 1 = 0 ∧ fld w 20 1 = 0 ∧ fld w 24 1 = 0 then .ok (.pand (bit w 31) (finOf 8 (fld w 21 3)) (finOf 8 (fld w 17 3)) (finOf 8 (fld w 13 3))) else .error .res0
  | 2 => if fld w 0 7 = 0 ∧ fld w 16 1 = 0 ∧ fld w 20 1 = 0 ∧ fld w 24 1 = 0 then .ok (.por (bit w 31) (finOf 8 (fld w 21 3)) (finOf 8 (fld w 17 3)) (finOf 8 (fld w 13 3))) else .error .res0
  | 3 => if fld w 0 7 = 0 ∧ fld w 16 1 = 0 ∧ fld w 20 1 = 0 ∧ fld w 24 1 = 0 then .ok (.pxor (bit w 31) (finOf 8 (fld w 21 3)) (finOf 8 (fld w 17 3)) (finOf 8 (fld w 13 3))) else .error .res0
  | 4 => if fld w 0 7 = 0 ∧ fld w 13 4 = 0 ∧ fld w 20 1 = 0 ∧ fld w 24 1 = 0 then .ok (.pnot (bit w 31) (finOf 8 (fld w 21 3)) (finOf 8 (fld w 17 3))) else .error .res0
  | 5 => if fld w 0 7 = 0 ∧ fld w 13 8 = 0 then .ok (.pget (bit w 31) (finOf 16 (fld w 21 4))) else .error .res0
  | 6 => if fld w 0 7 = 0 ∧ fld w 13 4 = 0 ∧ fld w 21 4 = 0 then .ok (.pset (bit w 31) (finOf 16 (fld w 17 4))) else .error .res0
  | _ => .error .sub

/-- OP 0x0C (R58). -/
def decodeLd (w : Nat) : Except Reject Instr :=
  .ok (.ld (bit w 31) (finOf 16 (fld w 21 4)) (finOf 16 (fld w 17 4)) (sizeOf (fld w 15 2)) (bit w 14) (mordOf (fld w 12 2)) (BitVec.ofNat 12 (fld w 0 12)))

/-- OP 0x0D (R58). -/
def decodeSt (w : Nat) : Except Reject Instr :=
  if fld w 14 1 = 0 then .ok (.st (bit w 31) (finOf 16 (fld w 21 4)) (finOf 16 (fld w 17 4)) (sizeOf (fld w 15 2)) (mordOf (fld w 12 2)) (BitVec.ofNat 12 (fld w 0 12))) else .error .res0

/-- Group Atom (OP 0x0E, R58). -/
def decodeAtom (w : Nat) : Except Reject Instr :=
  match fld w 7 6 with
  | 0 => if fld w 1 1 = 1 ∧ fld w 6 1 = 0 then .ok (.aadd (bit w 31) (finOf 16 (fld w 21 4)) (finOf 16 (fld w 17 4)) (finOf 16 (fld w 13 4)) (scopeOf (fld w 4 2)) (orderOf (fld w 2 2)) (bit w 0)) else .error .res0
  | 1 => if fld w 1 1 = 1 ∧ fld w 6 1 = 0 then .ok (.aand (bit w 31) (finOf 16 (fld w 21 4)) (finOf 16 (fld w 17 4)) (finOf 16 (fld w 13 4)) (scopeOf (fld w 4 2)) (orderOf (fld w 2 2)) (bit w 0)) else .error .res0
  | 2 => if fld w 1 1 = 1 ∧ fld w 6 1 = 0 then .ok (.aor (bit w 31) (finOf 16 (fld w 21 4)) (finOf 16 (fld w 17 4)) (finOf 16 (fld w 13 4)) (scopeOf (fld w 4 2)) (orderOf (fld w 2 2)) (bit w 0)) else .error .res0
  | 3 => if fld w 1 1 = 1 ∧ fld w 6 1 = 0 then .ok (.axor (bit w 31) (finOf 16 (fld w 21 4)) (finOf 16 (fld w 17 4)) (finOf 16 (fld w 13 4)) (scopeOf (fld w 4 2)) (orderOf (fld w 2 2)) (bit w 0)) else .error .res0
  | 4 => if fld w 1 1 = 1 ∧ fld w 6 1 = 0 then .ok (.amin (bit w 31) (finOf 16 (fld w 21 4)) (finOf 16 (fld w 17 4)) (finOf 16 (fld w 13 4)) (scopeOf (fld w 4 2)) (orderOf (fld w 2 2)) (bit w 0)) else .error .res0
  | 5 => if fld w 1 1 = 1 ∧ fld w 6 1 = 0 then .ok (.amax (bit w 31) (finOf 16 (fld w 21 4)) (finOf 16 (fld w 17 4)) (finOf 16 (fld w 13 4)) (scopeOf (fld w 4 2)) (orderOf (fld w 2 2)) (bit w 0)) else .error .res0
  | 6 => if fld w 1 1 = 1 ∧ fld w 6 1 = 0 then .ok (.aminu (bit w 31) (finOf 16 (fld w 21 4)) (finOf 16 (fld w 17 4)) (finOf 16 (fld w 13 4)) (scopeOf (fld w 4 2)) (orderOf (fld w 2 2)) (bit w 0)) else .error .res0
  | 7 => if fld w 1 1 = 1 ∧ fld w 6 1 = 0 then .ok (.amaxu (bit w 31) (finOf 16 (fld w 21 4)) (finOf 16 (fld w 17 4)) (finOf 16 (fld w 13 4)) (scopeOf (fld w 4 2)) (orderOf (fld w 2 2)) (bit w 0)) else .error .res0
  | 8 => if fld w 1 1 = 1 ∧ fld w 6 1 = 0 then .ok (.aswp (bit w 31) (finOf 16 (fld w 21 4)) (finOf 16 (fld w 17 4)) (finOf 16 (fld w 13 4)) (scopeOf (fld w 4 2)) (orderOf (fld w 2 2)) (bit w 0)) else .error .res0
  | 9 => if fld w 1 1 = 1 ∧ fld w 6 1 = 0 then .ok (.acas (bit w 31) (finOf 16 (fld w 21 4)) (finOf 16 (fld w 17 4)) (finOf 16 (fld w 13 4)) (scopeOf (fld w 4 2)) (orderOf (fld w 2 2)) (bit w 0)) else .error .res0
  | 10 => if fld w 1 1 = 1 ∧ fld w 6 1 = 0 then .ok (.aincb (bit w 31) (finOf 16 (fld w 21 4)) (finOf 16 (fld w 17 4)) (finOf 16 (fld w 13 4)) (scopeOf (fld w 4 2)) (orderOf (fld w 2 2)) (bit w 0)) else .error .res0
  | 11 => if fld w 0 2 = 2 ∧ fld w 6 1 = 0 then .ok (.afadd (bit w 31) (finOf 16 (fld w 21 4)) (finOf 16 (fld w 17 4)) (finOf 16 (fld w 13 4)) (scopeOf (fld w 4 2)) (orderOf (fld w 2 2))) else .error .res0
  | 12 => if fld w 0 2 = 2 ∧ fld w 6 1 = 0 then .ok (.afmax (bit w 31) (finOf 16 (fld w 21 4)) (finOf 16 (fld w 17 4)) (finOf 16 (fld w 13 4)) (scopeOf (fld w 4 2)) (orderOf (fld w 2 2))) else .error .res0
  | _ => .error .sub

/-- Group Fe (OP 0x0F, R58). -/
def decodeFe (w : Nat) : Except Reject Instr :=
  match fld w 7 6 with
  | 0 => if fld w 0 7 = 0 ∧ fld w 13 4 = 0 then .ok (.ldfe (bit w 31) (finOf 16 (fld w 21 4)) (finOf 16 (fld w 17 4))) else .error .res0
  | 1 => if fld w 0 7 = 0 ∧ fld w 13 4 = 0 then .ok (.ldff (bit w 31) (finOf 16 (fld w 21 4)) (finOf 16 (fld w 17 4))) else .error .res0
  | 2 => if fld w 0 7 = 0 ∧ fld w 13 4 = 0 then .ok (.stfe (bit w 31) (finOf 16 (fld w 21 4)) (finOf 16 (fld w 17 4))) else .error .res0
  | 3 => if fld w 0 7 = 0 ∧ fld w 13 4 = 0 then .ok (.stef (bit w 31) (finOf 16 (fld w 21 4)) (finOf 16 (fld w 17 4))) else .error .res0
  | 4 => if fld w 0 7 = 0 ∧ fld w 21 4 = 0 then .ok (.fen (bit w 31) (finOf 16 (fld w 17 4)) (finOf 16 (fld w 13 4))) else .error .res0
  | 5 => if fld w 0 7 = 0 ∧ fld w 13 4 = 0 then .ok (.fstat (bit w 31) (finOf 16 (fld w 21 4)) (finOf 16 (fld w 17 4))) else .error .res0
  | 6 => if fld w 0 7 = 0 ∧ fld w 13 8 = 0 then .ok (.remp (bit w 31) (finOf 16 (fld w 21 4))) else .error .res0
  | _ => .error .sub

/-- Group Br (OP 0x10, R58). -/
def decodeBr (w : Nat) : Except Reject Instr :=
  match fld w 22 3 with
  | 0 => if fld w 21 1 = 0 then .ok (.bp (bit w 31) (finOf 8 (fld w 18 3)) (BitVec.ofNat 18 (fld w 0 18))) else .error .res0
  | 1 => if fld w 21 1 = 0 then .ok (.bnp (bit w 31) (finOf 8 (fld w 18 3)) (BitVec.ofNat 18 (fld w 0 18))) else .error .res0
  | 2 => .ok (.bz (bit w 31) (finOf 16 (fld w 18 4)) (BitVec.ofNat 18 (fld w 0 18)))
  | 3 => .ok (.bnz (bit w 31) (finOf 16 (fld w 18 4)) (BitVec.ofNat 18 (fld w 0 18)))
  | 4 => .ok (.dbnz (bit w 31) (finOf 16 (fld w 18 4)) (BitVec.ofNat 18 (fld w 0 18)))
  | _ => .error .sub

/-- OP 0x11 (R58). -/
def decodeJ (w : Nat) : Except Reject Instr :=
  .ok (.j (bit w 31) (BitVec.ofNat 25 (fld w 0 25)))

/-- OP 0x12 (R58). -/
def decodeJal (w : Nat) : Except Reject Instr :=
  .ok (.jal (bit w 31) (BitVec.ofNat 25 (fld w 0 25)))

/-- Group Jr (OP 0x13, R58). -/
def decodeJr (w : Nat) : Except Reject Instr :=
  match fld w 7 6 with
  | 0 => if fld w 0 7 = 0 ∧ fld w 13 4 = 0 ∧ fld w 21 4 = 0 then .ok (.jr (bit w 31) (finOf 16 (fld w 17 4))) else .error .res0
  | 1 => if fld w 0 7 = 0 ∧ fld w 13 4 = 0 ∧ fld w 21 4 = 0 then .ok (.jalr (bit w 31) (finOf 16 (fld w 17 4))) else .error .res0
  | _ => .error .sub

/-- Group Spawn (OP 0x14, R58). -/
def decodeSpawn (w : Nat) : Except Reject Instr :=
  match fld w 7 6 with
  | 0 => if fld w 0 7 = 0 ∧ fld w 13 4 = 0 then .ok (.spawn (bit w 31) (finOf 16 (fld w 21 4)) (finOf 16 (fld w 17 4))) else .error .res0
  | 1 => if fld w 0 7 = 0 ∧ fld w 13 4 = 0 then .ok (.spawnn (bit w 31) (finOf 16 (fld w 21 4)) (finOf 16 (fld w 17 4))) else .error .res0
  | 2 => if fld w 0 7 = 0 ∧ fld w 13 4 = 0 then .ok (.join (bit w 31) (finOf 16 (fld w 21 4)) (finOf 16 (fld w 17 4))) else .error .res0
  | 3 => if fld w 0 7 = 0 ∧ fld w 13 4 = 0 then .ok (.jtest (bit w 31) (finOf 16 (fld w 21 4)) (finOf 16 (fld w 17 4))) else .error .res0
  | 4 => if fld w 0 7 = 0 ∧ fld w 13 4 = 0 ∧ fld w 21 4 = 0 then .ok (.spabort (bit w 31) (finOf 16 (fld w 17 4))) else .error .res0
  | 5 => if fld w 1 6 = 0 then .ok (.tres (bit w 31) (finOf 16 (fld w 21 4)) (finOf 16 (fld w 17 4)) (finOf 16 (fld w 13 4)) (bit w 0)) else .error .res0
  | _ => .error .sub

/-- Group Z (OP 0x15, R58). -/
def decodeZ (w : Nat) : Except Reject Instr :=
  match fld w 7 6 with
  | 0 => if fld w 0 2 = 0 ∧ fld w 4 3 = 0 then .ok (.psm (bit w 31) (finOf 16 (fld w 21 4)) (finOf 16 (fld w 17 4)) (finOf 16 (fld w 13 4)) (orderOf (fld w 2 2))) else .error .res0
  | 1 => if fld w 0 2 = 0 then .ok (.psmb (bit w 31) (finOf 16 (fld w 21 4)) (finOf 16 (fld w 17 4)) (finOf 16 (fld w 13 4)) (finOf 8 (fld w 4 3)) (orderOf (fld w 2 2))) else .error .res0
  | 2 => if fld w 0 2 = 0 ∧ fld w 4 3 = 0 ∧ fld w 21 4 = 0 then .ok (.zset (bit w 31) (finOf 16 (fld w 17 4)) (finOf 16 (fld w 13 4)) (orderOf (fld w 2 2))) else .error .res0
  | 3 => if fld w 0 2 = 0 ∧ fld w 4 3 = 0 ∧ fld w 17 4 = 0 then .ok (.zget (bit w 31) (finOf 16 (fld w 21 4)) (finOf 16 (fld w 13 4)) (orderOf (fld w 2 2))) else .error .res0
  | _ => .error .sub

/-- Group Thr (OP 0x16, R58). -/
def decodeThr (w : Nat) : Except Reject Instr :=
  match fld w 7 6 with
  | 0 => if fld w 0 7 = 0 ∧ fld w 13 12 = 0 then .ok (.done (bit w 31)) else .error .res0
  | 1 => if fld w 0 7 = 0 ∧ fld w 13 12 = 0 then .ok (.yield (bit w 31)) else .error .res0
  | 2 => if fld w 0 7 = 0 ∧ fld w 13 4 = 0 ∧ fld w 21 4 = 0 then .ok (.go (bit w 31) (finOf 16 (fld w 17 4))) else .error .res0
  | 3 => if fld w 0 7 = 0 ∧ fld w 13 4 = 0 ∧ fld w 21 4 = 0 then .ok (.goh (bit w 31) (finOf 16 (fld w 17 4))) else .error .res0
  | 4 => if fld w 0 7 = 0 ∧ fld w 13 12 = 0 then .ok (.gohome (bit w 31)) else .error .res0
  | 5 => if fld w 0 7 = 0 ∧ fld w 21 4 = 0 then .ok (.sleep (bit w 31) (finOf 16 (fld w 17 4)) (finOf 16 (fld w 13 4))) else .error .res0
  | _ => .error .sub

/-- Group Fence (OP 0x17, R58). -/
def decodeFence (w : Nat) : Except Reject Instr :=
  match fld w 7 6 with
  | 0 => if fld w 0 2 = 0 ∧ fld w 6 1 = 0 ∧ fld w 13 12 = 0 then .ok (.fence (bit w 31) (scopeOf (fld w 4 2)) (orderOf (fld w 2 2))) else .error .res0
  | 1 => if fld w 0 7 = 0 ∧ fld w 13 12 = 0 then .ok (.fpush (bit w 31)) else .error .res0
  | 2 => if fld w 0 7 = 0 ∧ fld w 13 12 = 0 then .ok (.fwait (bit w 31)) else .error .res0
  | _ => .error .sub

/-- Group Tx (OP 0x18, R58). -/
def decodeTx (w : Nat) : Except Reject Instr :=
  match fld w 7 6 with
  | 0 => if fld w 0 7 = 0 ∧ fld w 13 8 = 0 then .ok (.xbeg (bit w 31) (finOf 16 (fld w 21 4))) else .error .res0
  | 1 => if fld w 0 7 = 0 ∧ fld w 13 12 = 0 then .ok (.xcom (bit w 31)) else .error .res0
  | 2 => if fld w 0 7 = 0 ∧ fld w 13 4 = 0 ∧ fld w 21 4 = 0 then .ok (.xabt (bit w 31) (finOf 16 (fld w 17 4))) else .error .res0
  | _ => .error .sub

/-- Group Var (OP 0x19, R58). -/
def decodeVar (w : Nat) : Except Reject Instr :=
  match fld w 4 6 with
  | 0 => if fld w 1 3 = 0 then .ok (.vadd (bit w 31) (finOf 16 (fld w 21 4)) (finOf 16 (fld w 17 4)) (finOf 16 (fld w 13 4)) (finOf 8 (fld w 10 3)) (bit w 0)) else .error .res0
  | 1 => if fld w 1 3 = 0 then .ok (.vsub (bit w 31) (finOf 16 (fld w 21 4)) (finOf 16 (fld w 17 4)) (finOf 16 (fld w 13 4)) (finOf 8 (fld w 10 3)) (bit w 0)) else .error .res0
  | 2 => if fld w 1 3 = 0 then .ok (.vmul (bit w 31) (finOf 16 (fld w 21 4)) (finOf 16 (fld w 17 4)) (finOf 16 (fld w 13 4)) (finOf 8 (fld w 10 3)) (bit w 0)) else .error .res0
  | 3 => if fld w 1 3 = 0 then .ok (.vmulh (bit w 31) (finOf 16 (fld w 21 4)) (finOf 16 (fld w 17 4)) (finOf 16 (fld w 13 4)) (finOf 8 (fld w 10 3)) (bit w 0)) else .error .res0
  | 4 => if fld w 1 3 = 0 then .ok (.vmin (bit w 31) (finOf 16 (fld w 21 4)) (finOf 16 (fld w 17 4)) (finOf 16 (fld w 13 4)) (finOf 8 (fld w 10 3)) (bit w 0)) else .error .res0
  | 5 => if fld w 1 3 = 0 then .ok (.vmax (bit w 31) (finOf 16 (fld w 21 4)) (finOf 16 (fld w 17 4)) (finOf 16 (fld w 13 4)) (finOf 8 (fld w 10 3)) (bit w 0)) else .error .res0
  | 6 => if fld w 0 4 = 0 ∧ fld w 13 4 = 0 then .ok (.vabs (bit w 31) (finOf 16 (fld w 21 4)) (finOf 16 (fld w 17 4)) (finOf 8 (fld w 10 3))) else .error .res0
  | 7 => if fld w 0 4 = 0 ∧ fld w 13 4 = 0 then .ok (.vneg (bit w 31) (finOf 16 (fld w 21 4)) (finOf 16 (fld w 17 4)) (finOf 8 (fld w 10 3))) else .error .res0
  | 8 => if fld w 1 3 = 0 then .ok (.vaddsat (bit w 31) (finOf 16 (fld w 21 4)) (finOf 16 (fld w 17 4)) (finOf 16 (fld w 13 4)) (finOf 8 (fld w 10 3)) (bit w 0)) else .error .res0
  | 9 => if fld w 1 3 = 0 then .ok (.vsubsat (bit w 31) (finOf 16 (fld w 21 4)) (finOf 16 (fld w 17 4)) (finOf 16 (fld w 13 4)) (finOf 8 (fld w 10 3)) (bit w 0)) else .error .res0
  | 10 => if fld w 0 4 = 0 ∧ fld w 13 4 = 0 then .ok (.vsqrt (bit w 31) (finOf 16 (fld w 21 4)) (finOf 16 (fld w 17 4)) (finOf 8 (fld w 10 3))) else .error .res0
  | 11 => if fld w 0 4 = 0 ∧ fld w 13 4 = 0 then .ok (.vrcp (bit w 31) (finOf 16 (fld w 21 4)) (finOf 16 (fld w 17 4)) (finOf 8 (fld w 10 3))) else .error .res0
  | 12 => if fld w 0 4 = 0 ∧ fld w 13 4 = 0 then .ok (.vrsq (bit w 31) (finOf 16 (fld w 21 4)) (finOf 16 (fld w 17 4)) (finOf 8 (fld w 10 3))) else .error .res0
  | 13 => if fld w 0 4 = 0 ∧ fld w 13 4 = 0 then .ok (.vexp2 (bit w 31) (finOf 16 (fld w 21 4)) (finOf 16 (fld w 17 4)) (finOf 8 (fld w 10 3))) else .error .res0
  | _ => .error .sub

/-- Group Vbit (OP 0x1A, R58). -/
def decodeVbit (w : Nat) : Except Reject Instr :=
  match fld w 4 6 with
  | 0 => if fld w 1 3 = 0 then .ok (.vand (bit w 31) (finOf 16 (fld w 21 4)) (finOf 16 (fld w 17 4)) (finOf 16 (fld w 13 4)) (finOf 8 (fld w 10 3)) (bit w 0)) else .error .res0
  | 1 => if fld w 1 3 = 0 then .ok (.vor (bit w 31) (finOf 16 (fld w 21 4)) (finOf 16 (fld w 17 4)) (finOf 16 (fld w 13 4)) (finOf 8 (fld w 10 3)) (bit w 0)) else .error .res0
  | 2 => if fld w 1 3 = 0 then .ok (.vxor (bit w 31) (finOf 16 (fld w 21 4)) (finOf 16 (fld w 17 4)) (finOf 16 (fld w 13 4)) (finOf 8 (fld w 10 3)) (bit w 0)) else .error .res0
  | 3 => if fld w 1 3 = 0 then .ok (.vandn (bit w 31) (finOf 16 (fld w 21 4)) (finOf 16 (fld w 17 4)) (finOf 16 (fld w 13 4)) (finOf 8 (fld w 10 3)) (bit w 0)) else .error .res0
  | 4 => if fld w 1 3 = 0 then .ok (.vshl (bit w 31) (finOf 16 (fld w 21 4)) (finOf 16 (fld w 17 4)) (finOf 16 (fld w 13 4)) (finOf 8 (fld w 10 3)) (bit w 0)) else .error .res0
  | 5 => if fld w 1 3 = 0 then .ok (.vshr (bit w 31) (finOf 16 (fld w 21 4)) (finOf 16 (fld w 17 4)) (finOf 16 (fld w 13 4)) (finOf 8 (fld w 10 3)) (bit w 0)) else .error .res0
  | 6 => if fld w 1 3 = 0 then .ok (.vsar (bit w 31) (finOf 16 (fld w 21 4)) (finOf 16 (fld w 17 4)) (finOf 16 (fld w 13 4)) (finOf 8 (fld w 10 3)) (bit w 0)) else .error .res0
  | 7 => if fld w 0 4 = 0 ∧ fld w 13 4 = 0 then .ok (.vclz (bit w 31) (finOf 16 (fld w 21 4)) (finOf 16 (fld w 17 4)) (finOf 8 (fld w 10 3))) else .error .res0
  | 8 => if fld w 0 4 = 0 ∧ fld w 13 4 = 0 then .ok (.vpopc (bit w 31) (finOf 16 (fld w 21 4)) (finOf 16 (fld w 17 4)) (finOf 8 (fld w 10 3))) else .error .res0
  | _ => .error .sub

/-- Group Vfma (OP 0x1B, R58). -/
def decodeVfma (w : Nat) : Except Reject Instr :=
  match fld w 4 6 with
  | 0 => if fld w 0 4 = 0 then .ok (.vfma (bit w 31) (finOf 16 (fld w 21 4)) (finOf 16 (fld w 17 4)) (finOf 16 (fld w 13 4)) (finOf 8 (fld w 10 3))) else .error .res0
  | 1 => if fld w 0 4 = 0 then .ok (.vfms (bit w 31) (finOf 16 (fld w 21 4)) (finOf 16 (fld w 17 4)) (finOf 16 (fld w 13 4)) (finOf 8 (fld w 10 3))) else .error .res0
  | 2 => if fld w 0 4 = 0 then .ok (.vfnma (bit w 31) (finOf 16 (fld w 21 4)) (finOf 16 (fld w 17 4)) (finOf 16 (fld w 13 4)) (finOf 8 (fld w 10 3))) else .error .res0
  | 3 => if fld w 0 4 = 0 then .ok (.vfnms (bit w 31) (finOf 16 (fld w 21 4)) (finOf 16 (fld w 17 4)) (finOf 16 (fld w 13 4)) (finOf 8 (fld w 10 3))) else .error .res0
  | 4 => if fld w 0 4 = 0 then .ok (.vdot2 (bit w 31) (finOf 16 (fld w 21 4)) (finOf 16 (fld w 17 4)) (finOf 16 (fld w 13 4)) (finOf 8 (fld w 10 3))) else .error .res0
  | 5 => if fld w 0 4 = 0 then .ok (.vdot4 (bit w 31) (finOf 16 (fld w 21 4)) (finOf 16 (fld w 17 4)) (finOf 16 (fld w 13 4)) (finOf 8 (fld w 10 3))) else .error .res0
  | _ => .error .sub

/-- Group Vcmp (OP 0x1C, R58). -/
def decodeVcmp (w : Nat) : Except Reject Instr :=
  match fld w 4 6 with
  | 0 => if fld w 24 1 = 0 then .ok (.vcmp (bit w 31) (finOf 8 (fld w 21 3)) (finOf 16 (fld w 17 4)) (finOf 16 (fld w 13 4)) (finOf 8 (fld w 10 3)) (bit w 3) (condOf (fld w 0 3))) else .error .res0
  | 1 => if fld w 13 4 = 0 ∧ fld w 24 1 = 0 then (match vclassOf (fld w 0 4) with | some k => .ok (.vclass (bit w 31) (finOf 8 (fld w 21 3)) (finOf 16 (fld w 17 4)) (finOf 8 (fld w 10 3)) k) | none => .error .code) else .error .res0
  | 2 => if fld w 0 4 = 0 then .ok (.vsel (bit w 31) (finOf 16 (fld w 21 4)) (finOf 16 (fld w 17 4)) (finOf 16 (fld w 13 4)) (finOf 8 (fld w 10 3))) else .error .res0
  | 3 => if fld w 0 4 = 0 ∧ fld w 10 3 = 0 ∧ fld w 16 1 = 0 ∧ fld w 20 1 = 0 ∧ fld w 24 1 = 0 then .ok (.mand (bit w 31) (finOf 8 (fld w 21 3)) (finOf 8 (fld w 17 3)) (finOf 8 (fld w 13 3))) else .error .res0
  | 4 => if fld w 0 4 = 0 ∧ fld w 10 3 = 0 ∧ fld w 16 1 = 0 ∧ fld w 20 1 = 0 ∧ fld w 24 1 = 0 then .ok (.mor (bit w 31) (finOf 8 (fld w 21 3)) (finOf 8 (fld w 17 3)) (finOf 8 (fld w 13 3))) else .error .res0
  | 5 => if fld w 0 4 = 0 ∧ fld w 10 7 = 0 ∧ fld w 20 1 = 0 ∧ fld w 24 1 = 0 then .ok (.mnot (bit w 31) (finOf 8 (fld w 21 3)) (finOf 8 (fld w 17 3))) else .error .res0
  | 6 => if fld w 0 4 = 0 ∧ fld w 10 7 = 0 ∧ fld w 20 1 = 0 then .ok (.mcount (bit w 31) (finOf 16 (fld w 21 4)) (finOf 8 (fld w 17 3))) else .error .res0
  | 7 => if fld w 0 4 = 0 ∧ fld w 10 7 = 0 ∧ fld w 20 1 = 0 then .ok (.mfirst (bit w 31) (finOf 16 (fld w 21 4)) (finOf 8 (fld w 17 3))) else .error .res0
  | _ => .error .sub

/-- Group Vperm (OP 0x1D, R58). -/
def decodeVperm (w : Nat) : Except Reject Instr :=
  match fld w 4 6 with
  | 0 => if fld w 13 4 = 0 then (match tagOf (fld w 0 4) with | some t => .ok (.vbcast (bit w 31) (finOf 16 (fld w 21 4)) (finOf 16 (fld w 17 4)) (finOf 8 (fld w 10 3)) t) | none => .error .code) else .error .res0
  | 1 => if fld w 0 4 = 0 ∧ fld w 10 3 = 0 then .ok (.vins (bit w 31) (finOf 16 (fld w 21 4)) (finOf 16 (fld w 17 4)) (finOf 16 (fld w 13 4))) else .error .res0
  | 2 => if fld w 0 4 = 0 ∧ fld w 10 3 = 0 then .ok (.vext (bit w 31) (finOf 16 (fld w 21 4)) (finOf 16 (fld w 17 4)) (finOf 16 (fld w 13 4))) else .error .res0
  | 3 => if fld w 0 4 = 0 then .ok (.vperm (bit w 31) (finOf 16 (fld w 21 4)) (finOf 16 (fld w 17 4)) (finOf 16 (fld w 13 4)) (finOf 8 (fld w 10 3))) else .error .res0
  | 4 => if fld w 0 4 = 0 ∧ fld w 13 4 = 0 then .ok (.vcompress (bit w 31) (finOf 16 (fld w 21 4)) (finOf 16 (fld w 17 4)) (finOf 8 (fld w 10 3))) else .error .res0
  | 5 => if fld w 0 4 = 0 ∧ fld w 13 4 = 0 then .ok (.vexpand (bit w 31) (finOf 16 (fld w 21 4)) (finOf 16 (fld w 17 4)) (finOf 8 (fld w 10 3))) else .error .res0
  | 6 => if fld w 0 4 = 0 ∧ fld w 13 4 = 0 then .ok (.vredadd (bit w 31) (finOf 16 (fld w 21 4)) (finOf 16 (fld w 17 4)) (finOf 8 (fld w 10 3))) else .error .res0
  | 7 => if fld w 0 4 = 0 ∧ fld w 13 4 = 0 then .ok (.vredmax (bit w 31) (finOf 16 (fld w 21 4)) (finOf 16 (fld w 17 4)) (finOf 8 (fld w 10 3))) else .error .res0
  | 8 => if fld w 0 4 = 0 ∧ fld w 13 4 = 0 then .ok (.vredmin (bit w 31) (finOf 16 (fld w 21 4)) (finOf 16 (fld w 17 4)) (finOf 8 (fld w 10 3))) else .error .res0
  | 9 => if fld w 1 3 = 0 ∧ fld w 13 4 = 0 then .ok (.vscan (bit w 31) (finOf 16 (fld w 21 4)) (finOf 16 (fld w 17 4)) (finOf 8 (fld w 10 3)) (bit w 0)) else .error .res0
  | _ => .error .sub

/-- Group Vcvt (OP 0x1E, R58). -/
def decodeVcvt (w : Nat) : Except Reject Instr :=
  match fld w 4 6 with
  | 0 => if fld w 16 1 = 0 then (match tagOf (fld w 0 4) with | some f => .ok (.vcvt (bit w 31) (finOf 16 (fld w 21 4)) (finOf 16 (fld w 17 4)) (finOf 8 (fld w 13 3)) (finOf 8 (fld w 10 3)) f) | none => .error .code) else .error .res0
  | 1 => if fld w 1 3 = 6 ∧ fld w 10 3 = 0 ∧ fld w 15 2 = 0 then .ok (.vquant (bit w 31) (finOf 16 (fld w 21 4)) (finOf 16 (fld w 17 4)) (finOf 4 (fld w 13 2)) (bit w 0)) else .error .res0
  | 2 => if fld w 16 1 = 0 then (match tagOf (fld w 0 4) with | some f => .ok (.vdequant (bit w 31) (finOf 16 (fld w 21 4)) (finOf 16 (fld w 17 4)) (finOf 8 (fld w 13 3)) (finOf 8 (fld w 10 3)) f) | none => .error .code) else .error .res0
  | 3 => if fld w 10 7 = 0 then (match tagOf (fld w 0 4) with | some t => .ok (.vtag (bit w 31) (finOf 16 (fld w 21 4)) (finOf 16 (fld w 17 4)) t) | none => .error .code) else .error .res0
  | 4 => if fld w 0 4 = 0 ∧ fld w 13 8 = 0 then .ok (.vseed (bit w 31) (finOf 16 (fld w 21 4)) (finOf 8 (fld w 10 3))) else .error .res0
  | _ => .error .sub

/-- Group Vmem (OP 0x1F, R58). -/
def decodeVmem (w : Nat) : Except Reject Instr :=
  match fld w 11 3 with
  | 0 => (match tagOf (fld w 7 4) with | some f => .ok (.vld (bit w 31) (finOf 16 (fld w 21 4)) (finOf 16 (fld w 17 4)) (finOf 8 (fld w 14 3)) f (BitVec.ofNat 7 (fld w 0 7))) | none => .error .code)
  | 1 => (match tagOf (fld w 7 4) with | some f => .ok (.vst (bit w 31) (finOf 16 (fld w 21 4)) (finOf 16 (fld w 17 4)) (finOf 8 (fld w 14 3)) f (BitVec.ofNat 7 (fld w 0 7))) | none => .error .code)
  | 2 => (match tagOf (fld w 7 4) with | some f => .ok (.vldbc (bit w 31) (finOf 16 (fld w 21 4)) (finOf 16 (fld w 17 4)) (finOf 8 (fld w 14 3)) f (BitVec.ofNat 7 (fld w 0 7))) | none => .error .code)
  | 3 => (match tagOf (fld w 7 4) with | some f => .ok (.vlds (bit w 31) (finOf 16 (fld w 21 4)) (finOf 16 (fld w 17 4)) (finOf 8 (fld w 14 3)) f (BitVec.ofNat 7 (fld w 0 7))) | none => .error .code)
  | 4 => (match tagOf (fld w 7 4) with | some f => .ok (.vsts (bit w 31) (finOf 16 (fld w 21 4)) (finOf 16 (fld w 17 4)) (finOf 8 (fld w 14 3)) f (BitVec.ofNat 7 (fld w 0 7))) | none => .error .code)
  | _ => .error .sub

/-- Group Vgat (OP 0x20, R58). -/
def decodeVgat (w : Nat) : Except Reject Instr :=
  match fld w 4 6 with
  | 0 => (match tagOf (fld w 0 4) with | some t => .ok (.vgat (bit w 31) (finOf 16 (fld w 21 4)) (finOf 16 (fld w 17 4)) (finOf 16 (fld w 13 4)) (finOf 8 (fld w 10 3)) t) | none => .error .code)
  | 1 => if fld w 0 4 = 0 then .ok (.vsct (bit w 31) (finOf 16 (fld w 21 4)) (finOf 16 (fld w 17 4)) (finOf 16 (fld w 13 4)) (finOf 8 (fld w 10 3))) else .error .res0
  | 2 => if fld w 0 4 = 0 then .ok (.vsctadd (bit w 31) (finOf 16 (fld w 21 4)) (finOf 16 (fld w 17 4)) (finOf 16 (fld w 13 4)) (finOf 8 (fld w 10 3))) else .error .res0
  | _ => .error .sub

/-- Group Vspc (OP 0x21, R58). -/
def decodeVspc (w : Nat) : Except Reject Instr :=
  match fld w 4 6 with
  | 0 => if fld w 10 3 = 0 then .ok (.hsift (bit w 31) (finOf 16 (fld w 21 4)) (finOf 16 (fld w 17 4)) (finOf 16 (fld w 13 4)) (finOf 16 (fld w 0 4))) else .error .res0
  | 1 => if fld w 3 1 = 0 ∧ fld w 10 3 = 0 then .ok (.tstep (bit w 31) (finOf 16 (fld w 21 4)) (finOf 16 (fld w 17 4)) (finOf 16 (fld w 13 4)) (finOf 8 (fld w 0 3))) else .error .res0
  | 2 => if fld w 1 3 = 0 ∧ fld w 10 7 = 0 then .ok (.dgi (bit w 31) (finOf 16 (fld w 21 4)) (finOf 16 (fld w 17 4)) (bit w 0)) else .error .res0
  | 3 => if fld w 3 1 = 0 ∧ fld w 10 7 = 0 ∧ fld w 21 4 = 0 then .ok (.dga (bit w 31) (finOf 16 (fld w 17 4)) (finOf 8 (fld w 0 3))) else .error .res0
  | 4 => if fld w 1 3 = 0 ∧ fld w 10 11 = 0 then .ok (.dgo (bit w 31) (finOf 16 (fld w 21 4)) (bit w 0)) else .error .res0
  | 5 => if fld w 0 4 = 0 ∧ fld w 10 3 = 0 ∧ fld w 21 4 = 0 then .ok (.dglog (bit w 31) (finOf 16 (fld w 17 4)) (finOf 16 (fld w 13 4))) else .error .res0
  | _ => .error .sub

/-- Group Mxc (OP 0x22, R58). -/
def decodeMxc (w : Nat) : Except Reject Instr :=
  match fld w 9 4 with
  | 0 => if fld w 1 8 = 0 ∧ fld w 13 4 = 0 ∧ fld w 21 4 = 0 then .ok (.mxcfg (bit w 31) (finOf 16 (fld w 17 4)) (bit w 0)) else .error .res0
  | 1 => if fld w 1 8 = 0 ∧ fld w 13 8 = 0 then .ok (.mxzero (bit w 31) (finOf 16 (fld w 21 4)) (bit w 0)) else .error .res0
  | 2 => if fld w 0 9 = 0 ∧ fld w 13 12 = 0 then .ok (.mxrel (bit w 31)) else .error .res0
  | 3 => if fld w 1 8 = 0 ∧ fld w 13 4 = 0 then .ok (.mxsave (bit w 31) (finOf 16 (fld w 21 4)) (finOf 16 (fld w 17 4)) (bit w 0)) else .error .res0
  | 4 => if fld w 1 8 = 0 ∧ fld w 13 4 = 0 then .ok (.mxrest (bit w 31) (finOf 16 (fld w 21 4)) (finOf 16 (fld w 17 4)) (bit w 0)) else .error .res0
  | _ => .error .sub

/-- Group Mxm (OP 0x23, R58). -/
def decodeMxm (w : Nat) : Except Reject Instr :=
  match fld w 9 4 with
  | 0 => if fld w 5 4 = 0 then .ok (.mxmm (bit w 31) (finOf 16 (fld w 21 4)) (finOf 16 (fld w 17 4)) (finOf 16 (fld w 13 4)) (finOf 4 (fld w 3 2)) (bit w 2) (bit w 1) (bit w 0)) else .error .res0
  | 1 => if fld w 5 4 = 0 then .ok (.mxmmg (bit w 31) (finOf 16 (fld w 21 4)) (finOf 16 (fld w 17 4)) (finOf 16 (fld w 13 4)) (finOf 4 (fld w 3 2)) (bit w 2) (bit w 1) (bit w 0)) else .error .res0
  | 2 => if fld w 5 4 = 0 then .ok (.mxmms (bit w 31) (finOf 16 (fld w 21 4)) (finOf 16 (fld w 17 4)) (finOf 16 (fld w 13 4)) (finOf 4 (fld w 3 2)) (bit w 2) (bit w 1) (bit w 0)) else .error .res0
  | 3 => if fld w 5 4 = 0 then .ok (.mxmmgs (bit w 31) (finOf 16 (fld w 21 4)) (finOf 16 (fld w 17 4)) (finOf 16 (fld w 13 4)) (finOf 4 (fld w 3 2)) (bit w 2) (bit w 1) (bit w 0)) else .error .res0
  | _ => .error .sub

/-- Group Mxo (OP 0x24, R58). -/
def decodeMxo (w : Nat) : Except Reject Instr :=
  match fld w 9 4 with
  | 0 => if fld w 1 1 = 0 ∧ fld w 13 4 = 0 then .ok (.mxst (bit w 31) (finOf 16 (fld w 21 4)) (finOf 16 (fld w 17 4)) (BitVec.ofNat 4 (fld w 5 4)) (finOf 4 (fld w 3 2)) (bit w 2) (bit w 0)) else .error .res0
  | 1 => if fld w 1 1 = 0 ∧ fld w 13 4 = 0 then .ok (.mxstq (bit w 31) (finOf 16 (fld w 21 4)) (finOf 16 (fld w 17 4)) (BitVec.ofNat 4 (fld w 5 4)) (finOf 4 (fld w 3 2)) (bit w 2) (bit w 0)) else .error .res0
  | 2 => if fld w 1 1 = 0 ∧ fld w 5 4 = 0 ∧ fld w 13 4 = 0 then .ok (.mxscale (bit w 31) (finOf 16 (fld w 21 4)) (finOf 16 (fld w 17 4)) (finOf 4 (fld w 3 2)) (bit w 2) (bit w 0)) else .error .res0
  | _ => .error .sub

/-- Group Tq (OP 0x25, R58). -/
def decodeTq (w : Nat) : Except Reject Instr :=
  match fld w 9 4 with
  | 0 => if fld w 0 9 = 0 ∧ fld w 13 4 = 0 ∧ fld w 23 2 = 0 then .ok (.qset (bit w 31) (finOf 4 (fld w 21 2)) (finOf 16 (fld w 17 4))) else .error .res0
  | 1 => if fld w 0 9 = 0 ∧ fld w 13 4 = 0 ∧ fld w 23 2 = 0 then .ok (.qclr (bit w 31) (finOf 4 (fld w 21 2)) (finOf 16 (fld w 17 4))) else .error .res0
  | 2 => if fld w 0 9 = 0 ∧ fld w 13 4 = 0 ∧ fld w 23 2 = 0 then .ok (.qld (bit w 31) (finOf 4 (fld w 21 2)) (finOf 16 (fld w 17 4))) else .error .res0
  | 3 => if fld w 0 9 = 0 ∧ fld w 13 4 = 0 ∧ fld w 23 2 = 0 then .ok (.qst (bit w 31) (finOf 4 (fld w 21 2)) (finOf 16 (fld w 17 4))) else .error .res0
  | 4 => if fld w 0 9 = 0 ∧ fld w 19 2 = 0 ∧ fld w 24 1 = 0 then .ok (.qtest (bit w 31) (finOf 8 (fld w 21 3)) (finOf 4 (fld w 17 2)) (finOf 16 (fld w 13 4))) else .error .res0
  | _ => .error .sub

/-- Group Pat (OP 0x26, R58). -/
def decodePat (w : Nat) : Except Reject Instr :=
  match fld w 9 4 with
  | 0 => if fld w 1 8 = 0 then .ok (.pgld (bit w 31) (finOf 16 (fld w 21 4)) (finOf 16 (fld w 17 4)) (finOf 16 (fld w 13 4)) (bit w 0)) else .error .res0
  | 1 => if fld w 0 9 = 0 ∧ fld w 21 4 = 0 then .ok (.pgset (bit w 31) (finOf 16 (fld w 17 4)) (finOf 16 (fld w 13 4))) else .error .res0
  | 2 => if fld w 0 9 = 0 then .ok (.pgrun (bit w 31) (finOf 16 (fld w 21 4)) (finOf 16 (fld w 17 4)) (finOf 16 (fld w 13 4))) else .error .res0
  | 3 => if fld w 0 9 = 0 ∧ fld w 13 12 = 0 then .ok (.pgrel (bit w 31)) else .error .res0
  | 4 => if fld w 0 9 = 0 ∧ fld w 13 4 = 0 then .ok (.pginv (bit w 31) (finOf 16 (fld w 21 4)) (finOf 16 (fld w 17 4))) else .error .res0
  | _ => .error .sub

/-- Group Cpy (OP 0x27, R58). -/
def decodeCpy (w : Nat) : Except Reject Instr :=
  match fld w 9 4 with
  | 0 => if fld w 1 8 = 0 then .ok (.send (bit w 31) (finOf 16 (fld w 21 4)) (finOf 16 (fld w 17 4)) (finOf 16 (fld w 13 4)) (bit w 0)) else .error .res0
  | 1 => if fld w 1 8 = 0 then .ok (.sendm (bit w 31) (finOf 16 (fld w 21 4)) (finOf 16 (fld w 17 4)) (finOf 16 (fld w 13 4)) (bit w 0)) else .error .res0
  | 2 => if fld w 0 9 = 0 then .ok (.fetch (bit w 31) (finOf 16 (fld w 21 4)) (finOf 16 (fld w 17 4)) (finOf 16 (fld w 13 4))) else .error .res0
  | 3 => if fld w 1 8 = 0 then .ok (.flush (bit w 31) (finOf 16 (fld w 21 4)) (finOf 16 (fld w 17 4)) (finOf 16 (fld w 13 4)) (bit w 0)) else .error .res0
  | 4 => if fld w 1 8 = 0 then .ok (.sendg (bit w 31) (finOf 16 (fld w 21 4)) (finOf 16 (fld w 17 4)) (finOf 16 (fld w 13 4)) (bit w 0)) else .error .res0
  | 5 => if fld w 0 9 = 0 ∧ fld w 21 4 = 0 then .ok (.wmset (bit w 31) (finOf 16 (fld w 17 4)) (finOf 16 (fld w 13 4))) else .error .res0
  | 6 => if fld w 0 9 = 0 ∧ fld w 13 4 = 0 then .ok (.wmget (bit w 31) (finOf 16 (fld w 21 4)) (finOf 16 (fld w 17 4))) else .error .res0
  | _ => .error .sub

/-- Group Xg (OP 0x28, R58). -/
def decodeXg (w : Nat) : Except Reject Instr :=
  match fld w 9 4 with
  | 0 => if fld w 7 1 = 0 then .ok (.xgat (bit w 31) (finOf 16 (fld w 21 4)) (finOf 16 (fld w 17 4)) (finOf 16 (fld w 13 4)) (bit w 8) (BitVec.ofNat 7 (fld w 0 7))) else .error .res0
  | 1 => if fld w 7 1 = 0 then .ok (.xsct (bit w 31) (finOf 16 (fld w 21 4)) (finOf 16 (fld w 17 4)) (finOf 16 (fld w 13 4)) (bit w 8) (BitVec.ofNat 7 (fld w 0 7))) else .error .res0
  | 2 => .ok (.xsctadd (bit w 31) (finOf 16 (fld w 21 4)) (finOf 16 (fld w 17 4)) (finOf 16 (fld w 13 4)) (bit w 8) (bit w 7) (BitVec.ofNat 7 (fld w 0 7)))
  | _ => .error .sub

/-- Group Job (OP 0x29, R58). -/
def decodeJob (w : Nat) : Except Reject Instr :=
  match fld w 9 4 with
  | 0 => if fld w 0 9 = 0 ∧ fld w 13 4 = 0 then .ok (.jwait (bit w 31) (finOf 16 (fld w 21 4)) (finOf 16 (fld w 17 4))) else .error .res0
  | 1 => if fld w 0 9 = 0 ∧ fld w 13 4 = 0 then .ok (.jpoll (bit w 31) (finOf 16 (fld w 21 4)) (finOf 16 (fld w 17 4))) else .error .res0
  | _ => .error .sub

/-- Group Spr (OP 0x2A, R58). -/
def decodeSpr (w : Nat) : Except Reject Instr :=
  match fld w 12 5 with
  | 0 => if fld w 17 4 = 0 then .ok (.mfs (bit w 31) (finOf 16 (fld w 21 4)) (BitVec.ofNat 12 (fld w 0 12))) else .error .res0
  | 1 => if fld w 21 4 = 0 then .ok (.mts (bit w 31) (finOf 16 (fld w 17 4)) (BitVec.ofNat 12 (fld w 0 12))) else .error .res0
  | _ => .error .sub

/-- Group Sys (OP 0x2B, R58). -/
noncomputable def decodeSys (w : Nat) : Except Reject Instr :=
  match fld w 7 6 with
  | 0 => if fld w 13 12 = 0 then .ok (.trap (bit w 31) (BitVec.ofNat 7 (fld w 0 7))) else .error .res0
  | 1 => if fld w 0 7 = 0 ∧ fld w 13 12 = 0 then .ok (.eret (bit w 31)) else .error .res0
  | 2 => if fld w 0 7 = 0 ∧ fld w 13 12 = 0 then .ok (.wfi (bit w 31)) else .error .res0
  | 3 => if fld w 13 12 = 0 then .ok (.brk (bit w 31) (BitVec.ofNat 7 (fld w 0 7))) else .error .res0
  | 4 => if fld w 0 7 = 0 ∧ fld w 21 4 = 0 then .ok (.tlbi (bit w 31) (finOf 16 (fld w 17 4)) (finOf 16 (fld w 13 4))) else if fld w 0 7 = 1 ∧ fld w 13 4 = 0 ∧ fld w 21 4 = 0 then .ok (.tlbiAll (bit w 31) (finOf 16 (fld w 17 4))) else .error .res0
  | 5 => if fld w 0 7 = 0 ∧ fld w 13 12 = 0 then .ok (.tlbsync (bit w 31)) else .error .res0
  | 6 => if fld w 0 7 = 0 ∧ fld w 13 4 = 0 then .ok (.seal (bit w 31) (finOf 16 (fld w 21 4)) (finOf 16 (fld w 17 4))) else .error .res0
  | 7 => if fld w 0 7 = 0 ∧ fld w 21 4 = 0 then .ok (.ipi (bit w 31) (finOf 16 (fld w 17 4)) (finOf 16 (fld w 13 4))) else .error .res0
  | _ => .error .sub

/-- Group Lse (OP 0x2C, R58). -/
def decodeLse (w : Nat) : Except Reject Instr :=
  match fld w 9 4 with
  | 0 => if fld w 0 9 = 0 ∧ fld w 13 4 = 0 then .ok (.lease (bit w 31) (finOf 16 (fld w 21 4)) (finOf 16 (fld w 17 4))) else .error .res0
  | 1 => if fld w 0 9 = 0 ∧ fld w 13 4 = 0 then .ok (.unlease (bit w 31) (finOf 16 (fld w 21 4)) (finOf 16 (fld w 17 4))) else .error .res0
  | 2 => if fld w 0 9 = 0 ∧ fld w 13 4 = 0 ∧ fld w 21 4 = 0 then .ok (.pf (bit w 31) (finOf 16 (fld w 17 4))) else .error .res0
  | 3 => if fld w 0 9 = 0 ∧ fld w 13 4 = 0 then .ok (.llcwb (bit w 31) (finOf 16 (fld w 21 4)) (finOf 16 (fld w 17 4))) else .error .res0
  | 4 => if fld w 1 8 = 0 ∧ fld w 13 4 = 0 then .ok (.pmig (bit w 31) (finOf 16 (fld w 21 4)) (finOf 16 (fld w 17 4)) (bit w 0)) else .error .res0
  | _ => .error .sub

/-- Group Net (OP 0x2D, R58). -/
def decodeNet (w : Nat) : Except Reject Instr :=
  match fld w 9 4 with
  | 0 => if fld w 0 9 = 0 ∧ fld w 13 4 = 0 then .ok (.nsend (bit w 31) (finOf 16 (fld w 21 4)) (finOf 16 (fld w 17 4))) else .error .res0
  | 1 => if fld w 0 9 = 0 ∧ fld w 13 4 = 0 then .ok (.npoll (bit w 31) (finOf 16 (fld w 21 4)) (finOf 16 (fld w 17 4))) else .error .res0
  | _ => .error .sub

/-- Group Fpd (OP 0x2E, R58). -/
noncomputable def decodeFpd (w : Nat) : Except Reject Instr :=
  match fld w 7 6 with
  | 0 => if fld w 0 7 = 0 then .ok (.dadd (bit w 31) (finOf 16 (fld w 21 4)) (finOf 16 (fld w 17 4)) (finOf 16 (fld w 13 4))) else .error .res0
  | 1 => if fld w 0 7 = 0 then .ok (.dsub (bit w 31) (finOf 16 (fld w 21 4)) (finOf 16 (fld w 17 4)) (finOf 16 (fld w 13 4))) else .error .res0
  | 2 => if fld w 0 7 = 0 then .ok (.dmul (bit w 31) (finOf 16 (fld w 21 4)) (finOf 16 (fld w 17 4)) (finOf 16 (fld w 13 4))) else .error .res0
  | 3 => if fld w 0 7 = 0 then .ok (.ddiv (bit w 31) (finOf 16 (fld w 21 4)) (finOf 16 (fld w 17 4)) (finOf 16 (fld w 13 4))) else .error .res0
  | 4 => if fld w 0 7 = 0 then .ok (.dfma (bit w 31) (finOf 16 (fld w 21 4)) (finOf 16 (fld w 17 4)) (finOf 16 (fld w 13 4))) else .error .res0
  | 5 => if fld w 0 7 = 0 ∧ fld w 13 4 = 0 then .ok (.dsqrt (bit w 31) (finOf 16 (fld w 21 4)) (finOf 16 (fld w 17 4))) else .error .res0
  | 6 => if fld w 3 4 = 0 ∧ fld w 24 1 = 0 then .ok (.dcmp (bit w 31) (finOf 8 (fld w 21 3)) (finOf 16 (fld w 17 4)) (finOf 16 (fld w 13 4)) (condOf (fld w 0 3))) else .error .res0
  | 7 => if fld w 3 4 = 0 ∧ fld w 13 4 = 0 then (match dcvtOf (fld w 0 3) with | some k => .ok (.dcvt (bit w 31) (finOf 16 (fld w 21 4)) (finOf 16 (fld w 17 4)) k) | none => .error .code) else .error .res0
  | 8 => if fld w 3 4 = 0 then .ok (.vdfma (bit w 31) (finOf 16 (fld w 21 4)) (finOf 16 (fld w 17 4)) (finOf 16 (fld w 13 4)) (finOf 8 (fld w 0 3))) else .error .res0
  | _ => .error .sub

/-- Group Fp (OP 0x2F, R58). -/
noncomputable def decodeFp (w : Nat) : Except Reject Instr :=
  match fld w 7 6 with
  | 0 => if fld w 0 7 = 0 then .ok (.fadd (bit w 31) (finOf 16 (fld w 21 4)) (finOf 16 (fld w 17 4)) (finOf 16 (fld w 13 4))) else .error .res0
  | 1 => if fld w 0 7 = 0 then .ok (.fsub (bit w 31) (finOf 16 (fld w 21 4)) (finOf 16 (fld w 17 4)) (finOf 16 (fld w 13 4))) else .error .res0
  | 2 => if fld w 0 7 = 0 then .ok (.fmul (bit w 31) (finOf 16 (fld w 21 4)) (finOf 16 (fld w 17 4)) (finOf 16 (fld w 13 4))) else .error .res0
  | 3 => if fld w 0 7 = 0 then .ok (.fdiv (bit w 31) (finOf 16 (fld w 21 4)) (finOf 16 (fld w 17 4)) (finOf 16 (fld w 13 4))) else .error .res0
  | 4 => if fld w 0 7 = 0 then .ok (.ffma (bit w 31) (finOf 16 (fld w 21 4)) (finOf 16 (fld w 17 4)) (finOf 16 (fld w 13 4))) else .error .res0
  | 5 => if fld w 0 7 = 0 then .ok (.fmin (bit w 31) (finOf 16 (fld w 21 4)) (finOf 16 (fld w 17 4)) (finOf 16 (fld w 13 4))) else .error .res0
  | 6 => if fld w 0 7 = 0 then .ok (.fmax (bit w 31) (finOf 16 (fld w 21 4)) (finOf 16 (fld w 17 4)) (finOf 16 (fld w 13 4))) else .error .res0
  | 7 => if fld w 0 7 = 0 ∧ fld w 13 4 = 0 then .ok (.fabs (bit w 31) (finOf 16 (fld w 21 4)) (finOf 16 (fld w 17 4))) else .error .res0
  | 8 => if fld w 0 7 = 0 ∧ fld w 13 4 = 0 then .ok (.fneg (bit w 31) (finOf 16 (fld w 21 4)) (finOf 16 (fld w 17 4))) else .error .res0
  | 9 => if fld w 0 7 = 0 ∧ fld w 13 4 = 0 then .ok (.fsqrt (bit w 31) (finOf 16 (fld w 21 4)) (finOf 16 (fld w 17 4))) else .error .res0
  | 10 => if fld w 3 4 = 0 ∧ fld w 24 1 = 0 then .ok (.fcmp (bit w 31) (finOf 8 (fld w 21 3)) (finOf 16 (fld w 17 4)) (finOf 16 (fld w 13 4)) (condOf (fld w 0 3))) else .error .res0
  | 11 => if fld w 3 4 = 0 ∧ fld w 13 4 = 0 then .ok (.fcvt (bit w 31) (finOf 16 (fld w 21 4)) (finOf 16 (fld w 17 4)) (fcvtOf (fld w 0 3))) else .error .res0
  | _ => .error .sub

/-- Group Hint (OP 0x3F, R63 to R65): S is 0, KIND in bits 24:21. -/
noncomputable def decodeHint (w : Nat) : Except Reject Instr :=
  if fld w 31 1 = 0 then
    match fld w 21 4 with
    | 0 => .ok (.himm (BitVec.ofNat 21 (fld w 0 21)))
    | 1 => .ok (.hloc (finOf 16 (fld w 17 4)) (finOf 4 (fld w 15 2)) (BitVec.ofNat 15 (fld w 0 15)))
    | 2 => .ok (.hbr (finOf 4 (fld w 19 2)) (BitVec.ofNat 19 (fld w 0 19)))
    | 3 => .ok (.hpri (BitVec.ofNat 19 (fld w 2 19)) (finOf 4 (fld w 0 2)))
    | 15 => .ok (.hmu (BitVec.ofNat 5 (fld w 16 5)) (BitVec.ofNat 16 (fld w 0 16)))
    | _ => .ok (.hintReserved (finOf 16 (fld w 21 4)) (BitVec.ofNat 21 (fld w 0 21)))
  else .error .hintSync

/-- The opcode map (R58): the major opcode OP alone selects the group. -/
noncomputable def decodeFields (w : Nat) : Except Reject Instr :=
  match fld w 25 6 with
  | 0 => decodeInt w
  | 1 => decodeAddi w
  | 2 => decodeAndi w
  | 3 => decodeOri w
  | 4 => decodeXori w
  | 5 => decodeShi w
  | 6 => decodeLdi w
  | 7 => decodeCmpi w
  | 8 => decodeMul w
  | 9 => decodeBit w
  | 10 => decodeCmp w
  | 11 => decodePred w
  | 12 => decodeLd w
  | 13 => decodeSt w
  | 14 => decodeAtom w
  | 15 => decodeFe w
  | 16 => decodeBr w
  | 17 => decodeJ w
  | 18 => decodeJal w
  | 19 => decodeJr w
  | 20 => decodeSpawn w
  | 21 => decodeZ w
  | 22 => decodeThr w
  | 23 => decodeFence w
  | 24 => decodeTx w
  | 25 => decodeVar w
  | 26 => decodeVbit w
  | 27 => decodeVfma w
  | 28 => decodeVcmp w
  | 29 => decodeVperm w
  | 30 => decodeVcvt w
  | 31 => decodeVmem w
  | 32 => decodeVgat w
  | 33 => decodeVspc w
  | 34 => decodeMxc w
  | 35 => decodeMxm w
  | 36 => decodeMxo w
  | 37 => decodeTq w
  | 38 => decodePat w
  | 39 => decodeCpy w
  | 40 => decodeXg w
  | 41 => decodeJob w
  | 42 => decodeSpr w
  | 43 => decodeSys w
  | 44 => decodeLse w
  | 45 => decodeNet w
  | 46 => decodeFpd w
  | 47 => decodeFp w
  | 63 => decodeHint w
  | _ => .error .opcode

/-- The Cirrus words (R246, R248): a word space of their own, read by the generator only. -/
def decodeCirrusFields (w : Nat) : Except Reject Instr :=
  match fld w 27 5 with
  | 0 => if fld w 0 19 = 0 then (match srcOf (fld w 19 5) with | some a => .ok (.csetReg (finOf 8 (fld w 24 3)) a) | none => .error .code) else if fld w 17 7 = 2 then .ok (.csetImm (finOf 8 (fld w 24 3)) (BitVec.ofNat 17 (fld w 0 17))) else .error .res0
  | 1 => if fld w 0 12 = 0 ∧ fld w 18 1 = 0 then (match srcOf (fld w 19 5), srcOf (fld w 12 5) with | some a, some b => .ok (.caddReg (finOf 8 (fld w 24 3)) a (bit w 17) b) | _, _ => .error .code) else if fld w 18 1 = 1 then (match srcOf (fld w 19 5) with | some a => .ok (.caddImm (finOf 8 (fld w 24 3)) a (bit w 17) (BitVec.ofNat 17 (fld w 0 17))) | none => .error .code) else .error .res0
  | 2 => if fld w 0 12 = 0 ∧ fld w 17 2 = 0 then (match srcOf (fld w 19 5), srcOf (fld w 12 5) with | some a, some b => .ok (.cmulReg (finOf 8 (fld w 24 3)) a b) | _, _ => .error .code) else if fld w 17 2 = 2 then (match srcOf (fld w 19 5) with | some a => .ok (.cmulImm (finOf 8 (fld w 24 3)) a (BitVec.ofNat 17 (fld w 0 17))) | none => .error .code) else .error .res0
  | 3 => if fld w 0 12 = 0 ∧ fld w 17 2 = 0 then (match srcOf (fld w 19 5), srcOf (fld w 12 5) with | some a, some b => .ok (.cdivReg (finOf 8 (fld w 24 3)) a b) | _, _ => .error .code) else if fld w 17 2 = 2 then (match srcOf (fld w 19 5) with | some a => .ok (.cdivImm (finOf 8 (fld w 24 3)) a (BitVec.ofNat 17 (fld w 0 17))) | none => .error .code) else .error .res0
  | 4 => if fld w 0 12 = 0 ∧ fld w 17 2 = 0 then (match srcOf (fld w 19 5), srcOf (fld w 12 5) with | some a, some b => .ok (.cmodReg (finOf 8 (fld w 24 3)) a b) | _, _ => .error .code) else if fld w 17 2 = 2 then (match srcOf (fld w 19 5) with | some a => .ok (.cmodImm (finOf 8 (fld w 24 3)) a (BitVec.ofNat 17 (fld w 0 17))) | none => .error .code) else .error .res0
  | 5 => if fld w 0 12 = 0 ∧ fld w 17 2 = 0 then (match srcOf (fld w 19 5), srcOf (fld w 12 5) with | some a, some b => .ok (.chashReg (finOf 8 (fld w 24 3)) a b) | _, _ => .error .code) else if fld w 17 2 = 2 then (match srcOf (fld w 19 5) with | some a => .ok (.chashImm (finOf 8 (fld w 24 3)) a (BitVec.ofNat 17 (fld w 0 17))) | none => .error .code) else .error .res0
  | 6 => (match srcOf (fld w 19 5), srcOf (fld w 14 5) with | some a, some b => .ok (.cbr (condOf (fld w 24 3)) a b (BitVec.ofNat 14 (fld w 0 14))) | _, _ => .error .code)
  | 7 => if fld w 14 5 = 0 then (match srcOf (fld w 19 5) with | some a => .ok (.cloop (finOf 8 (fld w 24 3)) a (BitVec.ofNat 14 (fld w 0 14))) | none => .error .code) else .error .res0
  | 8 => if fld w 0 12 = 0 ∧ fld w 17 2 = 0 then (match srcOf (fld w 19 5), srcOf (fld w 12 5) with | some a, some b => .ok (.cnextReg (finOf 8 (fld w 24 3)) a b) | _, _ => .error .code) else if fld w 17 2 = 2 then (match srcOf (fld w 19 5) with | some a => .ok (.cnextImm (finOf 8 (fld w 24 3)) a (BitVec.ofNat 17 (fld w 0 17))) | none => .error .code) else .error .res0
  | 9 => if fld w 0 19 = 0 then (match srcOf (fld w 19 5) with | some a => .ok (.cemitReg (finOf 8 (fld w 24 3)) a) | none => .error .code) else if fld w 17 7 = 2 then .ok (.cemitImm (finOf 8 (fld w 24 3)) (BitVec.ofNat 17 (fld w 0 17))) else .error .res0
  | 10 => if fld w 0 12 = 0 ∧ fld w 17 2 = 0 then (match srcOf (fld w 19 5), srcOf (fld w 12 5) with | some a, some b => .ok (.crunReg (finOf 8 (fld w 24 3)) a b) | _, _ => .error .code) else if fld w 17 2 = 2 then (match srcOf (fld w 19 5) with | some a => .ok (.crunImm (finOf 8 (fld w 24 3)) a (BitVec.ofNat 17 (fld w 0 17))) | none => .error .code) else .error .res0
  | 11 => if fld w 0 12 = 0 ∧ fld w 17 2 = 0 then (match srcOf (fld w 19 5), srcOf (fld w 12 5) with | some a, some b => .ok (.ckronReg (finOf 8 (fld w 24 3)) a b) | _, _ => .error .code) else if fld w 17 2 = 2 then (match srcOf (fld w 19 5) with | some a => .ok (.ckronImm (finOf 8 (fld w 24 3)) a (BitVec.ofNat 17 (fld w 0 17))) | none => .error .code) else .error .res0
  | 12 => if fld w 0 27 = 0 then .ok .cinv else .error .res0
  | 13 => if fld w 0 27 = 0 then .ok .cstop else .error .res0
  | _ => .error .opcode

/-- A word that a context executes: its fields, then the checks that no field's type makes (R66). -/
noncomputable def decodeWord (w : Nat) : Except Reject Instr :=
  match decodeFields w with
  | .error r => .error r
  | .ok i => match check i with
    | some r => .error r
    | none => .ok i

/-- A word of a pattern program (R246, R249). -/
def decodeCirrus (w : Nat) : Except Reject Instr :=
  match decodeCirrusFields w with
  | .error r => .error r
  | .ok i => match check i with
    | some r => .error r
    | none => .ok i

/-- The little-endian value of four bytes (R50). -/
def wordOfBytes (b0 b1 b2 b3 : Byte) : Nat :=
  b0.toNat + 256 * b1.toNat + 65536 * b2.toNat + 16777216 * b3.toNat

/-- The four bytes of a word in ascending address order (R50). -/
def bytesOfWord (w : Nat) : List Byte :=
  [BitVec.ofNat 8 w, BitVec.ofNat 8 (w / 256), BitVec.ofNat 8 (w / 65536), BitVec.ofNat 8 (w / 16777216)]

/-- The decoder on bytes: the instruction at their head and the bytes after it. -/
noncomputable def decode (bs : List Byte) : Except Reject (Instr × List Byte) :=
  match bs with
  | b0 :: b1 :: b2 :: b3 :: rest =>
    match decodeWord (wordOfBytes b0 b1 b2 b3) with
    | .error r => .error r
    | .ok i => .ok (i, rest)
  | _ => .error .short

/-- The instruction that the decoder reads from an instruction word numbered as the opcode table numbers it: one word
of 32 bits, stored little-endian (R50); every row of the table has all its bits. -/
noncomputable def decodeTableWord (nbits w : Nat) : Option Instr :=
  match decode (bytesOfWord (w % 2 ^ nbits)) with
  | .ok (i, _) => some i
  | .error _ => none

/-- The word of an instruction, from the same tables (R52, R58, R246). A step of the machine without an encoding has
no word. -/
def encode : Instr → Nat
  | .add sm d a b => 0x0 + sm.toNat * 2147483648 + d.val * 2097152 + a.val * 131072 + b.val * 8192
  | .sub sm d a b => 0x80 + sm.toNat * 2147483648 + d.val * 2097152 + a.val * 131072 + b.val * 8192
  | .addw sm d a b => 0x100 + sm.toNat * 2147483648 + d.val * 2097152 + a.val * 131072 + b.val * 8192
  | .subw sm d a b => 0x180 + sm.toNat * 2147483648 + d.val * 2097152 + a.val * 131072 + b.val * 8192
  | .and sm d a b => 0x200 + sm.toNat * 2147483648 + d.val * 2097152 + a.val * 131072 + b.val * 8192
  | .or sm d a b => 0x280 + sm.toNat * 2147483648 + d.val * 2097152 + a.val * 131072 + b.val * 8192
  | .xor sm d a b => 0x300 + sm.toNat * 2147483648 + d.val * 2097152 + a.val * 131072 + b.val * 8192
  | .andn sm d a b => 0x380 + sm.toNat * 2147483648 + d.val * 2097152 + a.val * 131072 + b.val * 8192
  | .shl sm d a b => 0x400 + sm.toNat * 2147483648 + d.val * 2097152 + a.val * 131072 + b.val * 8192
  | .shr sm d a b => 0x480 + sm.toNat * 2147483648 + d.val * 2097152 + a.val * 131072 + b.val * 8192
  | .sar sm d a b => 0x500 + sm.toNat * 2147483648 + d.val * 2097152 + a.val * 131072 + b.val * 8192
  | .min sm d a b => 0x580 + sm.toNat * 2147483648 + d.val * 2097152 + a.val * 131072 + b.val * 8192
  | .max sm d a b => 0x600 + sm.toNat * 2147483648 + d.val * 2097152 + a.val * 131072 + b.val * 8192
  | .minu sm d a b => 0x680 + sm.toNat * 2147483648 + d.val * 2097152 + a.val * 131072 + b.val * 8192
  | .maxu sm d a b => 0x700 + sm.toNat * 2147483648 + d.val * 2097152 + a.val * 131072 + b.val * 8192
  | .abs sm d a => 0x780 + sm.toNat * 2147483648 + d.val * 2097152 + a.val * 131072
  | .neg sm d a => 0x800 + sm.toNat * 2147483648 + d.val * 2097152 + a.val * 131072
  | .mov sm d a => 0x880 + sm.toNat * 2147483648 + d.val * 2097152 + a.val * 131072
  | .sh1add sm d a b => 0x900 + sm.toNat * 2147483648 + d.val * 2097152 + a.val * 131072 + b.val * 8192
  | .sh2add sm d a b => 0x980 + sm.toNat * 2147483648 + d.val * 2097152 + a.val * 131072 + b.val * 8192
  | .sh3add sm d a b => 0xa00 + sm.toNat * 2147483648 + d.val * 2097152 + a.val * 131072 + b.val * 8192
  | .addi sm d a i => 0x2000000 + sm.toNat * 2147483648 + d.val * 2097152 + a.val * 131072 + i.toNat
  | .andi sm d a i => 0x4000000 + sm.toNat * 2147483648 + d.val * 2097152 + a.val * 131072 + i.toNat
  | .ori sm d a i => 0x6000000 + sm.toNat * 2147483648 + d.val * 2097152 + a.val * 131072 + i.toNat
  | .xori sm d a i => 0x8000000 + sm.toNat * 2147483648 + d.val * 2097152 + a.val * 131072 + i.toNat
  | .ldi sm d i => 0xc000000 + sm.toNat * 2147483648 + d.val * 2097152 + i.toNat
  | .shli sm d a n => 0xa000000 + sm.toNat * 2147483648 + d.val * 2097152 + a.val * 131072 + n.toNat
  | .shri sm d a n => 0xa000080 + sm.toNat * 2147483648 + d.val * 2097152 + a.val * 131072 + n.toNat
  | .sari sm d a n => 0xa000100 + sm.toNat * 2147483648 + d.val * 2097152 + a.val * 131072 + n.toNat
  | .cmpi sm p c a i => 0xe000000 + sm.toNat * 2147483648 + p.val * 4194304 + condCode c * 524288 + a.val * 32768 + i.toNat
  | .mul sm d a b => 0x10000000 + sm.toNat * 2147483648 + d.val * 2097152 + a.val * 131072 + b.val * 8192
  | .mulh sm d a b => 0x10000080 + sm.toNat * 2147483648 + d.val * 2097152 + a.val * 131072 + b.val * 8192
  | .mulhu sm d a b => 0x10000100 + sm.toNat * 2147483648 + d.val * 2097152 + a.val * 131072 + b.val * 8192
  | .mulw sm d a b => 0x10000180 + sm.toNat * 2147483648 + d.val * 2097152 + a.val * 131072 + b.val * 8192
  | .div sm d a b => 0x10000200 + sm.toNat * 2147483648 + d.val * 2097152 + a.val * 131072 + b.val * 8192
  | .divu sm d a b => 0x10000280 + sm.toNat * 2147483648 + d.val * 2097152 + a.val * 131072 + b.val * 8192
  | .rem sm d a b => 0x10000300 + sm.toNat * 2147483648 + d.val * 2097152 + a.val * 131072 + b.val * 8192
  | .remu sm d a b => 0x10000380 + sm.toNat * 2147483648 + d.val * 2097152 + a.val * 131072 + b.val * 8192
  | .clz sm d a => 0x12000000 + sm.toNat * 2147483648 + d.val * 2097152 + a.val * 131072
  | .ctz sm d a => 0x12000080 + sm.toNat * 2147483648 + d.val * 2097152 + a.val * 131072
  | .popc sm d a => 0x12000100 + sm.toNat * 2147483648 + d.val * 2097152 + a.val * 131072
  | .bswap sm d a => 0x12000180 + sm.toNat * 2147483648 + d.val * 2097152 + a.val * 131072
  | .bfx sm d a b => 0x12000200 + sm.toNat * 2147483648 + d.val * 2097152 + a.val * 131072 + b.val * 8192
  | .bfxu sm d a b => 0x12000280 + sm.toNat * 2147483648 + d.val * 2097152 + a.val * 131072 + b.val * 8192
  | .bfi sm d a b => 0x12000300 + sm.toNat * 2147483648 + d.val * 2097152 + a.val * 131072 + b.val * 8192
  | .cmp sm d a b c => 0x14000000 + sm.toNat * 2147483648 + d.val * 2097152 + a.val * 131072 + b.val * 8192 + condCode c
  | .test sm d a b c => 0x14000080 + sm.toNat * 2147483648 + d.val * 2097152 + a.val * 131072 + b.val * 8192 + c.toNat
  | .sel sm d a b k => 0x16000000 + sm.toNat * 2147483648 + d.val * 2097152 + a.val * 131072 + b.val * 8192 + k.val
  | .pand sm d a b => 0x16000080 + sm.toNat * 2147483648 + d.val * 2097152 + a.val * 131072 + b.val * 8192
  | .por sm d a b => 0x16000100 + sm.toNat * 2147483648 + d.val * 2097152 + a.val * 131072 + b.val * 8192
  | .pxor sm d a b => 0x16000180 + sm.toNat * 2147483648 + d.val * 2097152 + a.val * 131072 + b.val * 8192
  | .pnot sm d a => 0x16000200 + sm.toNat * 2147483648 + d.val * 2097152 + a.val * 131072
  | .pget sm d => 0x16000280 + sm.toNat * 2147483648 + d.val * 2097152
  | .pset sm a => 0x16000300 + sm.toNat * 2147483648 + a.val * 131072
  | .ld sm d a z x o f => 0x18000000 + sm.toNat * 2147483648 + d.val * 2097152 + a.val * 131072 + sizeCode z * 32768 + x.toNat * 16384 + mordCode o * 4096 + f.toNat
  | .st sm d a z o f => 0x1a000000 + sm.toNat * 2147483648 + d.val * 2097152 + a.val * 131072 + sizeCode z * 32768 + mordCode o * 4096 + f.toNat
  | .aadd sm d a b c o z => 0x1c000002 + sm.toNat * 2147483648 + d.val * 2097152 + a.val * 131072 + b.val * 8192 + scopeCode c * 16 + orderCode o * 4 + z.toNat
  | .aand sm d a b c o z => 0x1c000082 + sm.toNat * 2147483648 + d.val * 2097152 + a.val * 131072 + b.val * 8192 + scopeCode c * 16 + orderCode o * 4 + z.toNat
  | .aor sm d a b c o z => 0x1c000102 + sm.toNat * 2147483648 + d.val * 2097152 + a.val * 131072 + b.val * 8192 + scopeCode c * 16 + orderCode o * 4 + z.toNat
  | .axor sm d a b c o z => 0x1c000182 + sm.toNat * 2147483648 + d.val * 2097152 + a.val * 131072 + b.val * 8192 + scopeCode c * 16 + orderCode o * 4 + z.toNat
  | .amin sm d a b c o z => 0x1c000202 + sm.toNat * 2147483648 + d.val * 2097152 + a.val * 131072 + b.val * 8192 + scopeCode c * 16 + orderCode o * 4 + z.toNat
  | .amax sm d a b c o z => 0x1c000282 + sm.toNat * 2147483648 + d.val * 2097152 + a.val * 131072 + b.val * 8192 + scopeCode c * 16 + orderCode o * 4 + z.toNat
  | .aminu sm d a b c o z => 0x1c000302 + sm.toNat * 2147483648 + d.val * 2097152 + a.val * 131072 + b.val * 8192 + scopeCode c * 16 + orderCode o * 4 + z.toNat
  | .amaxu sm d a b c o z => 0x1c000382 + sm.toNat * 2147483648 + d.val * 2097152 + a.val * 131072 + b.val * 8192 + scopeCode c * 16 + orderCode o * 4 + z.toNat
  | .aswp sm d a b c o z => 0x1c000402 + sm.toNat * 2147483648 + d.val * 2097152 + a.val * 131072 + b.val * 8192 + scopeCode c * 16 + orderCode o * 4 + z.toNat
  | .acas sm d a b c o z => 0x1c000482 + sm.toNat * 2147483648 + d.val * 2097152 + a.val * 131072 + b.val * 8192 + scopeCode c * 16 + orderCode o * 4 + z.toNat
  | .aincb sm d a b c o z => 0x1c000502 + sm.toNat * 2147483648 + d.val * 2097152 + a.val * 131072 + b.val * 8192 + scopeCode c * 16 + orderCode o * 4 + z.toNat
  | .afadd sm d a b c o => 0x1c000582 + sm.toNat * 2147483648 + d.val * 2097152 + a.val * 131072 + b.val * 8192 + scopeCode c * 16 + orderCode o * 4
  | .afmax sm d a b c o => 0x1c000602 + sm.toNat * 2147483648 + d.val * 2097152 + a.val * 131072 + b.val * 8192 + scopeCode c * 16 + orderCode o * 4
  | .ldfe sm d a => 0x1e000000 + sm.toNat * 2147483648 + d.val * 2097152 + a.val * 131072
  | .ldff sm d a => 0x1e000080 + sm.toNat * 2147483648 + d.val * 2097152 + a.val * 131072
  | .stfe sm d a => 0x1e000100 + sm.toNat * 2147483648 + d.val * 2097152 + a.val * 131072
  | .stef sm d a => 0x1e000180 + sm.toNat * 2147483648 + d.val * 2097152 + a.val * 131072
  | .fen sm a b => 0x1e000200 + sm.toNat * 2147483648 + a.val * 131072 + b.val * 8192
  | .fstat sm d a => 0x1e000280 + sm.toNat * 2147483648 + d.val * 2097152 + a.val * 131072
  | .remp sm d => 0x1e000300 + sm.toNat * 2147483648 + d.val * 2097152
  | .bp sm p f => 0x20000000 + sm.toNat * 2147483648 + p.val * 262144 + f.toNat
  | .bnp sm p f => 0x20400000 + sm.toNat * 2147483648 + p.val * 262144 + f.toNat
  | .bz sm k f => 0x20800000 + sm.toNat * 2147483648 + k.val * 262144 + f.toNat
  | .bnz sm k f => 0x20c00000 + sm.toNat * 2147483648 + k.val * 262144 + f.toNat
  | .dbnz sm k f => 0x21000000 + sm.toNat * 2147483648 + k.val * 262144 + f.toNat
  | .j sm f => 0x22000000 + sm.toNat * 2147483648 + f.toNat
  | .jal sm f => 0x24000000 + sm.toNat * 2147483648 + f.toNat
  | .jr sm a => 0x26000000 + sm.toNat * 2147483648 + a.val * 131072
  | .jalr sm a => 0x26000080 + sm.toNat * 2147483648 + a.val * 131072
  | .spawn sm d a => 0x28000000 + sm.toNat * 2147483648 + d.val * 2097152 + a.val * 131072
  | .spawnn sm d a => 0x28000080 + sm.toNat * 2147483648 + d.val * 2097152 + a.val * 131072
  | .join sm d a => 0x28000100 + sm.toNat * 2147483648 + d.val * 2097152 + a.val * 131072
  | .jtest sm d a => 0x28000180 + sm.toNat * 2147483648 + d.val * 2097152 + a.val * 131072
  | .spabort sm a => 0x28000200 + sm.toNat * 2147483648 + a.val * 131072
  | .tres sm d a b k => 0x28000280 + sm.toNat * 2147483648 + d.val * 2097152 + a.val * 131072 + b.val * 8192 + k.toNat
  | .psm sm d a z o => 0x2a000000 + sm.toNat * 2147483648 + d.val * 2097152 + a.val * 131072 + z.val * 8192 + orderCode o * 4
  | .psmb sm d a z k o => 0x2a000080 + sm.toNat * 2147483648 + d.val * 2097152 + a.val * 131072 + z.val * 8192 + k.val * 16 + orderCode o * 4
  | .zset sm a z o => 0x2a000100 + sm.toNat * 2147483648 + a.val * 131072 + z.val * 8192 + orderCode o * 4
  | .zget sm d z o => 0x2a000180 + sm.toNat * 2147483648 + d.val * 2097152 + z.val * 8192 + orderCode o * 4
  | .done sm => 0x2c000000 + sm.toNat * 2147483648
  | .yield sm => 0x2c000080 + sm.toNat * 2147483648
  | .go sm a => 0x2c000100 + sm.toNat * 2147483648 + a.val * 131072
  | .goh sm a => 0x2c000180 + sm.toNat * 2147483648 + a.val * 131072
  | .gohome sm => 0x2c000200 + sm.toNat * 2147483648
  | .sleep sm a b => 0x2c000280 + sm.toNat * 2147483648 + a.val * 131072 + b.val * 8192
  | .fence sm c o => 0x2e000000 + sm.toNat * 2147483648 + scopeCode c * 16 + orderCode o * 4
  | .fpush sm => 0x2e000080 + sm.toNat * 2147483648
  | .fwait sm => 0x2e000100 + sm.toNat * 2147483648
  | .xbeg sm d => 0x30000000 + sm.toNat * 2147483648 + d.val * 2097152
  | .xcom sm => 0x30000080 + sm.toNat * 2147483648
  | .xabt sm a => 0x30000100 + sm.toNat * 2147483648 + a.val * 131072
  | .vadd sm d a b m x => 0x32000000 + sm.toNat * 2147483648 + d.val * 2097152 + a.val * 131072 + b.val * 8192 + m.val * 1024 + x.toNat
  | .vsub sm d a b m x => 0x32000010 + sm.toNat * 2147483648 + d.val * 2097152 + a.val * 131072 + b.val * 8192 + m.val * 1024 + x.toNat
  | .vmul sm d a b m x => 0x32000020 + sm.toNat * 2147483648 + d.val * 2097152 + a.val * 131072 + b.val * 8192 + m.val * 1024 + x.toNat
  | .vmulh sm d a b m x => 0x32000030 + sm.toNat * 2147483648 + d.val * 2097152 + a.val * 131072 + b.val * 8192 + m.val * 1024 + x.toNat
  | .vmin sm d a b m x => 0x32000040 + sm.toNat * 2147483648 + d.val * 2097152 + a.val * 131072 + b.val * 8192 + m.val * 1024 + x.toNat
  | .vmax sm d a b m x => 0x32000050 + sm.toNat * 2147483648 + d.val * 2097152 + a.val * 131072 + b.val * 8192 + m.val * 1024 + x.toNat
  | .vabs sm d a m => 0x32000060 + sm.toNat * 2147483648 + d.val * 2097152 + a.val * 131072 + m.val * 1024
  | .vneg sm d a m => 0x32000070 + sm.toNat * 2147483648 + d.val * 2097152 + a.val * 131072 + m.val * 1024
  | .vaddsat sm d a b m x => 0x32000080 + sm.toNat * 2147483648 + d.val * 2097152 + a.val * 131072 + b.val * 8192 + m.val * 1024 + x.toNat
  | .vsubsat sm d a b m x => 0x32000090 + sm.toNat * 2147483648 + d.val * 2097152 + a.val * 131072 + b.val * 8192 + m.val * 1024 + x.toNat
  | .vsqrt sm d a m => 0x320000a0 + sm.toNat * 2147483648 + d.val * 2097152 + a.val * 131072 + m.val * 1024
  | .vrcp sm d a m => 0x320000b0 + sm.toNat * 2147483648 + d.val * 2097152 + a.val * 131072 + m.val * 1024
  | .vrsq sm d a m => 0x320000c0 + sm.toNat * 2147483648 + d.val * 2097152 + a.val * 131072 + m.val * 1024
  | .vexp2 sm d a m => 0x320000d0 + sm.toNat * 2147483648 + d.val * 2097152 + a.val * 131072 + m.val * 1024
  | .vand sm d a b m x => 0x34000000 + sm.toNat * 2147483648 + d.val * 2097152 + a.val * 131072 + b.val * 8192 + m.val * 1024 + x.toNat
  | .vor sm d a b m x => 0x34000010 + sm.toNat * 2147483648 + d.val * 2097152 + a.val * 131072 + b.val * 8192 + m.val * 1024 + x.toNat
  | .vxor sm d a b m x => 0x34000020 + sm.toNat * 2147483648 + d.val * 2097152 + a.val * 131072 + b.val * 8192 + m.val * 1024 + x.toNat
  | .vandn sm d a b m x => 0x34000030 + sm.toNat * 2147483648 + d.val * 2097152 + a.val * 131072 + b.val * 8192 + m.val * 1024 + x.toNat
  | .vshl sm d a b m x => 0x34000040 + sm.toNat * 2147483648 + d.val * 2097152 + a.val * 131072 + b.val * 8192 + m.val * 1024 + x.toNat
  | .vshr sm d a b m x => 0x34000050 + sm.toNat * 2147483648 + d.val * 2097152 + a.val * 131072 + b.val * 8192 + m.val * 1024 + x.toNat
  | .vsar sm d a b m x => 0x34000060 + sm.toNat * 2147483648 + d.val * 2097152 + a.val * 131072 + b.val * 8192 + m.val * 1024 + x.toNat
  | .vclz sm d a m => 0x34000070 + sm.toNat * 2147483648 + d.val * 2097152 + a.val * 131072 + m.val * 1024
  | .vpopc sm d a m => 0x34000080 + sm.toNat * 2147483648 + d.val * 2097152 + a.val * 131072 + m.val * 1024
  | .vfma sm d a b m => 0x36000000 + sm.toNat * 2147483648 + d.val * 2097152 + a.val * 131072 + b.val * 8192 + m.val * 1024
  | .vfms sm d a b m => 0x36000010 + sm.toNat * 2147483648 + d.val * 2097152 + a.val * 131072 + b.val * 8192 + m.val * 1024
  | .vfnma sm d a b m => 0x36000020 + sm.toNat * 2147483648 + d.val * 2097152 + a.val * 131072 + b.val * 8192 + m.val * 1024
  | .vfnms sm d a b m => 0x36000030 + sm.toNat * 2147483648 + d.val * 2097152 + a.val * 131072 + b.val * 8192 + m.val * 1024
  | .vdot2 sm d a b m => 0x36000040 + sm.toNat * 2147483648 + d.val * 2097152 + a.val * 131072 + b.val * 8192 + m.val * 1024
  | .vdot4 sm d a b m => 0x36000050 + sm.toNat * 2147483648 + d.val * 2097152 + a.val * 131072 + b.val * 8192 + m.val * 1024
  | .vcmp sm d a b m x c => 0x38000000 + sm.toNat * 2147483648 + d.val * 2097152 + a.val * 131072 + b.val * 8192 + m.val * 1024 + x.toNat * 8 + condCode c
  | .vclass sm d a m k => 0x38000010 + sm.toNat * 2147483648 + d.val * 2097152 + a.val * 131072 + m.val * 1024 + vclassCode k
  | .vsel sm d a b k => 0x38000020 + sm.toNat * 2147483648 + d.val * 2097152 + a.val * 131072 + b.val * 8192 + k.val * 1024
  | .mand sm d a b => 0x38000030 + sm.toNat * 2147483648 + d.val * 2097152 + a.val * 131072 + b.val * 8192
  | .mor sm d a b => 0x38000040 + sm.toNat * 2147483648 + d.val * 2097152 + a.val * 131072 + b.val * 8192
  | .mnot sm d a => 0x38000050 + sm.toNat * 2147483648 + d.val * 2097152 + a.val * 131072
  | .mcount sm d a => 0x38000060 + sm.toNat * 2147483648 + d.val * 2097152 + a.val * 131072
  | .mfirst sm d a => 0x38000070 + sm.toNat * 2147483648 + d.val * 2097152 + a.val * 131072
  | .vbcast sm d a m t => 0x3a000000 + sm.toNat * 2147483648 + d.val * 2097152 + a.val * 131072 + m.val * 1024 + tagCode t
  | .vins sm d a b => 0x3a000010 + sm.toNat * 2147483648 + d.val * 2097152 + a.val * 131072 + b.val * 8192
  | .vext sm d a b => 0x3a000020 + sm.toNat * 2147483648 + d.val * 2097152 + a.val * 131072 + b.val * 8192
  | .vperm sm d a b m => 0x3a000030 + sm.toNat * 2147483648 + d.val * 2097152 + a.val * 131072 + b.val * 8192 + m.val * 1024
  | .vcompress sm d a m => 0x3a000040 + sm.toNat * 2147483648 + d.val * 2097152 + a.val * 131072 + m.val * 1024
  | .vexpand sm d a m => 0x3a000050 + sm.toNat * 2147483648 + d.val * 2097152 + a.val * 131072 + m.val * 1024
  | .vredadd sm d a m => 0x3a000060 + sm.toNat * 2147483648 + d.val * 2097152 + a.val * 131072 + m.val * 1024
  | .vredmax sm d a m => 0x3a000070 + sm.toNat * 2147483648 + d.val * 2097152 + a.val * 131072 + m.val * 1024
  | .vredmin sm d a m => 0x3a000080 + sm.toNat * 2147483648 + d.val * 2097152 + a.val * 131072 + m.val * 1024
  | .vscan sm d a m x => 0x3a000090 + sm.toNat * 2147483648 + d.val * 2097152 + a.val * 131072 + m.val * 1024 + x.toNat
  | .vcvt sm d a p m f => 0x3c000000 + sm.toNat * 2147483648 + d.val * 2097152 + a.val * 131072 + p.val * 8192 + m.val * 1024 + tagCode f
  | .vquant sm d a p f => 0x3c00001c + sm.toNat * 2147483648 + d.val * 2097152 + a.val * 131072 + p.val * 8192 + f.toNat
  | .vdequant sm d a p m f => 0x3c000020 + sm.toNat * 2147483648 + d.val * 2097152 + a.val * 131072 + p.val * 8192 + m.val * 1024 + tagCode f
  | .vtag sm d a t => 0x3c000030 + sm.toNat * 2147483648 + d.val * 2097152 + a.val * 131072 + tagCode t
  | .vseed sm d m => 0x3c000040 + sm.toNat * 2147483648 + d.val * 2097152 + m.val * 1024
  | .vld sm d a m f o => 0x3e000000 + sm.toNat * 2147483648 + d.val * 2097152 + a.val * 131072 + m.val * 16384 + tagCode f * 128 + o.toNat
  | .vst sm d a m f o => 0x3e000800 + sm.toNat * 2147483648 + d.val * 2097152 + a.val * 131072 + m.val * 16384 + tagCode f * 128 + o.toNat
  | .vldbc sm d a m f o => 0x3e001000 + sm.toNat * 2147483648 + d.val * 2097152 + a.val * 131072 + m.val * 16384 + tagCode f * 128 + o.toNat
  | .vlds sm d a m f o => 0x3e001800 + sm.toNat * 2147483648 + d.val * 2097152 + a.val * 131072 + m.val * 16384 + tagCode f * 128 + o.toNat
  | .vsts sm d a m f o => 0x3e002000 + sm.toNat * 2147483648 + d.val * 2097152 + a.val * 131072 + m.val * 16384 + tagCode f * 128 + o.toNat
  | .vgat sm d a b m t => 0x40000000 + sm.toNat * 2147483648 + d.val * 2097152 + a.val * 131072 + b.val * 8192 + m.val * 1024 + tagCode t
  | .vsct sm d a b m => 0x40000010 + sm.toNat * 2147483648 + d.val * 2097152 + a.val * 131072 + b.val * 8192 + m.val * 1024
  | .vsctadd sm d a b m => 0x40000020 + sm.toNat * 2147483648 + d.val * 2097152 + a.val * 131072 + b.val * 8192 + m.val * 1024
  | .hsift sm d a b k => 0x42000000 + sm.toNat * 2147483648 + d.val * 2097152 + a.val * 131072 + b.val * 8192 + k.val
  | .tstep sm d a b p => 0x42000010 + sm.toNat * 2147483648 + d.val * 2097152 + a.val * 131072 + b.val * 8192 + p.val
  | .dgi sm d a r => 0x42000020 + sm.toNat * 2147483648 + d.val * 2097152 + a.val * 131072 + r.toNat
  | .dga sm a n => 0x42000030 + sm.toNat * 2147483648 + a.val * 131072 + n.val
  | .dgo sm d r => 0x42000040 + sm.toNat * 2147483648 + d.val * 2097152 + r.toNat
  | .dglog sm a b => 0x42000050 + sm.toNat * 2147483648 + a.val * 131072 + b.val * 8192
  | .mxcfg sm a x => 0x44000000 + sm.toNat * 2147483648 + a.val * 131072 + x.toNat
  | .mxzero sm d n => 0x44000200 + sm.toNat * 2147483648 + d.val * 2097152 + n.toNat
  | .mxrel sm => 0x44000400 + sm.toNat * 2147483648
  | .mxsave sm d a n => 0x44000600 + sm.toNat * 2147483648 + d.val * 2097152 + a.val * 131072 + n.toNat
  | .mxrest sm d a n => 0x44000800 + sm.toNat * 2147483648 + d.val * 2097152 + a.val * 131072 + n.toNat
  | .mxmm sm d a b q p z n => 0x46000000 + sm.toNat * 2147483648 + d.val * 2097152 + a.val * 131072 + b.val * 8192 + q.val * 8 + p.toNat * 4 + z.toNat * 2 + n.toNat
  | .mxmmg sm d a b q p z n => 0x46000200 + sm.toNat * 2147483648 + d.val * 2097152 + a.val * 131072 + b.val * 8192 + q.val * 8 + p.toNat * 4 + z.toNat * 2 + n.toNat
  | .mxmms sm d a b q p z n => 0x46000400 + sm.toNat * 2147483648 + d.val * 2097152 + a.val * 131072 + b.val * 8192 + q.val * 8 + p.toNat * 4 + z.toNat * 2 + n.toNat
  | .mxmmgs sm d a b q p z n => 0x46000600 + sm.toNat * 2147483648 + d.val * 2097152 + a.val * 131072 + b.val * 8192 + q.val * 8 + p.toNat * 4 + z.toNat * 2 + n.toNat
  | .mxst sm d a f q p n => 0x48000000 + sm.toNat * 2147483648 + d.val * 2097152 + a.val * 131072 + f.toNat * 32 + q.val * 8 + p.toNat * 4 + n.toNat
  | .mxstq sm d a f q p n => 0x48000200 + sm.toNat * 2147483648 + d.val * 2097152 + a.val * 131072 + f.toNat * 32 + q.val * 8 + p.toNat * 4 + n.toNat
  | .mxscale sm d a q p n => 0x48000400 + sm.toNat * 2147483648 + d.val * 2097152 + a.val * 131072 + q.val * 8 + p.toNat * 4 + n.toNat
  | .qset sm d a => 0x4a000000 + sm.toNat * 2147483648 + d.val * 2097152 + a.val * 131072
  | .qclr sm d a => 0x4a000200 + sm.toNat * 2147483648 + d.val * 2097152 + a.val * 131072
  | .qld sm d a => 0x4a000400 + sm.toNat * 2147483648 + d.val * 2097152 + a.val * 131072
  | .qst sm d a => 0x4a000600 + sm.toNat * 2147483648 + d.val * 2097152 + a.val * 131072
  | .qtest sm d a b => 0x4a000800 + sm.toNat * 2147483648 + d.val * 2097152 + a.val * 131072 + b.val * 8192
  | .pgld sm d a b r => 0x4c000000 + sm.toNat * 2147483648 + d.val * 2097152 + a.val * 131072 + b.val * 8192 + r.toNat
  | .pgset sm a b => 0x4c000200 + sm.toNat * 2147483648 + a.val * 131072 + b.val * 8192
  | .pgrun sm d a b => 0x4c000400 + sm.toNat * 2147483648 + d.val * 2097152 + a.val * 131072 + b.val * 8192
  | .pgrel sm => 0x4c000600 + sm.toNat * 2147483648
  | .pginv sm d a => 0x4c000800 + sm.toNat * 2147483648 + d.val * 2097152 + a.val * 131072
  | .csetReg d a => 0x0 + d.val * 16777216 + srcCode a * 524288
  | .csetImm d i => 0x40000 + d.val * 16777216 + i.toNat
  | .caddReg d a n b => 0x8000000 + d.val * 16777216 + srcCode a * 524288 + n.toNat * 131072 + srcCode b * 4096
  | .caddImm d a n i => 0x8040000 + d.val * 16777216 + srcCode a * 524288 + n.toNat * 131072 + i.toNat
  | .cmulReg d a b => 0x10000000 + d.val * 16777216 + srcCode a * 524288 + srcCode b * 4096
  | .cmulImm d a i => 0x10040000 + d.val * 16777216 + srcCode a * 524288 + i.toNat
  | .cdivReg d a b => 0x18000000 + d.val * 16777216 + srcCode a * 524288 + srcCode b * 4096
  | .cdivImm d a i => 0x18040000 + d.val * 16777216 + srcCode a * 524288 + i.toNat
  | .cmodReg d a b => 0x20000000 + d.val * 16777216 + srcCode a * 524288 + srcCode b * 4096
  | .cmodImm d a i => 0x20040000 + d.val * 16777216 + srcCode a * 524288 + i.toNat
  | .chashReg d a b => 0x28000000 + d.val * 16777216 + srcCode a * 524288 + srcCode b * 4096
  | .chashImm d a i => 0x28040000 + d.val * 16777216 + srcCode a * 524288 + i.toNat
  | .cbr c a b f => 0x30000000 + condCode c * 16777216 + srcCode a * 524288 + srcCode b * 16384 + f.toNat
  | .cloop d a f => 0x38000000 + d.val * 16777216 + srcCode a * 524288 + f.toNat
  | .cnextReg d a b => 0x40000000 + d.val * 16777216 + srcCode a * 524288 + srcCode b * 4096
  | .cnextImm d a i => 0x40040000 + d.val * 16777216 + srcCode a * 524288 + i.toNat
  | .cemitReg d a => 0x48000000 + d.val * 16777216 + srcCode a * 524288
  | .cemitImm d i => 0x48040000 + d.val * 16777216 + i.toNat
  | .crunReg d a b => 0x50000000 + d.val * 16777216 + srcCode a * 524288 + srcCode b * 4096
  | .crunImm d a i => 0x50040000 + d.val * 16777216 + srcCode a * 524288 + i.toNat
  | .ckronReg d a b => 0x58000000 + d.val * 16777216 + srcCode a * 524288 + srcCode b * 4096
  | .ckronImm d a i => 0x58040000 + d.val * 16777216 + srcCode a * 524288 + i.toNat
  | .cinv => 0x60000000
  | .cstop => 0x68000000
  | .send sm d a b k => 0x4e000000 + sm.toNat * 2147483648 + d.val * 2097152 + a.val * 131072 + b.val * 8192 + k.toNat
  | .sendm sm d a b k => 0x4e000200 + sm.toNat * 2147483648 + d.val * 2097152 + a.val * 131072 + b.val * 8192 + k.toNat
  | .fetch sm d a b => 0x4e000400 + sm.toNat * 2147483648 + d.val * 2097152 + a.val * 131072 + b.val * 8192
  | .flush sm d a b k => 0x4e000600 + sm.toNat * 2147483648 + d.val * 2097152 + a.val * 131072 + b.val * 8192 + k.toNat
  | .sendg sm d a b k => 0x4e000800 + sm.toNat * 2147483648 + d.val * 2097152 + a.val * 131072 + b.val * 8192 + k.toNat
  | .wmset sm a b => 0x4e000a00 + sm.toNat * 2147483648 + a.val * 131072 + b.val * 8192
  | .wmget sm d a => 0x4e000c00 + sm.toNat * 2147483648 + d.val * 2097152 + a.val * 131072
  | .xgat sm d a b w z => 0x50000000 + sm.toNat * 2147483648 + d.val * 2097152 + a.val * 131072 + b.val * 8192 + w.toNat * 256 + z.toNat
  | .xsct sm d a b w z => 0x50000200 + sm.toNat * 2147483648 + d.val * 2097152 + a.val * 131072 + b.val * 8192 + w.toNat * 256 + z.toNat
  | .xsctadd sm d a b w f z => 0x50000400 + sm.toNat * 2147483648 + d.val * 2097152 + a.val * 131072 + b.val * 8192 + w.toNat * 256 + f.toNat * 128 + z.toNat
  | .jwait sm d a => 0x52000000 + sm.toNat * 2147483648 + d.val * 2097152 + a.val * 131072
  | .jpoll sm d a => 0x52000200 + sm.toNat * 2147483648 + d.val * 2097152 + a.val * 131072
  | .lease sm d a => 0x58000000 + sm.toNat * 2147483648 + d.val * 2097152 + a.val * 131072
  | .unlease sm d a => 0x58000200 + sm.toNat * 2147483648 + d.val * 2097152 + a.val * 131072
  | .pf sm a => 0x58000400 + sm.toNat * 2147483648 + a.val * 131072
  | .llcwb sm d a => 0x58000600 + sm.toNat * 2147483648 + d.val * 2097152 + a.val * 131072
  | .pmig sm d a x => 0x58000800 + sm.toNat * 2147483648 + d.val * 2097152 + a.val * 131072 + x.toNat
  | .nsend sm d a => 0x5a000000 + sm.toNat * 2147483648 + d.val * 2097152 + a.val * 131072
  | .npoll sm d a => 0x5a000200 + sm.toNat * 2147483648 + d.val * 2097152 + a.val * 131072
  | .mfs sm d n => 0x54000000 + sm.toNat * 2147483648 + d.val * 2097152 + n.toNat
  | .mts sm a n => 0x54001000 + sm.toNat * 2147483648 + a.val * 131072 + n.toNat
  | .trap sm n => 0x56000000 + sm.toNat * 2147483648 + n.toNat
  | .eret sm => 0x56000080 + sm.toNat * 2147483648
  | .wfi sm => 0x56000100 + sm.toNat * 2147483648
  | .brk sm n => 0x56000180 + sm.toNat * 2147483648 + n.toNat
  | .tlbi sm a b => 0x56000200 + sm.toNat * 2147483648 + a.val * 131072 + b.val * 8192
  | .tlbiAll sm a => 0x56000201 + sm.toNat * 2147483648 + a.val * 131072
  | .tlbsync sm => 0x56000280 + sm.toNat * 2147483648
  | .seal sm d a => 0x56000300 + sm.toNat * 2147483648 + d.val * 2097152 + a.val * 131072
  | .ipi sm a b => 0x56000380 + sm.toNat * 2147483648 + a.val * 131072 + b.val * 8192
  | .dadd sm d a b => 0x5c000000 + sm.toNat * 2147483648 + d.val * 2097152 + a.val * 131072 + b.val * 8192
  | .dsub sm d a b => 0x5c000080 + sm.toNat * 2147483648 + d.val * 2097152 + a.val * 131072 + b.val * 8192
  | .dmul sm d a b => 0x5c000100 + sm.toNat * 2147483648 + d.val * 2097152 + a.val * 131072 + b.val * 8192
  | .ddiv sm d a b => 0x5c000180 + sm.toNat * 2147483648 + d.val * 2097152 + a.val * 131072 + b.val * 8192
  | .dfma sm d a b => 0x5c000200 + sm.toNat * 2147483648 + d.val * 2097152 + a.val * 131072 + b.val * 8192
  | .dsqrt sm d a => 0x5c000280 + sm.toNat * 2147483648 + d.val * 2097152 + a.val * 131072
  | .dcmp sm d a b c => 0x5c000300 + sm.toNat * 2147483648 + d.val * 2097152 + a.val * 131072 + b.val * 8192 + condCode c
  | .dcvt sm d a k => 0x5c000380 + sm.toNat * 2147483648 + d.val * 2097152 + a.val * 131072 + dcvtCode k
  | .vdfma sm d a b m => 0x5c000400 + sm.toNat * 2147483648 + d.val * 2097152 + a.val * 131072 + b.val * 8192 + m.val
  | .fadd sm d a b => 0x5e000000 + sm.toNat * 2147483648 + d.val * 2097152 + a.val * 131072 + b.val * 8192
  | .fsub sm d a b => 0x5e000080 + sm.toNat * 2147483648 + d.val * 2097152 + a.val * 131072 + b.val * 8192
  | .fmul sm d a b => 0x5e000100 + sm.toNat * 2147483648 + d.val * 2097152 + a.val * 131072 + b.val * 8192
  | .fdiv sm d a b => 0x5e000180 + sm.toNat * 2147483648 + d.val * 2097152 + a.val * 131072 + b.val * 8192
  | .ffma sm d a b => 0x5e000200 + sm.toNat * 2147483648 + d.val * 2097152 + a.val * 131072 + b.val * 8192
  | .fmin sm d a b => 0x5e000280 + sm.toNat * 2147483648 + d.val * 2097152 + a.val * 131072 + b.val * 8192
  | .fmax sm d a b => 0x5e000300 + sm.toNat * 2147483648 + d.val * 2097152 + a.val * 131072 + b.val * 8192
  | .fabs sm d a => 0x5e000380 + sm.toNat * 2147483648 + d.val * 2097152 + a.val * 131072
  | .fneg sm d a => 0x5e000400 + sm.toNat * 2147483648 + d.val * 2097152 + a.val * 131072
  | .fsqrt sm d a => 0x5e000480 + sm.toNat * 2147483648 + d.val * 2097152 + a.val * 131072
  | .fcmp sm d a b c => 0x5e000500 + sm.toNat * 2147483648 + d.val * 2097152 + a.val * 131072 + b.val * 8192 + condCode c
  | .fcvt sm d a k => 0x5e000580 + sm.toNat * 2147483648 + d.val * 2097152 + a.val * 131072 + fcvtCode k
  | .himm i => 0x7e000000 + i.toNat
  | .hloc r c x => 0x7e200000 + r.val * 131072 + c.val * 32768 + x.toNat
  | .hbr h x => 0x7e400000 + h.val * 524288 + x.toNat
  | .hpri x c => 0x7e600000 + x.toNat * 4 + c.val
  | .hmu k a => 0x7fe00000 + k.toNat * 65536 + a.toNat
  | .hintReserved k x => 0x7e000000 + k.val * 2097152 + x.toNat
  | .ptbrWrite _ _ _ => 0
  | .sysctlPmWrite _ _ _ _ => 0
  | .progressModeApply _ _ _ => 0
  | .hxmboxLockRequest _ _ => 0
  | .hxmboxLockRelease _ => 0
  | .hxmboxDbiClear _ => 0
  | .interruptTaken _ _ => 0
  | .watchdogExpire _ _ _ => 0
  | .registerFillWake _ => 0
  | .feWordWake _ _ _ => 0
  | .watermarkWake _ _ => 0
  | .sleepWake _ => 0
  | .joinComplete _ => 0
  | .jwaitComplete _ => 0
  | .queueEntryFree _ => 0
  | .poolEntryFree _ => 0
  | .dSlotFree _ _ => 0
  | .depositArrive _ => 0
  | .depositLand _ => 0
  | .pushAccept _ => 0
  | .bankRead _ => 0
  | .bankWrite _ => 0
  | .bankAtomic _ => 0
  | .peerRequest _ => 0
  | .zenithCycle _ _ _ _ => 0
  | .drawRequest _ => 0
  | .vtStart _ => 0
  | .indexAssign _ => 0
  | .leaseResidencyCheck _ _ => 0
  | .readyBroadcast _ _ => 0
  | .contextChoose _ => 0
  | .residencyProbe _ _ => 0
  | .instanceEnd _ _ => 0
  | .engineStep _ _ => 0
  | .matrixCommandComplete _ _ _ => 0
  | .accumulatorClaim _ _ _ => 0
  | .copyCommandStart _ _ => 0
  | .copyComplete _ _ _ => 0
  | .xgComplete _ _ => 0
  | .jobComplete _ _ => 0
  | .detachedJobEnd _ _ => 0
  | .ringReservation _ _ _ => 0
  | .tlbiComplete _ _ => 0
  | .migrationGroupMove _ _ _ _ => 0
  | .migrationMessageArrive _ => 0
  | .migrationAdmit _ _ => 0
  | .inboxOverflow _ _ _ => 0
  | .heapReplay _ _ => 0
  | .backpressureRetry _ => 0
  | .probeToken _ => 0
  | .preempt _ _ _ _ => 0
  | .preemptImagesSaved _ _ _ => 0
  | .coreRelease _ _ _ => 0
  | .imageRestore _ _ => 0
  | .spillQueueAppend _ => 0
  | .npoolPush _ _ => 0
  | .npoolPop _ => 0
  | .fpoolPush _ _ => 0
  | .fpoolPop _ => 0
  | .exportOpen _ _ => 0
  | .exportRevoke _ _ _ => 0
  | .revocationDrained _ _ => 0
  | .importHandleWrite _ _ _ => 0
  | .importQuery _ _ => 0
  | .controlWindowWrite _ _ _ => 0
  | .eccEvent _ _ => 0
  | .linkCrcError _ _ => 0
  | .bridgeFence _ => 0
  | .chipletFence _ _ => 0
  | .chipletAdmit _ _ _ => 0
  | .modulePowerOn => 0
  | .sectorRelease _ => 0
  | .sectorResetOrderly _ => 0
  | .sectorResetForced _ => 0
  | .quiesceRequest _ _ => 0
  | .quiesceDone _ _ => 0
  | .quiesceTimeout _ _ => 0
  | .hxQuote _ => 0
  | .hxReadlog _ => 0
  | .hxTelem _ => 0
  | .hxFence _ => 0
  | .hxAdmit _ => 0
  | .hxSreset _ => 0
  | .hxNetcfg _ => 0
  | .hxPciecfg _ => 0
  | .hxPcap _ => 0
  | .horizonResponse _ => 0
  | .mgmtTelemetry => 0
  | .mgmtFirmware _ => 0
  | .mgmtBootReset _ _ _ _ => 0
  | .mgmtFence _ => 0
  | .mgmtPower _ _ => 0
  | .mgmtAttestation _ _ => 0
  | .clockStep _ _ => 0
  | .thermalTrip _ => 0
  | .railFault _ => 0
  | .rdmaWriteIn _ _ => 0
  | .rdmaReadIn _ _ => 0
  | .rdmaSendIn _ _ => 0
  | .pcieDescriptorRing _ => 0
  | .pcieDma _ _ => 0
  | .pcieMessageWrite _ _ => 0
  | .scratchpadFlitArrive _ _ _ => 0
  | .pcieCompletion _ _ _ _ => 0
  | .receiverNotReadyNak _ _ => 0

/-- The bytes of an instruction in memory (R50). -/
def encodeBytes (i : Instr) : List Byte := bytesOfWord (encode i)

end Sys2Proof
end

