-- ==== Sys2Proof/Machine/Turns.lean ====
section
/-! DEFINITION. Which step comes next (log entry 1): the due steps as instructions, the agents that can issue, the fetch
of an instruction, and the placing of an instruction where the next step fetches it. -/

namespace Sys2Proof.Machine

/-! ## Due steps as instructions -/

/-- A mailbox command by its number (R424). -/
noncomputable def hxInstr (x : Sec) (c : Fin 9) : Instr :=
  match c with
  | 0 => .hxQuote x
  | 1 => .hxReadlog x
  | 2 => .hxTelem x
  | 3 => .hxFence x
  | 4 => .hxAdmit x
  | 5 => .hxSreset x
  | 6 => .hxNetcfg x
  | 7 => .hxPciecfg x
  | 8 => .hxPcap x

/-- A word of a pattern program; a word that is none ends the run. -/
def cirrusInstr (w : Nat) : Instr :=
  match decodeCirrus w with
  | .ok i => i
  | .error _ => .cstop

/-- The step that is due, as the constructor of the opcode table's row. -/
noncomputable def Due.toInstr : Due → Instr
  | .interruptTaken x n => .interruptTaken x n
  | .registerFillWake g => .registerFillWake g
  | .feWordWake x cl w => .feWordWake x cl w
  | .watermarkWake x cl => .watermarkWake x cl
  | .sleepWake g => .sleepWake g
  | .joinComplete g => .joinComplete g
  | .jwaitComplete g => .jwaitComplete g
  | .queueEntryFree g => .queueEntryFree g
  | .poolEntryFree x => .poolEntryFree x
  | .dSlotFree x cl => .dSlotFree x cl
  | .depositArrive id => .depositArrive id
  | .depositLand id => .depositLand id
  | .pushAccept id => .pushAccept id
  | .bankRead id => .bankRead id
  | .bankWrite id => .bankWrite id
  | .bankAtomic id => .bankAtomic id
  | .peerRequest id => .peerRequest id
  | .zenithCycle x uid z order => .zenithCycle x uid z order
  | .drawRequest g => .drawRequest g
  | .vtStart g => .vtStart g
  | .indexAssign x => .indexAssign x
  | .leaseResidencyCheck x uid => .leaseResidencyCheck x uid
  | .readyBroadcast x uid => .readyBroadcast x uid
  | .contextChoose g => .contextChoose g
  | .instanceEnd x uid => .instanceEnd x uid
  | .engineStep x cl => .engineStep x cl
  | .matrixCommandComplete x cl co => .matrixCommandComplete x cl co
  | .accumulatorClaim x home slot => .accumulatorClaim x home slot
  | .cirrus w => cirrusInstr w
  | .copyCommandStart x cl => .copyCommandStart x cl
  | .copyComplete x cl id => .copyComplete x cl id
  | .flitArrive x cl id => .scratchpadFlitArrive x cl id
  | .ringReservation x cl id => .ringReservation x cl id
  | .xgComplete x id => .xgComplete x id
  | .jobComplete x id => .jobComplete x id
  | .detachedJobEnd x key => .detachedJobEnd x key
  | .tlbiComplete x id => .tlbiComplete x id
  | .migrationGroupMove x asid va far => .migrationGroupMove x asid va far
  | .migrationMessageArrive id => .migrationMessageArrive id
  | .migrationAdmit x cl => .migrationAdmit x cl
  | .inboxOverflow x cl id => .inboxOverflow x cl id
  | .heapReplay x cl => .heapReplay x cl
  | .backpressureRetry id => .backpressureRetry id
  | .probeToken id => .probeToken id
  | .progressModeApply x cl co => .progressModeApply x cl co
  | .preempt x cl co issuer => .preempt x cl co issuer
  | .preemptImagesSaved x cl co => .preemptImagesSaved x cl co
  | .coreRelease x cl co => .coreRelease x cl co
  | .imageRestore x idx => .imageRestore x idx
  | .spillQueueAppend id => .spillQueueAppend id
  | .revocationDrained x e => .revocationDrained x e
  | .importQuery x slot => .importQuery x slot
  | .chipletFence x ch => .chipletFence x ch
  | .bridgeFence b => .bridgeFence b
  | .sectorRelease x => .sectorRelease x
  | .sectorResetForced x => .sectorResetForced x
  | .sectorResetOrderly x => .sectorResetOrderly x
  | .quiesceRequest x n => .quiesceRequest x n
  | .quiesceDone x n => .quiesceDone x n
  | .quiesceTimeout x n => .quiesceTimeout x n
  | .hx x cmd => hxInstr x cmd
  | .horizonResponse x => .horizonResponse x
  | .pcieDescriptorRing x => .pcieDescriptorRing x

/-! ## Which agents can issue -/

/-- A pending event could be taken by a master core (R392). -/
def Master.pending (m : Master) : Bool := m.chl.isSome || !m.irqs.isEmpty

/-- A parked agent whose instruction can execute again. -/
def State.parkOver (s : State) (g : Agent) (p : Park) : Bool :=
  match p with
  | .commands => !s.mxBusy g
  | .tlbis => match g with
    | .master x n => (s.master x n).tlbis.isEmpty
    | .thread _ _ => true
  | .wfi => match g with
    | .master x n => (s.master x n).pending
    | .thread _ _ => false
  | _ => false

/-- The hardware runs the agent: a sector in service, a chiplet that is not fenced, a context that holds a vt on a core
that is not stopped (R401, R417). -/
def State.inService (s : State) (g : Agent) : Bool :=
  decide ((s.sec (secOf g)).power = .running) && !s.isFenced (secOf g) (chipletOfAgent g) &&
  match g with
  | .master _ _ => true
  | .thread x i => (s.vtAt x i.val).isSome && (s.coreSt x (clusterOf i.val) (coreOf i.val)).stopped.isNone

/-- An agent is ready (R51, R369, R373). -/
def State.ready (s : State) (g : Agent) : Bool :=
  s.inService g && match (s.hart g).park with
    | some p => s.parkOver g p
    | none => (!(s.hart g).sWait || s.drained g) && (s.hart g).wait.all (s.waitOver g)

/-- The slots of a core in ascending order after one slot, wrapping from 7 to 0 (R371). -/
def slotsAfter (last : Fin 8) : List (Fin 8) := (List.range 8).map fun k => Fin.ofNat 8 (last.val + 1 + k)

/-- The role of a core in mode Y (R371): a holder keeps it while its slot runs a vt that has not parked; else it passes
to the next ready context after the old holder. An idle core gives it to the first context to become ready, the lowest
slot if several do in one step. -/
def State.roleOf (s : State) (x : Sec) (cl : Fin 96) (co : Fin 8) (c : CoreSt) : CoreSt :=
  let keeps := fun (h : Fin 8) =>
    (s.vtAt x (indexOf cl co h).val).isSome && (s.hart (.thread x (indexOf cl co h))).park.all Park.keepsRole
  if !c.modeY || c.holder.any keeps then c
  else
    let last := c.holder.getD c.last
    match (slotsAfter last).find? fun sl => s.ready (.thread x (indexOf cl co sl)) with
    | some h => { c with holder := some h, watchdog := 0 }
    | none => { c with holder := none, last := 7, watchdog := 0 }

/-- The roles of every core in mode Y as they stand before a step. -/
def State.grantRoles (s : State) : State :=
  (s.clusters.filter fun e => e.2.cores.toList.any (·.modeY)).foldl (fun t e =>
    let x : Sec := Fin.ofNat 4 (e.1 / 96)
    let cl : Fin 96 := Fin.ofNat 96 e.1
    t.setCluster x cl { e.2 with cores := Vector.ofFn fun co => s.roleOf x cl co (e.2.cores.get co) }) s

/-- In mode Y only the holder issues (R371). -/
def State.hasRole (s : State) (g : Agent) : Bool :=
  match g with
  | .master _ _ => true
  | .thread x i =>
    let c := s.coreSt x (clusterOf i.val) (coreOf i.val)
    !c.modeY || c.holder == some (slotOf i.val)

/-- An agent can issue its next instruction. -/
def State.canIssue (s : State) (g : Agent) : Bool := s.ready g && s.hasRole g

/-- An instruction of the holder takes at least one cycle of its watchdog (R372). -/
def State.countWatchdog (s : State) (g : Agent) : State :=
  match g with
  | .master _ _ => s
  | .thread x i =>
    s.modCore x (clusterOf i.val) (coreOf i.val) fun c => if c.modeY then { c with watchdog := c.watchdog + 1 } else c

/-- The agent issues: it becomes the executing agent, moves to the end of the round, and its wait is over. -/
def State.begin_ (s : State) (g : Agent) : State :=
  ({ s with cur := g, turns := s.turns.filter (· ≠ g) ++ [g] }.countWatchdog g).modHart g fun h =>
    { h with park := none, sWait := false, wait := none }

/-- The count at which the holder of a core in mode Y takes WDG (R372). A step that issues is at least one cycle. -/
def watchdogLimit : Nat := 2 ^ 20

/-- The watchdog of an agent's core has run out for it. -/
def State.watchdogOut (s : State) (g : Agent) : Bool :=
  match g with
  | .master _ _ => false
  | .thread x i =>
    let c := s.coreSt x (clusterOf i.val) (coreOf i.val)
    c.modeY && c.holder == some (slotOf i.val) && decide (watchdogLimit ≤ c.watchdog)

/-- What a fetch answers: a fault with the word that a record reports and the state behind the fetch, nothing yet, or
the word, its instruction and that state. -/
inductive Fetched where
  | fault (f : Flt) (w : BitVec 32) (s : State)
  | wait
  | got (w : BitVec 32) (i : Instr) (s : State)
  deriving DecidableEq, Repr

/-- The instruction at an agent's pc, or the fault of its fetch with the word that a record reports (R66, R130, R396). A
fetch that reaches its line leaves it in the caches whatever the word is (R330, R334). -/
noncomputable def State.fetch (s : State) (g : Agent) : Fetched :=
  match s.fetchWord g (s.hart g).pc.toNat, s.watchdogOut g with
  | .error _, true => .fault (flt cWDG 1) 0 s
  | .ok none, true => .fault (flt cWDG 1) 0 s
  | .ok (some (w, t)), true => .fault (flt cWDG 1) (BitVec.ofNat 32 w) t
  | .error f, false => .fault f 0 s
  | .ok none, false => .wait
  | .ok (some (w, t)), false => match decodeWord w with
    | .ok i => .got (BitVec.ofNat 32 w) i t
    | .error _ => .fault (flt cILL 0) (BitVec.ofNat 32 w) t

/-! ## Placing an instruction (log entry 19) -/

/-- The page that the boot mapping gives for a program placed by `withFetchWord`. -/
def bootPage : Nat := 0x40000

/-- A table entry to the next table, and a leaf that may be read, written and executed. -/
def tableEntry (pa : Nat) : Nat := pa + 1
def leafEntry (pa : Nat) : Nat := pa + 0x3A

/-- The tables that map the page of an address to the boot page, under the root of an address space. -/
def State.bootTables (s : State) (x : Sec) (asid : BitVec 16) (va : Nat) : State :=
  let put := fun (s : State) (t idx e : Nat) => s.writePhys x (t + 8 * idx) (leBytes 8 e)
  let s := s.modSec x fun c => { c with roots := Sparse.put (Root.reset asid.toNat) c.roots asid.toNat ⟨0, true⟩ }
  let s := put s 0 (va / 2 ^ 55 % 2) (tableEntry 0x10000)
  let s := put s 0x10000 (va / 2 ^ 42 % 2 ^ 13) (tableEntry 0x20000)
  let s := put s 0x20000 (va / 2 ^ 29 % 2 ^ 13) (tableEntry 0x30000)
  let s := put s 0x30000 (va / 2 ^ 16 % 2 ^ 13) (leafEntry bootPage)
  ({ s with copies := [] }.setLine (lineKey x asid va) none).modSec x fun c =>
    { c with tlb := [], walker := [], wlog := [], seals := [] }

/-- The state with an instruction's bytes placed where the first master core of sector 0 fetches next, and that core
next to issue: what a load of the boot image does from outside (R415). -/
def State.placeWord (s : State) (nbits w : Nat) : State :=
  let g : Agent := .master 0 0
  let h := s.hart g
  let pc := h.pc.toNat
  let s := (s.bootTables 0 (s.asidOf g) pc).writePhys 0 (bootPage + pc % 2 ^ 16) (leBytes 4 (w % 2 ^ nbits))
  let s := s.modSec 0 fun c => { c with power := .running, fenced := c.fenced.set 0 false }
  { (s.modHart g fun h => { h with park := none, sWait := false, wait := none }) with
    tape := [], agenda := [], turns := g :: s.turns.filter (· ≠ g) }

end Sys2Proof.Machine
end

