-- ==== Sys2Proof/Machine/Spr.lean ====
section
/-! DEFINITION. Special registers (R25 to R37, R295, R296, R339, R369). -/

namespace Sys2Proof.Machine

/-! ## Parts of the state that special registers show -/

/-- CTXID of an agent (R27). -/
def ctxidOf (g : Agent) : Word :=
  match g with
  | .thread _ _ => ctxidThread (agentKey g)
  | .master x n => word (x.val * 65536 + 32768 + n.val * 4)

/-- EXTS (R28). -/
def State.exts (s : State) (g : Agent) : Word :=
  match g with
  | .master _ _ => 7
  | .thread x i =>
    let d := !(s.cluster x (clusterOf i.val)).dFused
    word (d.toNat * 2 + (d && decide (6 ≤ (coreOf i.val).val)).toNat)

/-- The thread core that TSEL names: cluster and core (R34). -/
def tselCore (t : Nat) : Option (Fin 96 × Fin 8) := if t < 768 then some (Fin.ofNat 96 (t / 8), Fin.ofNat 8 t) else none

/-- The progress mode of a core as PM shows it: the latest written. -/
def State.pm (s : State) (x : Sec) (cl : Fin 96) (co : Fin 8) : Bool :=
  let c := s.coreSt x cl co
  c.next.getD c.modeY

/-- SYSCTL as read (R34). -/
def State.sysctl (s : State) (x : Sec) (n : Fin 16) : Word :=
  let m := s.master x n
  let pm := match tselCore m.tsel.toNat with
    | some (cl, co) => s.pm x cl co
    | none => false
  word ((s.sec x).rce.toNat + (s.sec x).ovp.toNat * 2 + m.ie.toNat * 4 + pm.toNat * 8 + m.tsel.toNat * 65536)

/-- MXWGT as read (R35). -/
def State.mxwgt (s : State) (x : Sec) (n : Fin 16) : Word :=
  let c := (s.master x n).csel.toNat
  word (c * 2 ^ 32 + if c < 96 then (s.cluster x (Fin.ofNat 96 c)).weights.toNat else 0)

/-- PTBR as read (R32, R339). -/
def State.ptbr (s : State) (x : Sec) (asid : BitVec 16) : Word :=
  let r := Sparse.get (Root.reset asid.toNat) (s.sec x).roots asid.toNat
  word (r.root + r.v.toNat)

/-- HXMBOX as read (R37). -/
def Sector.hxmbox (c : Sector) : Word :=
  word (c.hxLock.toNat * 2 ^ 63 + c.hxDbi.toNat * 2 ^ 33 + c.hxDbo.toNat * 2 ^ 32 + c.hxIn.toNat)

/-- A privileged register (R26). -/
def sprPrivileged (n : Nat) : Bool := decide (0x100 ≤ n) && decide (n ≤ 0x10C)

/-- The checks of a register number (R25, R389). -/
def State.sprCheck (s : State) (n : Nat) : Except Stop Unit :=
  if sprPrivileged n then match privileged s with
    | .ok _ => .ok ()
    | .error e => .error e
  else require ([0, 1, 2, 3, 4, 8, 9, 10, 11, 0x10, 0x11, 0x12].contains n) (flt cILL 0)

/-! ## mfs -/

/-- An unprivileged register (R26). -/
def State.readUser (s : State) (n : Nat) : Word :=
  let g := s.cur
  let h := s.me
  let own := fun (f : Ctx → Word) (m : Word) => match g with
    | .thread x i => f (s.ctx x i.val)
    | .master _ _ => m
  match n with
  | 0 => ctxidOf g
  | 1 => own (·.vtn) 0
  | 2 => own (·.sph) 0
  | 3 => own (·.homec) (ctxidOf g)
  | 4 => s.exts g
  | 8 => h.fmode
  | 9 => h.fflags
  | 10 => h.srseed
  | 11 => 0x0201
  | 0x11 => h.instret
  | _ => match g with
    | .thread x i => word (s.cluster x (clusterOf i.val)).migdup.toNat
    | .master _ _ => 0

/-- A privileged register of a master core (R26). -/
def State.readSys (s : State) (x : Sec) (k : Fin 16) (n : Nat) : Word :=
  let m := s.master x k
  match n with
  | 0x100 => word m.asid.toNat
  | 0x101 => s.ptbr x m.asid
  | 0x102 => m.evec
  | 0x103 => m.epc
  | 0x104 => m.ecause
  | 0x105 => m.eaddr
  | 0x106 => m.estat
  | 0x107 => m.escratch
  | 0x108 => s.sysctl x k
  | 0x109 => s.mxwgt x k
  | 0x10A => (s.sec x).spillq
  | 0x10B => (s.sec x).dglogb
  | _ => (s.sec x).hxmbox

/-- CYCLE counts cycles, of which the specification fixes no number: each reading is a free value (log entry 9). -/
def execMfs (sm : Bool) (d : Fin 16) (n : BitVec 12) (s : State) : Host.Outcome State Fault Refusal :=
  s.issue sm fun s => do
    s.sprCheck n.toNat
    if n.toNat = 0x10 then
      done ({ s with freeCtr := s.freeCtr + 1 }.wrS d (Config.cycle s.freeCtr))
    else match s.cur with
      | .master x k => done (s.wrS d (if sprPrivileged n.toNat then s.readSys x k n.toNat else s.readUser n.toNat))
      | .thread _ _ => done (s.wrS d (s.readUser n.toNat))

/-! ## mts -/

/-- DGLOGB as stored (R36): sizes below 16 are stored as 16. -/
def dglogbStored (v : Word) : Word := word (keep v 16 36 + max 16 (bitsOf v 0 6))

/-- Matrix weights as stored (R35): 0 is stored as 1. -/
def weightsStored (v : Nat) : BitVec 32 :=
  BitVec.ofNat 32 ((List.range 8).foldl (fun a n => a + max 1 (v / 2 ^ (4 * n) % 16) * 2 ^ (4 * n)) 0)

/-- Replace the translation root of an address space (R339). -/
def State.writeRoot (s : State) (x : Sec) (asid : BitVec 16) (v : Word) : State :=
  s.modSec x fun c =>
    { c with roots := Sparse.put (Root.reset asid.toNat) c.roots asid.toNat ⟨keep v 16 36, bitAt v 0⟩ }

/-- A thread core is to change its progress mode at its next rotation boundary (R34, R369). -/
def State.writeMode (s : State) (x : Sec) (cl : Fin 96) (co : Fin 8) (y : Bool) : State :=
  if s.pm x cl co = y then s
  else (s.modCore x cl co fun c => { c with next := some y }).post (.progressModeApply x cl co)

/-- The write to PM: the selected core, or with PMALL every core of the sector, whatever TSEL names (R34; DESIGN CHOICE,
log entry 77). -/
def State.writePm (s : State) (x : Sec) (tsel : Nat) (pm all : Bool) : State :=
  if all then (List.range 768).foldl (fun s t => s.writeMode x (Fin.ofNat 96 (t / 8)) (Fin.ofNat 8 t) pm) s
  else match tselCore tsel with
    | some (cl, co) => s.writeMode x cl co pm
    | none => s

/-- The new mode takes effect (R369); the holder in mode Y is then the lowest ready slot (R371). -/
def State.applyMode (s : State) (x : Sec) (cl : Fin 96) (co : Fin 8) : State :=
  s.modCore x cl co fun c => match c.next with
    | none => c
    | some y => { c with modeY := y, next := none, holder := none, last := 7, watchdog := 0 }

/-- The mailbox lock (R37): Horizon receives it when both ask; a request that finds it held stands until the lock is
free. -/
def State.requestLock (s : State) (x : Sec) (horizonToo : Bool) : State :=
  s.modSec x fun c =>
    if c.hxLock then c
    else if c.hxHorizon then { c with hxWant := true }
    else if horizonToo then { c with hxHorizon := true, hxWant := true } else { c with hxLock := true }

/-- The operating system writes LOCK = 0: it gives the lock back, or withdraws a request. -/
def State.releaseLock (s : State) (x : Sec) : State :=
  let s := s.modSec x fun c => { c with hxLock := false, hxWant := false }
  if (s.sec x).hxResps.isEmpty then s else s.post (.horizonResponse x)

/-- Send a command word to Horizon (R37, R423): a command of R424 is due, any other is answered. A request written while
an earlier one has not been taken or answered receives BUSY. -/
def State.sendMailbox (s : State) (x : Sec) (v : BitVec 32) : State :=
  let c := s.sec x
  if c.hxDbo || !c.hxResps.isEmpty then
    (s.modSec x fun c =>
      { c with hxOut := v, hxResps := c.hxResps ++ [⟨BitVec.ofNat 32 (v.toNat / 2 ^ 16 * 2 ^ 16 + 3 * 2 ^ 8), []⟩] }).post
      (.horizonResponse x)
  else
    let s := s.modSec x fun c => { c with hxDbo := true, hxOut := v, hxSent := v }
    let cmd := v.toNat / 2 ^ 24
    if 1 ≤ cmd ∧ cmd ≤ 9 then s.post (.hx x (Fin.ofNat 9 (cmd - 1))) else s.post (.horizonResponse x)

/-- A write to HXMBOX (R37). -/
def State.writeMailbox (s : State) (x : Sec) (v : Word) : State :=
  let s := if bitAt v 63 then s.requestLock x false else s.releaseLock x
  let s := if bitAt v 33 then s.modSec x fun c => { c with hxDbi := false } else s
  let data := BitVec.ofNat 32 v.toNat
  if bitAt v 32 then s.sendMailbox x data else s.modSec x fun c => { c with hxOut := data }

/-- A write to SYSCTL (R34): the fields of this master core, then those of the sector. -/
def State.writeSysctl (s : State) (x : Sec) (k : Fin 16) (v : Word) : State :=
  let s := s.modMaster x k fun m => { m with ie := bitAt v 2, tsel := BitVec.ofNat 10 (bitsOf v 16 10) }
  let s := s.modSec x fun c => { c with rce := bitAt v 0, ovp := bitAt v 1 }
  (s.writePm x (bitsOf v 16 10) (bitAt v 3) (bitAt v 4)).post (.interruptTaken x k)

/-- A write to MXWGT (R35): CSEL, then the weights of the cluster that it names. -/
def State.writeMxwgt (s : State) (x : Sec) (k : Fin 16) (v : Word) : State :=
  let cl := bitsOf v 32 7
  let s := s.modMaster x k fun m => { m with csel := BitVec.ofNat 7 cl }
  if cl < 96 then s.modCluster x (Fin.ofNat 96 cl) fun c => { c with weights := weightsStored (bitsOf v 0 32) } else s

/-- A write to a privileged register (R25, R32 to R37). -/
def State.writeSys (s : State) (x : Sec) (k : Fin 16) (n : Nat) (v : Word) : State :=
  let mod := fun (f : Master → Master) => s.modMaster x k f
  match n with
  | 0x100 => mod fun m => { m with asid := BitVec.ofNat 16 v.toNat }
  | 0x101 => s.writeRoot x (s.master x k).asid v
  | 0x102 => mod fun m => { m with evec := word (keep v 2 54) }
  | 0x103 => mod fun m => { m with epc := v }
  | 0x104 => mod fun m => { m with ecause := word (bitsOf v 0 8) }
  | 0x105 => mod fun m => { m with eaddr := v }
  | 0x106 => mod fun m => { m with estat := word (keep v 16 16 + bitsOf v 0 10) }
  | 0x107 => mod fun m => { m with escratch := v }
  | 0x108 => s.writeSysctl x k v
  | 0x109 => s.writeMxwgt x k v
  | 0x10A => s.modSec x fun c => { c with spillq := word (keep v 16 36 + bitsOf v 0 4) }
  | 0x10B => s.modSec x fun c => { c with dglogb := dglogbStored v, dgP := 0 }
  | _ => s.writeMailbox x v

/-- A write to an unprivileged register; those that are read-only discard it (R25, R29, R31). -/
def Hart.writeUser (h : Hart) (n : Nat) (v : Word) : Hart :=
  match n with
  | 8 => { h with fmode := fmodeStored v }
  | 9 => { h with fflags := word (bitsOf v 0 5) }
  | 10 => { h with srseed := v }
  | _ => h

/-- `mts` to ASID or PTBR waits for the master core's earlier accesses and commands (R296). -/
def execMts (sm : Bool) (a : Fin 16) (n : BitVec 12) (s : State) : Host.Outcome State Fault Refusal :=
  s.issue sm fun s => do
    s.sprCheck n.toNat
    let v ← s.rdS a
    if (n.toNat = 0x100 ∨ n.toNat = 0x101) ∧ !(s.drained s.cur && s.enginesIdle s.cur) then .error (.interlock (.drain true))
    else match s.cur with
      | .master x k =>
        done (if sprPrivileged n.toNat then s.writeSys x k n.toNat v else s.modMe fun h => h.writeUser n.toNat v)
      | .thread _ _ => done (s.modMe fun h => h.writeUser n.toNat v)

/-! ## The effects of special-register writes as steps of their own -/

def execPtbrWrite (x : Sec) (asid : BitVec 16) (v : BitVec 64) (s : State) : Host.Outcome State Fault Refusal :=
  event (s.writeRoot x asid v)

def execSysctlPmWrite (x : Sec) (tsel : BitVec 10) (pm all : Bool) (s : State) : Host.Outcome State Fault Refusal :=
  event (s.writePm x tsel.toNat pm all)

def execProgressModeApply (x : Sec) (cl : Fin 96) (co : Fin 8) (s : State) : Host.Outcome State Fault Refusal :=
  event (s.applyMode x cl co)

/-- Horizon asks for the lock only to post its responses, after which it releases it. -/
def execHxmboxLockRequest (x : Sec) (horizonToo : Bool) (s : State) : Host.Outcome State Fault Refusal :=
  let t := s.requestLock x horizonToo
  event (if horizonToo then t.post (.horizonResponse x) else t)

def execHxmboxLockRelease (x : Sec) (s : State) : Host.Outcome State Fault Refusal :=
  event (s.releaseLock x)

def execHxmboxDbiClear (x : Sec) (s : State) : Host.Outcome State Fault Refusal :=
  event (s.modSec x fun c => { c with hxDbi := false })

/-- The holder's count of cycles reaches the limit (R372): it takes WDG at the instruction that it would issue next. -/
def execWatchdogExpire (x : Sec) (cl : Fin 96) (co : Fin 8) (s : State) : Host.Outcome State Fault Refusal :=
  event (
    let c := s.coreSt x cl co
    if c.modeY ∧ c.holder.isSome ∧ c.stopped.isNone then
      s.modCore x cl co fun c => { c with watchdog := watchdogLimit }
    else s)

end Sys2Proof.Machine
end

