-- ==== Sys2Proof/Machine/Gather.lean ====
section
/-! DEFINITION. Gathers and scatters in the base dies (R284 to R286, R350), and the requests of units at their homes
(R309, R332, R357). -/

namespace Sys2Proof.Machine

/-! ## At issue (R284) -/

/-- The faults of the base: application space, or a peer slot that is imported. -/
def State.baseFaults (s : State) (ea : Nat) : List Flt :=
  match placeOf s.cur ea 1 with
  | .ok (.app _) => []
  | .ok (.peer slot off) => s.importFault slot off 1 ea
  | .ok _ => [fltAt cADR 0 ea]
  | .error f => [f]

/-- The scratchpad data and the index list overlap (R274, R284; log entry 65). -/
def extentsOverlap (data n list m : Nat) : List Flt :=
  if spadOff data < spadOff list + m ∧ spadOff list < spadOff data + n then [flt cSHP 0x22] else []

/-- Queue a gather or scatter. -/
def State.submitGather (s : State) (d : Fin 16) (k : AsyncKind) (side list base : Word) (n z : Nat) (wide : Bool) :
    Except Stop (State × Next) := do
  let s ← s.jobRoom
  let r := s.newAsync k base.toNat n
  let t := r.2.2.modAsync (secOf s.cur) r.1 fun a =>
    { a with side := side, list := list, size := z, wide := wide, todo := List.range n }
  done ((t.post (.xgComplete (secOf s.cur) r.1)).wrS d (word r.2.1.job))

/-- The common part of the three forms. -/
def State.gather (s : State) (sm : Bool) (k : AsyncKind) (d a b : Fin 16) (w : Bool) (z : BitVec 7) :
    Host.Outcome State Fault Refusal :=
  s.issue sm fun s => do
    let _ ← threadOnly s
    noTx s
    let p ← s.rdPair a
    let q ← s.rdPair b
    let n := q.2.toNat
    let z := z.toNat + 1
    let sizeOk : Bool := match k with
      | .xsctadd f => z == 4 || (z == 8 && !f)
      | _ => true
    let m := n * if w then 8 else 4
    checkAll (ownOperand s.cur p.1.toNat (n * z) 8 false ++ ownOperand s.cur p.2.toNat m 8 false
      ++ s.baseFaults q.1.toNat ++ extentsOverlap p.1.toNat (n * z) p.2.toNat m
      ++ if 1 ≤ n ∧ n ≤ 65536 ∧ sizeOk then [] else [flt cSHP 0x22])
    s.submitGather d k p.1 p.2 q.1 n z w

def execXgat (sm : Bool) (d a b : Fin 16) (w : Bool) (z : BitVec 7) (s : State) : Host.Outcome State Fault Refusal :=
  s.gather sm .xgat d a b w z
def execXsct (sm : Bool) (d a b : Fin 16) (w : Bool) (z : BitVec 7) (s : State) : Host.Outcome State Fault Refusal :=
  s.gather sm .xsct d a b w z
def execXsctadd (sm : Bool) (d a b : Fin 16) (w f : Bool) (z : BitVec 7) (s : State) :
    Host.Outcome State Fault Refusal := s.gather sm (.xsctadd f) d a b w z

/-! ## Elements (R285, R286, R350) -/

/-- An element fails: the lowest failing element is kept, and no further ones are begun. -/
def Async.fails (a : Async) (i : Nat) (f : Flt) : Async :=
  let first := match a.flt with
    | some g => decide (i < g.detail)
    | none => true
  { a with flt := if first then some { f with detail := i } else a.flt, todo := i :: a.todo }

/-- The cluster of a job's issuer. -/
def Async.cluster (a : Async) : Fin 96 := (clusterOfAgent a.actor.agent).getD 0

/-- What an element reads in the scratchpad: its index, and for a scatter its bytes (address and length). -/
def Async.elemReads (a : Async) (i : Nat) : List (Nat × Nat) :=
  let iw := if a.wide then 8 else 4
  (a.list.toNat + i * iw, iw) :: match a.kind with
    | .xgat => []
    | _ => [(a.side.toNat + i * a.size, a.size)]

/-- The address of an element, or the fault that its address raises. -/
def Async.elemAddr (a : Async) (idx : Nat) : Except Flt Nat :=
  let ea := (a.base + idx * a.size) % 2 ^ 64
  let inSpace := if a.base < 2 ^ 56 then decide (ea + a.size ≤ 2 ^ 56) else ea / 2 ^ 40 == a.base / 2 ^ 40
  if !inSpace then .error (fltAt cADR 0 ea)
  else match a.kind with
    | .xsctadd _ => if ea % a.size = 0 then .ok ea else .error (fltAt cALN 0 ea)
    | _ => .ok ea

/-- Begin an element: read its index and bytes, and send the request. -/
def State.beginElem (s : State) (x : Sec) (a : Async) (i : Nat) : State :=
  let cl := a.cluster
  let s := s.startAsync x a
  match a.elemReads i |>.find? fun r => s.spadBad x cl (spadOff r.1) r.2 with
  | some r => s.modAsync x a.id fun a => a.fails i (fltAt cMCE 1 r.1)
  | none =>
    let iw := if a.wide then 8 else 4
    let idx := leNat (s.spadBytes x cl (spadOff (a.list.toNat + i * iw)) iw)
    match a.elemAddr idx with
    | .error f => s.modAsync x a.id fun a => a.fails i f
    | .ok ea =>
      let bs := s.spadBytes x cl (spadOff (a.side.toNat + i * a.size)) a.size
      let r : BankReq :=
        { id := 0, sec := x, cl := cl, actor := a.actor, copy := false, cmd := a.id, elem := i, ea := ea, len := a.size
          op := match a.kind with
            | .xgat => .read
            | .xsctadd f => .add f
            | _ => .write
          data := if a.kind = .xgat then [] else bs, spans := [], back := false }
      s.request r

/-- A gather or scatter goes on: its next element begins once the scratchpad can be read, and when no element is left
or outstanding the job ends. -/
def execXgComplete (x : Sec) (id : Nat) (s : State) : Host.Outcome State Fault Refusal :=
  event (match s.async x id with
    | none => s
    | some a =>
      let open_ := s.bankq.any fun b => !b.copy && b.cmd == id
      match a.flt, a.todo with
      | none, i :: rest =>
        if !s.earlierDone a.actor then s
        else if (a.elemReads i).any fun r => s.belowMark x a.cluster (spadOff r.1) r.2 then s
        else
          let s := s.modAsync x id fun a => { a with todo := rest }
          (s.beginElem x { a with todo := rest } i).post (.xgComplete x id)
      | f, _ =>
        if open_ then s
        else (s.dropAsync x id).endJob x a.actor 1 0 f)

/-- An element lies in leases: as a whole where it is one access, byte by byte otherwise (R285, R347). -/
def State.elemLease (s : State) (a : Actor) (va n : Nat) : Except Flt Unit :=
  if (n = 1 ∨ n = 2 ∨ n = 4 ∨ n = 8) ∧ va % n = 0 then s.actLease a va n
  else match firstSome (fun i => match s.actLease a (va + i) 1 with
      | .error f => some f
      | .ok _ => none) (List.range n) with
    | some f => .error f
    | none => .ok ()

/-- Part of a line is read at its bank where the LLC holds the line, and from its frame without allocation otherwise
(R350). DESIGN CHOICE (log entry 121): the access tags of a line that is handled in its frame stand with the line's
marks, without an entry of the spill store until the line has been held and evicted (R333). -/
def State.dieRead (s : State) (x : Sec) (asid : BitVec 16) (va n : Nat) (a : Acc) : Except HomeErr (List Byte × State) :=
  match s.line (lineKey x asid va) with
  | some _ => s.readChunk x asid va n a
  | none => match s.translate x asid va with
    | .error e => .error e
    | .ok (t, s) =>
      if !a.permits t.perm then .error (.page subPerm)
      else match s.raceCheck x asid va n a with
        | none => .error .race
        | some s => if s.poisoned x (t.addr va) then .error (.mce 3) else .ok (s.readPhys x (t.addr va) n, s)

/-- Bytes of an absent line are replaced in its frame. -/
def State.diePut (s : State) (x : Sec) (asid : BitVec 16) (va pa : Nat) (bs : List Byte) : State :=
  let old := s.readPhys x pa bs.length
  let s := ((s.dropCopies (lineKey x asid va)).writeFrame x pa bs).logOld x asid va old
  if old = bs then s else s.wakeRange x asid va bs.length

/-- The same for a write of part of a line. -/
def State.dieWrite (s : State) (x : Sec) (asid : BitVec 16) (va : Nat) (bs : List Byte) (a : Acc) :
    Except HomeErr State :=
  match s.line (lineKey x asid va) with
  | some _ => s.writeChunk x asid va bs a
  | none => match s.translate x asid va with
    | .error e => .error e
    | .ok (t, s) =>
      if !a.permits t.perm then .error (.page subPerm)
      else if (s.sealAt x asid va).isSome then .error .seal
      else match s.raceCheck x asid va bs.length a with
        | none => .error .race
        | some s => .ok (s.diePut x asid va (t.addr va) bs)

/-- The same for an added element. -/
def State.dieUpdate (s : State) (x : Sec) (asid : BitVec 16) (va n : Nat) (a : Acc) (f : Nat → Nat) :
    Except HomeErr State :=
  match s.line (lineKey x asid va) with
  | some _ => (s.updateHome x asid va n a f).map (·.2)
  | none => match s.translate x asid va with
    | .error e => .error e
    | .ok (t, s) =>
      if !a.permits t.perm then .error (.page subPerm)
      else if (s.sealAt x asid va).isSome then .error .seal
      else if s.poisoned x (t.addr va) then .error (.mce 3)
      else .ok (s.diePut x asid va (t.addr va) (leBytes n (f (leNat (s.readPhys x (t.addr va) n)))))

/-- The pieces of a range that lie in one line each, read and written. -/
def State.dieReadAll (s : State) (x : Sec) (asid : BitVec 16) (a : Acc) :
    List (Nat × Nat) → Except (HomeErr × Nat) (List Byte × State)
  | [] => .ok ([], s)
  | c :: cs => match s.dieRead x asid c.1 c.2 a with
    | .error e => .error (e, c.1)
    | .ok (bs, t) => match t.dieReadAll x asid a cs with
      | .error e => .error e
      | .ok r => .ok (bs ++ r.1, r.2)
def State.dieWriteAll (s : State) (x : Sec) (asid : BitVec 16) (a : Acc) :
    List (Nat × List Byte) → Except (HomeErr × Nat) State
  | [] => .ok s
  | c :: cs => match s.dieWrite x asid c.1 c.2 a with
    | .error e => .error (e, c.1)
    | .ok t => t.dieWriteAll x asid a cs

/-- An element of a request at the home that holds it: its bytes and the state, or the failure and where. -/
def State.serveAt (s : State) (b : BankReq) (x : Sec) (asid : BitVec 16) (va : Nat) :
    Except (HomeErr × Nat) (List Byte × State) :=
  match b.op with
  | .read => (s.conflictRange x asid va b.len false).dieReadAll x asid (s.actAcc b.actor .read true) (chunks va b.len)
  | .add f =>
    let x0 := leNat b.data
    let upd := fun (old : Nat) => if f then bankFadd old x0 else (old + x0) % 2 ^ (8 * b.len)
    match (s.conflictRange x asid va b.len true).dieUpdate x asid va b.len (s.actAcc b.actor .atomic false) upd with
    | .ok s => .ok ([], s)
    | .error e => .error (e, va)
  | _ =>
    match (s.conflictRange x asid va b.len true).dieWriteAll x asid (s.actAcc b.actor .write true)
      ((chunks va b.len).map fun c => (c.1, slice b.data (c.1 - va) c.2)) with
    | .ok t => .ok ([], t)
    | .error e => .error e

/-- The kind of access of a request. -/
def BankReq.kind (b : BankReq) : AccKind :=
  match b.op with
  | .read => .read
  | .add _ => .atomic
  | _ => .write

/-- Serve an element: with its lease, at its home or behind the peer window (R286). -/
def State.elemResult (s : State) (b : BankReq) : Except Flt (List Byte × State) :=
  match placeOf b.actor.agent b.ea b.len with
  | .ok (.app va) => match s.elemLease b.actor va b.len with
    | .error f => .error f
    | .ok _ => match s.serveAt b b.sec b.actor.asid va with
      | .ok r => .ok r
      | .error (e, at_) => .error (homeFlt false b.kind e at_)
  | .ok (.peer slot off) => match s.peerCheck b.sec slot off b.len b.kind with
    | .error sub => .error (fltAt cPEER sub b.ea)
    | .ok (y, asid, va) => match s.serveAt b y asid va with
      | .ok r => .ok r
      | .error (e, at_) => .error (peerErr false b.kind e (b.ea + (at_ - va)))
  | .ok _ => .error (fltAt cADR 0 b.ea)
  | .error f => .error f

/-- Serve a request of a gather or scatter. -/
def State.serveElem (s : State) (b : BankReq) : State :=
  let drop := fun (s : State) => { s with bankq := s.bankq.filter fun e => e.id != b.id }
  match s.async b.sec b.cmd with
  | none => drop s
  | some _ => match s.elemResult b with
    | .error f =>
      if f.waits then s.serveAgain b
      else (((drop s).peerNotice b.sec f).modAsync b.sec b.cmd fun a => a.fails b.elem f).post (.xgComplete b.sec b.cmd)
    | .ok (bs, t) =>
      if b.op = .read then (drop t).request { b with data := bs, back := true }
      else (drop t).post (.xgComplete b.sec b.cmd)

/-! ## Requests at their homes -/

/-- The request goes over a peer window. -/
def BankReq.far (b : BankReq) : Bool := decide (0xFE00000000000000 ≤ b.ea)

/-- A request of a unit fails without having been performed. -/
def State.failReq (s : State) (b : BankReq) (f : Flt) : State :=
  let t := { s with bankq := s.bankq.filter fun e => e.id != b.id }
  if b.copy then t.flitDone b b.len (some f)
  else (t.modAsync b.sec b.cmd fun a => a.fails b.elem f).post (.xgComplete b.sec b.cmd)

/-- Serve a request that waits. What a home no longer takes from another sector is discarded there (R421). -/
def State.serve (s : State) (id : Nat) (p : BankReq → Bool) : State :=
  match s.bankq.find? fun b => b.id == id with
  | none => s
  | some b =>
    if b.back || !p b then s
    else if b.far && !s.bridgeTakes b.sec (s.peerHome b.sec b.ea).1 then s.failReq b (fltAt cPEER peerReset b.ea)
    else if b.copy then s.serveCopy b else s.serveElem b

/-- A read is served at its home bank (R309). -/
def execBankRead (id : Nat) (s : State) : Host.Outcome State Fault Refusal :=
  event (s.serve id fun b => !b.far && b.op == .read)

/-- A write is accepted at its home bank (R309). -/
def execBankWrite (id : Nat) (s : State) : Host.Outcome State Fault Refusal :=
  event (s.serve id fun b => !b.far && (b.op == .write || b.op == .record))

/-- An element is added at its home bank (R332). -/
def execBankAtomic (id : Nat) (s : State) : Host.Outcome State Fault Refusal :=
  event (s.serve id fun b => !b.far && match b.op with
    | .add _ => true
    | _ => false)

/-- A request is checked at the exporting home and performed there (R357). -/
def execPeerRequest (id : Nat) (s : State) : Host.Outcome State Fault Refusal :=
  event (s.serve id (·.far))

/-! ## Bytes that come back (R279) -/

/-- An element of a gather that still has to come touches a word. -/
def State.wordOpen (s : State) (a : Async) (off : Nat) : Bool :=
  let base := spadOff a.side.toNat
  let touches := fun (i : Nat) => decide (base + i * a.size < off + 8) && decide (off < base + (i + 1) * a.size)
  a.todo.any touches || s.bankq.any fun b => !b.copy && b.cmd == a.id && touches b.elem

/-- Mark the words of a range that a gather has written to the last byte. -/
def State.markGathered (s : State) (x : Sec) (cl : Fin 96) (a : Async) (off n : Nat) : State :=
  (wordsOf off n).foldl (fun s o => if s.wordOpen a o then s else s.markArrival x cl o 8) s

/-- A flit or gathered element lands in the scratchpad: bytes, full bits, arrival marks (R275, R279). -/
def execScratchpadFlitArrive (x : Sec) (cl : Fin 96) (id : Nat) (s : State) : Host.Outcome State Fault Refusal :=
  event (match s.bankq.find? fun b => b.id == id && b.back && b.sec == x && b.cl == cl with
    | none => s
    | some b =>
      let t := { s with bankq := s.bankq.filter fun e => e.id != id }
      if b.copy then
        let off := spadOff b.ea
        ((t.spadWrite x cl off b.data).markArrival x cl off b.data.length).flitDone b b.data.length none
      else match t.async x b.cmd with
        | none => t
        | some a =>
          let off := spadOff (a.side.toNat + b.elem * a.size)
          ((t.spadWrite x cl off b.data).markGathered x cl a off b.data.length).post (.xgComplete x b.cmd))

end Sys2Proof.Machine
end

