-- ==== Sys2Proof/Machine/Lease.lean ====
section
/-! DEFINITION. Leases, prefetch, write-back and page migration (R287 to R292, R349, R352, R353). -/

namespace Sys2Proof.Machine

/-! ## Ranges at issue (R287) -/

/-- The faults of a range: alignment and a length that is not zero, and the space. -/
def rangeFaults (g : Agent) (base len align : Nat) (peer : Bool) : List Flt :=
  (match placeOf g base (max len 1) with
  | .ok (.app _) => []
  | .ok (.peer _ _) => if peer then [] else [fltAt cADR 0 base]
  | .ok _ => [fltAt cADR 0 base]
  | .error f => [f]) ++ if base % align = 0 ∧ len % align = 0 ∧ len ≠ 0 then [] else [fltAt cALN 0 base]

/-- Read the range of an LSE form and check it. -/
def State.rdRange (s : State) (a : Fin 16) (align : Nat) (peer : Bool) : Except Stop (Nat × Nat) := do
  let p ← s.rdPair a
  checkAll (rangeFaults s.cur p.1.toNat p.2.toNat align peer)
  .ok (p.1.toNat, p.2.toNat)

/-- A form that makes a job over a range. -/
def State.rangeJob (s : State) (sm : Bool) (k : AsyncKind) (d a : Fin 16) (align : Nat) (peer : Bool) :
    Host.Outcome State Fault Refusal :=
  s.issue sm fun s => do
    noTx s
    let p ← s.rdRange a align peer
    let s ← s.jobRoom
    let r := s.newAsync k p.1 p.2
    done ((r.2.2.post (.jobComplete (secOf s.cur) r.1)).wrS d (word r.2.1.job))

def execLease (sm : Bool) (d a : Fin 16) (s : State) : Host.Outcome State Fault Refusal :=
  s.rangeJob sm .lease d a 65536 false
def execLlcwb (sm : Bool) (d a : Fin 16) (s : State) : Host.Outcome State Fault Refusal :=
  s.rangeJob sm .llcwb d a 128 true

/-- `pmig`: the groups of the range, in ascending order. -/
def execPmig (sm : Bool) (d a : Fin 16) (x : Bool) (s : State) : Host.Outcome State Fault Refusal :=
  s.issue sm fun s => do
    noTx s
    let p ← s.rdRange a 0x200000 false
    let s ← s.jobRoom
    let r := s.newAsync (.pmig x) p.1 p.2
    let t := r.2.2.modAsync (secOf s.cur) r.1 fun q =>
      { q with todo := (List.range (p.2 / 0x200000)).map fun i => p.1 + i * 0x200000 }
    done ((t.post (.jobComplete (secOf s.cur) r.1)).wrS d (word r.2.1.job))

/-! ## unlease and pf (R289, R290) -/

/-- The master lease set of an address space (R288). -/
def State.masterLeases (s : State) (x : Sec) (asid : BitVec 16) : List (Nat × Nat) :=
  Sparse.get [] (s.sec x).masterLeases asid.toNat

/-- The lease set that an agent's forms act on. -/
def State.leaseSet (s : State) (g : Agent) : List (Nat × Nat) :=
  match g with
  | .master x _ => s.masterLeases x (s.asidOf g)
  | .thread _ _ => match s.instOf g with
    | some i => i.leases
    | none => []

/-- Replace it. -/
def State.setLeases (s : State) (g : Agent) (ls : List (Nat × Nat)) : State :=
  match g with
  | .master x _ =>
    s.modSec x fun c => { c with masterLeases := Sparse.put [] c.masterLeases (s.asidOf g).toNat ls }
  | .thread x _ => match s.instOf g with
    | some i => s.modInst x i.uid fun i => { i with leases := ls }
    | none => s

def execUnlease (sm : Bool) (d a : Fin 16) (s : State) : Host.Outcome State Fault Refusal :=
  s.issue sm fun s => do
    noTx s
    let p ← s.rdRange a 65536 false
    s.released true
    let ls := s.leaseSet s.cur
    if ls.contains p then done ((s.setLeases s.cur (ls.erase p)).wrS d 0) else done (s.wrS d 1)

/-- Bring a line of the range into the LLC; a line that cannot be brought is skipped (R290). -/
def State.prefetch (s : State) (x : Sec) (asid : BitVec 16) (va : Nat) (app : Bool) : State :=
  match s.locate x asid va { kind := .read, app := app, nc := false, race := none } false with
  | .ok (_, t) => t
  | .error _ => s

/-- The lines of a range, one after the other. -/
def State.prefetchAll (s : State) (f : State → Nat → State) (base : Nat) : Nat → State
  | 0 => s
  | n + 1 => (f s base).prefetchAll f (base + 128) n

def execPf (sm : Bool) (a : Fin 16) (s : State) : Host.Outcome State Fault Refusal :=
  s.issue sm fun s => do
    noTx s
    let p ← s.rdRange a 128 true
    let x := secOf s.cur
    let g := s.cur
    let app := !s.sysLevel g
    match placeOf g p.1 1 with
    | .ok (.peer slot off) => match s.peerCheck x slot off p.2 .read with
      | .ok (y, asid, va) => done (s.prefetchAll (fun t v => t.prefetch y asid v app) va (p.2 / 128))
      | .error _ => done s
    | _ =>
      let asid := s.asidOf g
      let line := fun (t : State) (v : Nat) => match t.leaseCheck g v 128 with
        | .ok _ => t.prefetch x asid v app
        | .error _ => t
      done (s.prefetchAll line p.1 (p.2 / 128))

/-! ## Jobs over ranges (R288, R291) -/

/-- The first page of a range that has no valid leaf, from page `k` on, and what its walk met. -/
def State.firstGap (s : State) (x : Sec) (asid : BitVec 16) (base : Nat) : Nat → Nat → Option (Nat × HomeErr)
  | 0, _ => none
  | fuel + 1, k => match s.walk x asid (base + k * 65536) with
    | .ok _ => s.firstGap x asid base fuel (k + 1)
    | .error e => some (k, e)

/-- Add an entry to the set of a job's issuer: its instance, or its address space. -/
def State.addLease (s : State) (x : Sec) (a : Actor) (e : Nat × Nat) : State :=
  match a.vt with
  | some v => s.modInst x v.uid fun i => if i.final.isSome then i else { i with leases := i.leases ++ [e] }
  | none => s.modSec x fun c =>
      { c with masterLeases := Sparse.put [] c.masterLeases a.asid.toNat (s.masterLeases x a.asid ++ [e]) }

/-- How many entries the set holds. -/
def State.leaseCount (s : State) (x : Sec) (a : Actor) : Nat :=
  match a.vt with
  | some v => match s.inst x v.uid with
    | some i => i.leases.length
    | none => 0
  | none => (s.masterLeases x a.asid).length

/-- `lease` pins the pages in ascending order; the first that is not resident ends it PARTIAL (R288), and a walk that
meets an error ends it with MCE (R277, R408). -/
def State.leaseJob (s : State) (x : Sec) (j : Async) : State :=
  let a := j.actor
  if 4096 ≤ s.leaseCount x a then s.endJob x a 1 0 (some (flt cSHP 0x2A))
  else match s.firstGap x a.asid j.base (j.len / 65536) 0 with
    | none => (s.addLease x a (j.base, j.len)).endJob x a 1 0 none
    | some (k, e) =>
      let resume := k * 65536
      let f := homeFlt (isMaster a.agent) .read e (j.base + resume)
      if f.cause = cMCE then s.endJob x a 1 0 (some f)
      else
      let s := if resume = 0 then s else s.addLease x a (j.base, resume)
      (s.remainder x a f resume (j.len - resume) j.pc j.instr).endJob x a 2 resume none

/-- Write a dirty line back, which stays and becomes clean; one without a valid mapping is lost, and one that the device
does not take stays dirty (R291, R330, R409). -/
def State.cleanLine (s : State) (k : Nat) : State :=
  match s.line k with
  | none => s
  | some l =>
    if !l.dirty then s
    else match s.writeBack k l true with
      | (s, .written) => s.setLine k (some { l with dirty := false })
      | (s, .lost) => (s.setLine k none).spillMarks k
      | (s, .failed) => s

/-- The lines that the LLC holds of a range. -/
def State.linesOf (s : State) (x : Sec) (asid : BitVec 16) (va n : Nat) : List Nat :=
  (s.llc.filter fun e => decide (lineKey x asid va ≤ e.1) && decide (e.1 < lineKey x asid va + (n + 127) / 128)).map
    (·.1)

/-- Clean the lines of a range; the first that stays dirty because its device failed (R409). -/
def State.cleanRange (s : State) (x : Sec) (asid : BitVec 16) (va n : Nat) : State × Option Nat :=
  let ks := s.linesOf x asid va n
  let t := ks.foldl State.cleanLine s
  (t, (ks.find? fun k => (t.line k).any (·.dirty)).map lineVa)

/-- `llcwb` (R291): at the own sector, or at the exporter of a peer window. A write that the device does not take ends
the job with MCE (R409; log entry 116). -/
def State.llcwbJob (s : State) (x : Sec) (j : Async) : State :=
  let a := j.actor
  let finish := fun (r : State × Option Nat) (va : Nat) =>
    r.1.endJob x a 1 0 (r.2.map fun v => fltAt cMCE 1 (j.base + (v - va)))
  match placeOf a.agent j.base 1 with
  | .ok (.peer slot off) => match s.peerCheck x slot off j.len .read with
    | .ok (y, asid, va) => finish (s.cleanRange y asid va j.len) va
    | .error sub => s.endJob x a 1 0 (some (fltAt cPEER sub j.base))
  | _ => finish (s.cleanRange x a.asid j.base j.len) j.base

/-! ## Page migration (R292, R349, R352, R353) -/

/-- The address of the level-3 table entry of a page, if the walk reaches a level-3 table. -/
def State.leafEntryAddr (s : State) (x : Sec) (asid : BitVec 16) (va : Nat) : Option Nat :=
  let r := Sparse.get (Root.reset asid.toNat) (s.sec x).roots asid.toNat
  let next := fun (e : Except HomeErr Nat) => match e with
    | .ok e => if pteKind e = 1 ∧ !pteRes0 e then some (ptePa e) else none
    | .error _ => none
  if !r.v then none
  else match next (s.pte x r.root (va / 2 ^ 55 % 2)) with
    | none => none
    | some t1 => match next (s.pte x t1 (va / 2 ^ 42 % 2 ^ 13)) with
      | none => none
      | some t2 => match next (s.pte x t2 (va / 2 ^ 29 % 2 ^ 13)) with
        | none => none
        | some t3 => some (t3 + 8 * (va / 2 ^ 16 % 2 ^ 13))

/-- A lease set covers a page of a range (R349). -/
def State.leased (s : State) (x : Sec) (asid : BitVec 16) (va n : Nat) : Bool :=
  let hits := fun (ls : List (Nat × Nat)) => ls.any fun e => decide (e.1 < va + n) && decide (va < e.1 + e.2)
  (s.sec x).insts.any (fun i => i.asid == asid && (i.phase == .ready || i.phase == .drained) && hits i.leases)
    || hits (s.masterLeases x asid)

/-- The entries of a group and the frame that its pages form, if the group may be migrated by `pmig` (R352). -/
def State.groupOf (s : State) (x : Sec) (asid : BitVec 16) (va : Nat) : Option (Nat × Nat) :=
  match s.leafEntryAddr x asid va with
  | none => none
  | some at_ =>
    let es := (List.range 32).map fun i => leNat (s.readPhys x (at_ + 8 * i) 8)
    let frame := ptePa (es.headD 0)
    let bits := fun (e : Nat) => e - ptePa e
    let ok := (es.zipIdx).all fun e =>
      pteKind e.1 == 2 && (leafOf e.1 (va + e.2 * 65536) false).isOk && pteBit e.1 7 && pteBit e.1 8
        && ptePa e.1 == frame + e.2 * 65536 && bits e.1 == bits (es.headD 0)
    if ok ∧ frame % 0x200000 = 0 ∧ !s.poisoned x at_ ∧ !s.poisoned x (at_ + 128) then some (at_, frame) else none

/-- A group that the engine would move now: its entries and frame (R292, R353). -/
def State.movable (s : State) (x : Sec) (asid : BitVec 16) (va : Nat) (far : Bool) : Option (Nat × Nat) :=
  let c := s.sec x
  match s.groupOf x asid va with
  | none => none
  | some (at_, frame) =>
    let here := physKind frame 0x200000
    let target := if far then c.fpool else c.npool
    let source := if far then c.npool else c.fpool
    if s.leased x asid va 0x200000 ∨ here = .control ∨ here = .none ∨ (here = .far) = (far = true) then none
    else if target.isEmpty ∨ 1024 ≤ source.length then none
    else some (at_, frame)

/-- Bytes of a frame copied to another. -/
def copyFrame (m : Sparse Byte) (src dst n : Nat) : Sparse Byte :=
  let moved := (m.filter fun e => decide (src ≤ e.1) && decide (e.1 < src + n)).map fun e => (e.1 - src + dst, e.2)
  (m.filter fun e => decide (e.1 < dst)) ++ moved ++ m.filter fun e => decide (dst + n ≤ e.1)

/-- The poisoned lines after a frame has been copied. -/
def movePoison (ps : List Nat) (src dst n : Nat) : List Nat :=
  let lo := src / 128
  let at_ := dst / 128
  let k := n / 128
  (ps.filter fun p => !(decide (at_ ≤ p) && decide (p < at_ + k)))
    ++ (ps.filter fun p => decide (lo ≤ p) && decide (p < lo + k)).map fun p => p - lo + at_

/-- The new frame's address in an entry. -/
def ptePoint (e pa : Nat) : Nat := e - ptePa e + pa

/-- Move a group (R353): the frame is copied, the entries and the TLBs name the new frame, the old one goes to the pool,
and a sealed group stays sealed. -/
def State.moveGroup (s : State) (x : Sec) (asid : BitVec 16) (va at_ frame : Nat) (far : Bool) : State :=
  let c := s.sec x
  let dst := poolTop (if far then c.fpool else c.npool)
  let s := { s with mem := copyFrame s.mem (memKey x frame) (memKey x dst) 0x200000 }
  let s := (List.range 32).foldl (fun s i =>
    let e := leNat (s.readPhys x (at_ + 8 * i) 8)
    s.writePhys x (at_ + 8 * i) (leBytes 8 (ptePoint e (dst + i * 65536)))) s
  let page := fun (k : Nat) => decide (pageKey asid va ≤ k) && decide (k < pageKey asid va + 32)
  s.modSec x fun c =>
    { c with
      npool := if far then poolPush c.npool frame else c.npool.tail
      fpool := if far then c.fpool.tail else poolPush c.fpool frame
      tlb := c.tlb.map fun e => if page e.1 then
          (e.1, e.2.map fun t => { t with pa := dst + (e.1 - pageKey asid va) * 65536 }) else e
      poison := movePoison c.poison frame dst 0x200000
      seals := c.seals.map fun r =>
        if r.asid = asid then { r with frames := r.frames.map fun f =>
          if va ≤ f.1 ∧ f.1 < va + 0x200000 then (f.1, dst + (f.1 - va)) else f }
        else r }

/-- The engine moves one group for the oldest job whose next group it is, or skips it; another job over the group finds
it moved (R292). -/
def execMigrationGroupMove (x : Sec) (asid : BitVec 16) (va : Word) (far : Bool) (s : State) :
    Host.Outcome State Fault Refusal :=
  let mine := fun (a : Async) => a.kind = .pmig far && a.actor.asid == asid && a.todo.head? == some va.toNat
  event (
    match (s.sec x).asyncs.filter mine with
    | [] => s
    | a :: rest =>
      let r := match s.movable x asid va.toNat far with
        | some (at_, frame) => (s.moveGroup x asid va.toNat at_ frame far, 1)
        | none => (s, 0)
      let t := (r.1.modAsync x a.id fun a => { a with todo := a.todo.tail, count := a.count + r.2 }).post (.jobComplete x a.id)
      if rest.isEmpty then t else t.post (.migrationGroupMove x asid va far))

/-- `pmig` goes on with its next group, or ends with the number of groups moved. -/
def State.pmigJob (s : State) (x : Sec) (j : Async) (far : Bool) : State :=
  match j.todo with
  | va :: _ => s.post (.migrationGroupMove x j.actor.asid (word va) far)
  | [] => (s.dropAsync x j.id).endJob x j.actor 1 j.count none

end Sys2Proof.Machine
end

