-- ==== Sys2Proof/Machine/Net.lean ====
section
/-! DEFINITION. The network engines (R293, R294, R431 to R434), and the end of the jobs of Stratus (R267). -/

namespace Sys2Proof.Machine

/-! ## The network table (R432) -/

/-- Load the table from memory. -/
def State.loadNet (s : State) (x : Sec) : State :=
  match (s.sec x).netBase with
  | none => s
  | some b =>
    let lo := memKey x b
    let t := (s.mem.filter fun e => decide (lo ≤ e.1) && decide (e.1 < lo + 0xA0000)).map fun e => (e.1 - lo, e.2)
    s.modSec x fun c => { c with netTable := t }

/-- A number of `n` bytes of the table. -/
def State.netNat (s : State) (x : Sec) (off n : Nat) : Nat := leNat (Sparse.dense 0 (s.sec x).netTable off n)

/-- The first word of a queue's or region's entry: ASID and VALID. -/
def entryBound (w : Nat) (asid : BitVec 16) : Bool := w % 65536 == asid.toNat && w / 2 ^ 16 == 1

/-- A send queue is bound to an address space (R432). -/
def State.sendBound (s : State) (x : Sec) (q : Nat) (asid : BitVec 16) : Bool :=
  let e := q * 64
  (s.sec x).netBase.isSome && decide (q < 4096) && entryBound (s.netNat x e 8) asid
    && s.netNat x (e + 14) 2 == 0 && s.netNat x (e + 38) 2 == 0 && s.netNat x (e + 40) 24 == 0

/-- A receive queue (R432). -/
structure RxQueue where
  asid : BitVec 16
  buffers : Nat
  size : Nat
  count : Nat
  ring : Nat
  entries : Nat
  deriving DecidableEq, Repr

/-- The entry of a receive queue, if it is valid and has no reserved bit set. -/
def State.rxQueue (s : State) (x : Sec) (q : Nat) : Option RxQueue :=
  let e := 0x40000 + q * 64
  let w := s.netNat x e 8
  if (s.sec x).netBase.isSome ∧ q < 4096 ∧ w / 2 ^ 16 = 1 ∧ s.netNat x (e + 36) 4 = 0 ∧ s.netNat x (e + 40) 24 = 0 then
    some { asid := BitVec.ofNat 16 w, buffers := s.netNat x (e + 8) 8, size := s.netNat x (e + 16) 4
           count := s.netNat x (e + 20) 4, ring := s.netNat x (e + 24) 8, entries := s.netNat x (e + 32) 4 }
  else none

/-! ## nsend (R293) -/

/-- The faults of a descriptor's fields. -/
def descFaults (bs : List Byte) : List Flt :=
  let f := fun (o k : Nat) => leNat (slice bs o k)
  (if f 0 1 ≤ 2 ∧ f 1 1 ≤ 1 ∧ f 4 4 = 0 ∧ 1 ≤ f 16 8 ∧ f 16 8 ≤ 2 ^ 31 ∧ f 36 4 = 0 ∧ f 40 24 = 0 then []
    else [flt cSHP 0x22])
  ++ if f 8 8 + f 16 8 ≤ 2 ^ 56 then [] else [fltAt cADR 0 (f 8 8)]

def execNsend (sm : Bool) (d a : Fin 16) (s : State) : Host.Outcome State Fault Refusal :=
  s.issue sm fun s => do
    noTx s
    let ea ← s.rdS a
    s.released true
    let r ← s.load ea 64 true
    let s := r.2
    let f := fun (o k : Nat) => leNat (slice r.1 o k)
    let x := secOf s.cur
    checkAll (descFaults r.1 ++ if s.sendBound x (f 2 2) (s.asidOf s.cur) then [] else [flt cSHP 0x2B])
    let s ← s.jobRoom
    let q := s.newAsync (.nsend (f 0 1) (f 1 1) (f 2 2) (f 24 8) (f 32 4)) (f 8 8) (f 16 8)
    done ((q.2.2.post (.jobComplete x q.1)).wrS d (word q.2.1.job))

/-- Load `n` bytes for a transfer, at most a word at a time: the state, and the first failure. -/
def State.netLoads (s : State) (a : Actor) : Nat → Nat → Nat → State × Option Flt
  | 0, _, _ => (s, none)
  | fuel + 1, va, n =>
    let k := min n (8 - va % 8)
    if n = 0 then (s, none)
    else match s.actRead a va k true with
      | .error f => (s, some f)
      | .ok r => r.2.netLoads a fuel (va + k) (n - k)

/-- Store bytes of a transfer, at most a word at a time. -/
def State.netStores (s : State) (a : Actor) : Nat → Nat → List Byte → State × Option Flt
  | 0, _, _ => (s, none)
  | fuel + 1, va, bs =>
    let k := min bs.length (8 - va % 8)
    if bs.isEmpty then (s, none)
    else match s.actWrite a va (bs.take k) true with
      | .error f => (s, some f)
      | .ok t => t.netStores a fuel (va + k) (bs.drop k)

/-- The end of a transfer (R268, R293): a failure at the local side is the job's fault, and on a master core a page
that is not resident is handed back; then the other side's answer, which is a free value (log entry 21). -/
def State.netEnd (s : State) (x : Sec) (j : Async) (f : Option Flt) : State :=
  let a := j.actor
  match f with
  | some f =>
    if f.cause = cPGF ∧ f.sub = subNomap then
      let page := max j.base (f.addr.toNat / 65536 * 65536)
      let resume := page - j.base
      (s.remainder x a { f with addr := word page } resume (j.len - resume) j.pc j.instr).endJob x a 2 resume none
    else s.endJob x a 1 0 (some f)
  | none => s.endJob x a 1 0 none

/-- The local bytes of a transfer have been read or written; where an access waits for a way of an LLC set (R331), the
transfer is tried again from `s`. -/
def State.netMoved (s : State) (x : Sec) (j : Async) (r : State × Option Flt) (fin : State → State) : State :=
  match r.2 with
  | some f => if f.waits then s.post (.jobComplete x j.id) else (r.1.dropAsync x j.id).netEnd x j (some f)
  | none => fin (r.1.dropAsync x j.id)

/-- The transfer of a descriptor. -/
def State.netJob (s : State) (x : Sec) (j : Async) (op : Nat) : State :=
  let a := j.actor
  match Config.netReply s.freeCtr with
  | some syndrome =>
    let t := { s with freeCtr := s.freeCtr + 1 }
    let refused := fun (t : State) => t.endJob x a 5 syndrome.toNat none
    if op = 2 then refused (t.dropAsync x j.id)
    else s.netMoved x j (t.netLoads a j.len j.base j.len) refused
  | none =>
    if op = 2 then
      let bs := (List.range j.len).map fun i => Config.netByte (s.freeCtr + 1 + i)
      s.netMoved x j ({ s with freeCtr := s.freeCtr + 1 + j.len }.netStores a j.len j.base bs) fun t => t.netEnd x j none
    else
      s.netMoved x j ({ s with freeCtr := s.freeCtr + 1 }.netLoads a j.len j.base j.len) fun t => t.netEnd x j none

/-- A job of Stratus or of a network engine ends (R267, R288, R291, R292, R293). -/
def execJobComplete (x : Sec) (id : Nat) (s : State) : Host.Outcome State Fault Refusal :=
  event (match s.async x id with
    | none => s
    | some j =>
      if !s.earlierDone j.actor then s
      else
        let s := s.startAsync x j
        match j.kind with
        | .lease => (s.dropAsync x id).leaseJob x j
        | .llcwb => (s.dropAsync x id).llcwbJob x j
        | .pmig far => s.pmigJob x j far
        | .nsend op _ _ _ _ => s.netJob x j op
        | .xgat | .xsct | .xsctadd _ => s.post (.xgComplete x id))

/-- The receiver of a SEND had no buffer: the sender tries again (R434). -/
def execReceiverNotReadyNak (x : Sec) (id : Nat) (s : State) : Host.Outcome State Fault Refusal :=
  event (match s.async x id with
    | some j => match j.kind with
      | .nsend 0 _ _ _ _ => s.post (.jobComplete x id)
      | _ => s
    | none => s)

/-! ## npoll (R294) -/

def execNpoll (sm : Bool) (d a : Fin 16) (s : State) : Host.Outcome State Fault Refusal :=
  s.issue sm fun s => do
    noTx s
    let v ← s.rdS a
    let q := v.toNat % 65536
    let x := secOf s.cur
    match s.rxQueue x q with
    | none => fault (flt cSHP 0x2B)
    | some e =>
      require (e.asid == s.asidOf s.cur) (flt cSHP 0x2B)
      let c := s.sec x
      let taken := Sparse.get 0 c.rxTaken q
      if taken < Sparse.get 0 c.rxDone q then do
        s.acquiring true
        let t := s.modSec x fun c => { c with rxTaken := Sparse.put 0 c.rxTaken q (taken + 1) }
        done (t.acquired.wrS d (word (e.ring + 32 * (taken % e.entries))))
      else done (s.wrS d 0)

/-! ## Requests from the network (R433, R434) -/

/-- How the network's and the PCIe port's accesses are checked: no user bit, no NC page, no race check. -/
def portAcc (kind : AccKind) : Acc := { kind := kind, app := false, nc := false, race := none }

/-- Write bytes for a port, line by line: those before the first failure, and whether all were accepted. -/
def State.portWrite (s : State) (x : Sec) (asid : BitVec 16) : List (Nat × List Byte) → State × Option HomeErr
  | [] => (s, none)
  | p :: ps => match (s.conflictRange x asid p.1 p.2.length true).writeChunk x asid p.1 p.2 (portAcc .write) with
    | .ok t => t.portWrite x asid ps
    | .error e => (s, some e)
def State.portStore (s : State) (x : Sec) (asid : BitVec 16) (va : Nat) (bs : List Byte) : State × Option HomeErr :=
  s.portWrite x asid ((chunks va bs.length).map fun c => (c.1, slice bs (c.1 - va) c.2))

/-- Bytes that a port reads, line by line, or the first failure. -/
def State.portBytes (s : State) (x : Sec) (asid : BitVec 16) : List (Nat × Nat) → Except HomeErr (List Byte × State)
  | [] => .ok ([], s)
  | p :: ps => match (s.conflictRange x asid p.1 p.2 false).readChunk x asid p.1 p.2 (portAcc .read) with
    | .error e => .error e
    | .ok (bs, t) => match t.portBytes x asid ps with
      | .error e => .error e
      | .ok r => .ok (bs ++ r.1, r.2)

/-- A port's answer to the network (R303, R433, R434). -/
def State.netAnswer (s : State) (x : Sec) (r : NetReply) : State :=
  s.modSec x fun c => { c with netReplies := r :: c.netReplies }

/-- The answer to a write of the network: a failure gives a remote-access NAK. While a set is full of pinned lines the
request is not taken, and `s` stands (R331; log entry 100). -/
def State.netWritten (s : State) (x : Sec) (r : State × Option HomeErr) (ok : State → State) : State :=
  match r.2 with
  | none => ok r.1
  | some .busy => s
  | some _ => r.1.netAnswer x .remoteAccess

/-- The region that a remote key names: its address space, if the operation's range passes (R433). -/
def State.region (s : State) (x : Sec) (r : RdmaIn) (write : Bool) : Option (BitVec 16) :=
  let e := 0x80000 + r.key % 4096 * 32
  let w := s.netNat x e 8
  let base := s.netNat x (e + 8) 8
  let len := s.netNat x (e + 16) 8
  if (s.sec x).netBase.isSome ∧ w / 2 ^ 16 % 2 = 1 ∧ s.netNat x (e + 24) 8 = r.key / 4096 ∧ base ≤ r.va
      ∧ r.va + r.len ≤ base + len ∧ r.va + r.len ≤ 2 ^ 56 ∧ w / 2 ^ (if write then 18 else 17) % 2 = 1 ∧ w / 2 ^ 19 = 0 then
    some (BitVec.ofNat 16 w)
  else none

def execRdmaWriteIn (x : Sec) (r : RdmaIn) (s : State) : Host.Outcome State Fault Refusal :=
  event (if (s.sec x).power ≠ .running then s
    else match s.region x r true with
      | none => s.netAnswer x .remoteAccess
      | some asid =>
        s.netWritten x (s.portStore x asid r.va (r.data.take r.len)) fun t => t.netAnswer x (.accepted []))

def execRdmaReadIn (x : Sec) (r : RdmaIn) (s : State) : Host.Outcome State Fault Refusal :=
  event (if (s.sec x).power ≠ .running then s
    else match s.region x r false with
      | none => s.netAnswer x .remoteAccess
      | some asid => match s.portBytes x asid (chunks r.va r.len) with
        | .ok (bs, t) => t.netAnswer x (.accepted bs)
        | .error .busy => s
        | .error _ => s.netAnswer x .remoteAccess)

/-- The completion entry of a received message (R434). -/
def completionBytes (buf len : Nat) (truncated : Bool) (seq : Nat) : List Byte :=
  leBytes 8 buf ++ leBytes 8 len ++ leBytes 8 truncated.toNat ++ leBytes 8 seq

/-- A SEND fills the next buffer of its queue, and without a free one gets a receiver-not-ready NAK; a buffer is free
again once its completion entry has been consumed. -/
def execRdmaSendIn (x : Sec) (r : RdmaIn) (s : State) : Host.Outcome State Fault Refusal :=
  event (if (s.sec x).power ≠ .running then s
    else match s.rxQueue x r.queue with
      | none => s
      | some e =>
        let c := s.sec x
        let n := Sparse.get 0 c.rxDone r.queue
        let taken := Sparse.get 0 c.rxTaken r.queue
        if min e.count e.entries ≤ n - taken then s.netAnswer x .notReady
        else
          let buf := e.buffers + n % e.count * e.size
          let bs := r.data.take e.size
          s.netWritten x (s.portStore x e.asid buf bs) fun t =>
            let seq := (Config.netSeq s.freeCtr).toNat
            s.netWritten x ({ t with freeCtr := s.freeCtr + 1 }.portStore x e.asid (e.ring + 32 * (n % e.entries))
                (completionBytes buf bs.length (decide (e.size < r.data.length)) seq)) fun u =>
              (u.modSec x fun c => { c with rxDone := Sparse.put 0 c.rxDone r.queue (n + 1) }).netAnswer x (.accepted []))

end Sys2Proof.Machine
end

