-- ==== Sys2Proof/Machine/Shake.lean ====
section
/-! DEFINITION. SHAKE256, the digest of the digest unit, of seals and of firmware images (R210, R302, R427, R429). -/

namespace Sys2Proof.Machine

/-- A rotation of a 64-bit lane to the left. -/
def rotl (w : Word) (n : Nat) : Word := w.rotateLeft n

/-- The rotation of lane x + 5y. -/
def keccakRot : List Nat :=
  [0, 1, 62, 28, 27, 36, 44, 6, 55, 20, 3, 10, 43, 25, 39, 41, 45, 15, 21, 8, 18, 2, 61, 56, 14]

/-- The constants of the 24 rounds. -/
def keccakRc : List Word :=
  [0x0000000000000001, 0x0000000000008082, 0x800000000000808A, 0x8000000080008000, 0x000000000000808B,
    0x0000000080000001, 0x8000000080008081, 0x8000000000008009, 0x000000000000008A, 0x0000000000000088,
    0x0000000080008009, 0x000000008000000A] ++
  [0x000000008000808B, 0x800000000000008B, 0x8000000000008089, 0x8000000000008003, 0x8000000000008002,
    0x8000000000000080, 0x000000000000800A, 0x800000008000000A, 0x8000000080008081, 0x8000000000008080,
    0x0000000080000001, 0x8000000080008008]

/-- One round of the permutation on 25 lanes. -/
def keccakRound (a : List Word) (rc : Word) : List Word :=
  let g := fun (l : List Word) (i : Nat) => l.getD i 0
  let c := (List.range 5).map fun x => g a x ^^^ g a (x + 5) ^^^ g a (x + 10) ^^^ g a (x + 15) ^^^ g a (x + 20)
  let d := (List.range 5).map fun x => g c ((x + 4) % 5) ^^^ rotl (g c ((x + 1) % 5)) 1
  let a := (List.range 25).map fun i => g a i ^^^ g d (i % 5)
  let b := (List.range 25).map fun j =>
    let i := (j % 5 + 3 * (j / 5)) % 5 + 5 * (j % 5)
    rotl (g a i) (keccakRot.getD i 0)
  (List.range 25).map fun i =>
    let y := i / 5 * 5
    let v := g b i ^^^ (~~~(g b ((i + 1) % 5 + y)) &&& g b ((i + 2) % 5 + y))
    if i = 0 then v ^^^ rc else v

/-- The permutation. -/
def keccak (a : List Word) : List Word := keccakRc.foldl keccakRound a

/-- A message padded to a multiple of the rate of 136 bytes. -/
def shakePad (m : List Byte) : List Byte :=
  let k := 136 - m.length % 136
  if k = 1 then m ++ [0x9F#8] else m ++ [0x1F#8] ++ List.replicate (k - 2) 0 ++ [0x80#8]

/-- Absorb `n` blocks. -/
def shakeAbsorb : Nat → List Byte → List Word → List Word
  | 0, _, st => st
  | n + 1, m, st =>
    let blk := m.take 136
    shakeAbsorb n (m.drop 136) (keccak (st.zipIdx.map fun p =>
      if p.2 < 17 then p.1 ^^^ word (leNat (slice blk (8 * p.2) 8)) else p.1))

/-- The first `n` lanes of 8 bytes of SHAKE256 of a message, within one block. -/
def shakeLanes (n : Nat) (m : List Byte) : List Byte :=
  let p := shakePad m
  ((shakeAbsorb (p.length / 136) p (List.replicate 25 0)).take n).flatMap fun w => leBytes 8 w.toNat

/-- The first 32 bytes of SHAKE256 of a message. -/
def shake256 (m : List Byte) : List Byte := shakeLanes 4 m

/-- The first 64 bytes of SHAKE256 of a message. -/
def shake512 (m : List Byte) : List Byte := shakeLanes 8 m

end Sys2Proof.Machine
end

