-- ==== Sys2Proof/Machine/Sys.lean ====
section
/-! DEFINITION. System instructions (R297 to R304) and the taking of interrupts (R392). -/

namespace Sys2Proof.Machine

/-! ## trap, brk, eret, wfi (R298, R299) -/

def execTrap (sm : Bool) (n : BitVec 7) (s : State) : Host.Outcome State Fault Refusal :=
  s.issue sm fun s => do
    noTx s
    fault (flt cSYS n.toNat)

def execBrk (sm : Bool) (n : BitVec 7) (s : State) : Host.Outcome State Fault Refusal :=
  s.issue sm fun s => do
    noTx s
    fault (flt cBRK n.toNat)

def execEret (sm : Bool) (s : State) : Host.Outcome State Fault Refusal :=
  s.issue sm fun s => do
    let me ← privileged s
    noTx s
    let epc := (s.master me.1 me.2).epc
    checkTarget epc
    .ok (s.leaveTrap me.1 me.2, .jump epc)

def execWfi (sm : Bool) (s : State) : Host.Outcome State Fault Refusal :=
  s.issue sm fun s => do
    let me ← privileged s
    noTx s
    if (s.master me.1 me.2).pending then done s else .error (.park .wfi)

/-! ## Interrupts (R392) -/

/-- The next instruction of a master core that has not retired. -/
def Hart.resumePc (h : Hart) : Word :=
  if h.park = some .wfi then h.pc + 4 else if h.chain.isEmpty then h.pc else h.chainPc

/-- The entry is an acquire (R392): CHL, SWARM, COPY, PREEMPTED, IPI. -/
def acquiringIrq (sub : Nat) : Bool := [irqSwarm, irqCopy, irqPreempted, irqIpi].contains sub

/-- The handler sees what the event announces (R392). -/
def State.seeAll (s : State) (g : Agent) (b : Bool) : State :=
  if b then s.modHart g fun h => { h with roSeq := s.wseq } else s

/-- The event that a master core takes next is an acquire. -/
def Master.nextAcquires (m : Master) : Bool :=
  m.chl.isSome || match m.irqs with
    | (sub, _) :: _ => acquiringIrq sub
    | [] => false

/-- Take the pending event that comes first (R392): CHL, then the lowest IRQ. -/
def State.takeEvent (s : State) (x : Sec) (n : Fin 16) : State :=
  let g : Agent := .master x n
  let s := (s.abortTx g txAsync 0).withdraw g
  let m := s.master x n
  let epc := (s.hart g).resumePc
  match m.chl, m.irqs with
  | some p, _ => ((s.setMaster x n { m with chl := none }).seeAll g true).enterTrap x n cCHL p.sub p.addr 0 epc
  | none, (sub, a) :: _ =>
    ((s.setMaster x n { m with irqs := Sparse.erase m.irqs sub }).seeAll g (acquiringIrq sub)).enterTrap x n cIRQ sub
      (a.getD 0) 0 epc
  | none, [] => s

/-- A pending event is taken; an entry that is an acquire waits until the core's earlier releases have been accepted
(R311). -/
def execInterruptTaken (x : Sec) (n : Fin 16) (s : State) : Host.Outcome State Fault Refusal :=
  event (
    let m := s.master x n
    if m.ie ∧ m.pending ∧ s.inService (.master x n) ∧ !(m.nextAcquires && s.releaseOpen (.master x n)) then s.takeEvent x n
    else s)

/-! ## tlbi and tlbsync (R300, R301) -/

/-- The faults of an invalidation's range; length 0 stands for the whole application space. -/
def State.tlbiFaults (s : State) (x : Sec) (base len : Nat) (asid : Option (BitVec 16)) : List Flt :=
  let lo := if len = 0 then 0 else base
  let n := if len = 0 then 2 ^ 56 else len
  let sealed := (s.sec x).seals.any fun r =>
    (match asid with
    | some a => r.asid == a
    | none => true) && decide (r.base < lo + n) && decide (lo < r.base + r.len)
  let space := match placeOf s.cur base (max len 1) with
    | .ok (.app _) => []
    | .error f => [f]
    | _ => [fltAt cADR 0 base]
  let align := if base % 65536 = 0 ∧ len % 65536 = 0 then [] else [fltAt cALN 0 base]
  if space.isEmpty ∧ align.isEmpty then (if sealed then [flt cPRV 2] else []) else space ++ align

/-- Start an invalidation. -/
def State.startTlbi (s : State) (x : Sec) (n : Fin 16) (base len : Nat) (asid : Option (BitVec 16)) : State :=
  let t : Tlbi :=
    { id := s.nextId, asid := asid.getD 0, base := if len = 0 then 0 else base
      len := if len = 0 then 2 ^ 56 else len, all := asid.isNone }
  ((s.fresh.modSec x fun c => { c with tlbis := c.tlbis ++ [t] }).modMaster x n fun m =>
    { m with tlbis := m.tlbis ++ [t.id] }).post (.tlbiComplete x t.id)

/-- The common part of the two forms. -/
def State.tlbiBody (s : State) (a : Fin 16) (asid : Except Stop (Option (BitVec 16))) : Except Stop (State × Next) := do
  let me ← privileged s
  noTx s
  let p ← s.rdPair a
  let asid ← asid
  checkAll (s.tlbiFaults me.1 p.1.toNat p.2.toNat asid)
  done (s.startTlbi me.1 me.2 p.1.toNat p.2.toNat asid)

def execTlbi (sm : Bool) (a b : Fin 16) (s : State) : Host.Outcome State Fault Refusal :=
  s.issue sm fun s => s.tlbiBody a ((s.rdS b).map fun v => some (BitVec.ofNat 16 v.toNat))

def execTlbiAll (sm : Bool) (a : Fin 16) (s : State) : Host.Outcome State Fault Refusal :=
  s.issue sm fun s => s.tlbiBody a (.ok none)

/-- A TLB entry of a key lies in an invalidation's range. -/
def Tlbi.holdsEntry (t : Tlbi) (k : Nat) : Bool :=
  if k < 2 ^ 60 then
    let va := k % 2 ^ 40 * 65536
    (t.all || k / 2 ^ 40 == t.asid.toNat) && decide (va < t.base + t.len) && decide (t.base < va + 65536)
  else
    let b := (k - 2 ^ 60) / 8
    let va := b % 2 ^ 27 * 2 ^ 29
    (t.all || b / 2 ^ 27 == t.asid.toNat) && decide (va < t.base + t.len) && decide (t.base < va + 2 ^ 29)

/-- A line of an invalidation's range. -/
def Tlbi.holdsLine (t : Tlbi) (x : Sec) (k : Nat) : Bool :=
  lineSec k == x && (t.all || lineAsid k == t.asid) && decide (t.base ≤ lineVa k) && decide (lineVa k < t.base + t.len)

/-- A byte of an invalidation's range in the record of overwritten bytes. -/
def Tlbi.holdsByte (t : Tlbi) (k : Nat) : Bool :=
  (t.all || k / 2 ^ 56 == t.asid.toNat) && decide (t.base ≤ k % 2 ^ 56) && decide (k % 2 ^ 56 < t.base + t.len)

/-- A cached table entry of a key lies on the path to an invalidation's range (R345). -/
def Tlbi.holdsTable (t : Tlbi) (k : Nat) : Bool :=
  let q := k / 8
  let span := if q / 2 ^ 43 = 1 then 2 ^ 42 else 2 ^ 29
  let va := q % 2 ^ 27 * span
  (t.all || q / 2 ^ 27 % 2 ^ 16 == t.asid.toNat) && decide (va < t.base + t.len) && decide (t.base < va + span)

/-- The mapping that an invalidation ends differs from what the tables say (R301; log entry 80): the page has none any
more, or the cached translation names another frame. -/
def State.remapped (old new : State) (x : Sec) (asid : BitVec 16) (va : Nat) : Bool :=
  match new.walk x asid va, old.tlbHit x asid va with
  | .ok t, some u => t.addr va != u.addr va
  | .ok _, none => false
  | .error _, _ => true

/-- Carry out an invalidation (R301): dirty lines are written back; lines, master cores' copies and cached translations
of the range go. Instruction fetch goes on seeing the bytes of its moment where the mapping is the same (R130). -/
def State.invalidate (s : State) (x : Sec) (t : Tlbi) : State :=
  let ks := (s.llc.filter fun e => t.holdsLine x e.1).map (·.1)
  let u := ks.foldl State.evict s
  let u := State.modSec { u with copies := u.copies.filter fun e => !t.holdsLine x e.1 } x fun c =>
    { c with tlb := c.tlb.filter fun e => !t.holdsEntry e.1
             walker := c.walker.filter fun e => !t.holdsTable e.1
             tlbis := c.tlbis.filter fun u => u.id != t.id }
  u.modSec x fun c => { c with wlog := c.wlog.filter fun e =>
    !(t.holdsByte e.2.1 && s.remapped u x (BitVec.ofNat 16 (e.2.1 / 2 ^ 56)) (e.2.1 % 2 ^ 56)) }

/-- An invalidation is complete; a master core that waits for it can go on. While a dirty line of the range stays
because its device does not take it (R409), the invalidation goes on trying (log entry 116). -/
def execTlbiComplete (x : Sec) (id : Nat) (s : State) : Host.Outcome State Fault Refusal :=
  event (match (s.sec x).tlbis.find? fun t => t.id == id with
    | none => s
    | some t =>
      let u := s.invalidate x t
      if u.llc.any fun e => t.holdsLine x e.1 && (u.line e.1).isSome then
        (u.modSec x fun c => { c with tlbis := (s.sec x).tlbis }).post (.tlbiComplete x id)
      else ((List.range 16).map (Fin.ofNat 16)).foldl (fun s n =>
        if (s.master x n).tlbis.contains id then
          s.modMaster x n fun m => { m with tlbis := m.tlbis.filter (· ≠ id) }
        else s) u)

/-- What follows a `tlbsync`: held ring records and residency checks are tried again, and the network table is loaded
again (R283, R348, R432). -/
def State.afterSync (s : State) (x : Sec) : State :=
  let s := (s.retryHeld x).loadNet x
  s.postAll (((s.sec x).insts.filter fun i => i.phase == .lease).map fun i => .leaseResidencyCheck x i.uid)

def execTlbsync (sm : Bool) (s : State) : Host.Outcome State Fault Refusal :=
  s.issue sm fun s => do
    let me ← privileged s
    noTx s
    if (s.master me.1 me.2).tlbis.isEmpty then done (s.afterSync me.1) else .error (.park .tlbis)

/-! ## seal (R302, R429) -/

/-- The pages of a range with their frames, or the first page that has no valid leaf. -/
def State.pageFrames (s : State) (x : Sec) (asid : BitVec 16) (base : Nat) : Nat → Except (Nat × HomeErr) (List (Nat × Nat))
  | 0 => .ok []
  | n + 1 => match s.walk x asid base with
    | .error e => .error (base, e)
    | .ok t => match s.pageFrames x asid (base + 65536) n with
      | .error e => .error e
      | .ok l => .ok ((base, t.addr base) :: l)

/-- The bytes of a line, wherever they are held; a poisoned line cannot be read (R408). -/
def State.lineBytes (s : State) (x : Sec) (asid : BitVec 16) (va : Nat) : Except HomeErr (List Byte) :=
  match s.line (lineKey x asid va) with
  | some l => if l.poison then .error (.mce 3) else .ok l.data
  | none => match s.translate x asid va with
    | .ok (t, _) => if s.poisoned x (t.addr va) then .error (.mce 3) else .ok (s.readPhys x (t.addr va) 128)
    | .error e => .error e
/-- The bytes of `n` lines, or the first that cannot be read. -/
def State.rangeBytes (s : State) (x : Sec) (asid : BitVec 16) (base : Nat) : Nat → Except (Nat × HomeErr) (List Byte)
  | 0 => .ok []
  | n + 1 => match s.lineBytes x asid base with
    | .error e => .error (base, e)
    | .ok bs => (s.rangeBytes x asid (base + 128) n).map (bs ++ ·)

/-- Extend a measurement register (R429). -/
def extendMr (mr : BitVec 256) (kind : Nat) (v : List Byte) : BitVec 256 :=
  BitVec.ofNat 256 (leNat (shake256 (leBytes 32 mr.toNat ++ leBytes 1 kind ++ v)))

/-- An entry of the measurement log (R429). -/
def logEntry (reg kind asid id base len : Nat) (d : List Byte) : List Byte :=
  leBytes 8 (reg + kind * 256 + asid * 65536) ++ leBytes 8 id ++ leBytes 8 base ++ leBytes 8 len ++ d

/-- Seal a range and measure it. -/
def State.sealRange (s : State) (x : Sec) (asid : BitVec 16) (base len : Nat) (frames : List (Nat × Nat))
    (bytes : List Byte) : State :=
  let id := (s.sec x).sealCount + 1
  let m := shake256 (leBytes 2 asid.toNat ++ leBytes 8 base ++ leBytes 8 len ++ bytes)
  s.modSec x fun c =>
    { c with seals := c.seals ++ [⟨id, asid, base, len, frames⟩], sealCount := id
             mrs := extendMr c.mrs 0 (leBytes 8 id ++ m)
             mlog := c.mlog ++ [logEntry 1 0 asid.toNat id base len m] }

/-- The faults of `seal`. -/
def State.sealFaults (s : State) (x : Sec) (asid : BitVec 16) (base len : Nat) : List Flt :=
  let c := s.sec x
  (match placeOf s.cur base (max len 1) with
  | .ok (.app _) => match s.pageFrames x asid base (len / 65536) with
    | .error (va, e) => [homeFlt true .read e va]
    | .ok _ => []
  | .error f => [f]
  | _ => [fltAt cADR 0 base])
  ++ (if base % 65536 = 0 ∧ len % 65536 = 0 ∧ len ≠ 0 then [] else [fltAt cALN 0 base])
  ++ (if c.seals.any fun r => r.asid == asid && decide (r.base < base + len) && decide (base < r.base + r.len) then
      [flt cSHP 0x22] else [])
  ++ if 4096 ≤ c.seals.length then [flt cSHP 0x2C] else []

def execSeal (sm : Bool) (d a : Fin 16) (s : State) : Host.Outcome State Fault Refusal :=
  s.issue sm fun s => do
    let me ← privileged s
    noTx s
    let p ← s.rdPair a
    let x := me.1
    let asid := s.asidOf s.cur
    checkAll (s.sealFaults x asid p.1.toNat p.2.toNat)
    match s.pageFrames x asid p.1.toNat (p.2.toNat / 65536) with
    | .error (va, e) => fault (homeFlt true .read e va)
    | .ok fs => match s.rangeBytes x asid p.1.toNat (p.2.toNat / 128) with
      | .error (va, e) => fault (homeFlt true .read e va)
      | .ok bs => done ((s.sealRange x asid p.1.toNat p.2.toNat fs bs).wrS d (word ((s.sec x).sealCount + 1)))

/-! ## ipi (R304) -/

/-- A target is legal for a kind. -/
def ipiOk (x : Sec) (t kind : Nat) : Bool :=
  let mc := t / 32768 % 2 == 1
  decide (t / 2 ^ 18 = 0) && decide (t / 2 ^ 13 % 4 = 0) && decide (t / 65536 = x.val) && match kind with
    | 0 => mc
    | 1 | 2 => !mc && decide (t / 64 % 128 ≤ 95)
    | _ => false

/-- The effect of `ipi`: a note, or a step of the thread core that is due. -/
def State.sendIpi (s : State) (x : Sec) (n : Fin 16) (t : Nat) (v : Word) : State :=
  let cl : Fin 96 := Fin.ofNat 96 (t / 64 % 128)
  let co : Fin 8 := Fin.ofNat 8 (t / 8)
  match v.toNat % 16 with
  | 0 => s.irq x (Fin.ofNat 16 (t / 4)) irqIpi (word (bitsOf v 8 56))
  | 1 => s.post (.preempt x cl co n)
  | _ => s.post (.coreRelease x cl co)

def execIpi (sm : Bool) (a b : Fin 16) (s : State) : Host.Outcome State Fault Refusal :=
  s.issue sm fun s => do
    let me ← privileged s
    noTx s
    let t ← s.rdS a
    let v ← s.rdS b
    require (ipiOk me.1 t.toNat (v.toNat % 16)) (flt cSHP 0x22)
    require (v.toNat % 16 ≠ 1 || bitsOf (s.sec me.1).spillq 16 36 ≠ 0) (flt cSHP 0x22)
    s.released true
    done (s.sendIpi me.1 me.2 t.toNat v)

end Sys2Proof.Machine
end

