-- ==== Sys2Proof/Machine/Thread.lean ====
section
/-! DEFINITION. Thread control and migration (R161 to R168), and the events of parked agents (R373). -/

namespace Sys2Proof.Machine

/-! ## done and yield (R163, R164) -/

/-- A vt is finished (R153): it is no longer counted, and the instances that it owns have lost their owner (R9). -/
def State.countDone (s : State) (x : Sec) (v : VtName) : State :=
  let s := s.modInst x v.uid fun i => { i with vts := i.vts.filter fun t => t.n != v.n }
  let kids := (s.sec x).insts.filter fun i => i.owner = .vt v
  kids.foldl (fun s k => s.orphan x k) s

/-- The next number is drawn at the home slot, on a core that runs (R163); a waiting extension migrant takes the slot
first (R68). -/
def State.drawAgain (s : State) (x : Sec) (home uid : Nat) : State :=
  if !s.slotUp x home then s
  else if (s.ctx x home).reserved.isSome ∨ (s.ctx x home).holds ≠ .released then s
  else (s.modCtx x home fun c => { c with holds := .bound uid }).post (.drawRequest (ctxAgent x home))

/-- The effect of `done` (R163). -/
def State.finishVt (s : State) (x : Sec) (i : Nat) (v : VtName) : State :=
  let home := s.homeIdx x i
  let s := ((s.endVtJobs x v home).dropDeposits x v).unbindVt x v.uid home
  let s := ((s.countDone x v).leaveSlots x i home).drawAgain x home v.uid
  s.checkEnds x

def execDone (sm : Bool) (s : State) : Host.Outcome State Fault Refusal :=
  s.issue sm fun s => do
    let me ← threadOnly s
    noTx s
    s.released sm
    match s.vtOf s.cur with
    | some v => .ok (s.finishVt me.1 me.2.val v, .stay)
    | none => .ok (s, .seq)

/-- The instruction completes before the context moves. -/
def execYield (sm : Bool) (s : State) : Host.Outcome State Fault Refusal :=
  s.issue sm fun s => do
    let me ← threadOnly s
    noTx s
    let t := s.retire sm .seq
    match (t.ctx me.1 me.2.val).extFrom with
    | some o => .ok (t.extReturn me.1 me.2.val o, .stay)
    | none => .ok (t.dropRole s.cur, .stay)

/-! ## go, goh, gohome (R165, R166) -/

/-- The vector state is empty (R16). -/
def State.vectorEmpty (s : State) (x : Sec) (i : Nat) : Bool :=
  let h := s.hart (ctxAgent x i)
  let c := s.ctx x i
  h.v.toList.all (fun r => r.tag == .inv) && (h.m.toList.drop 1).all (fun r => r.void || r.val == 0)
    && h.q.toList.all (fun r => r.void || r.val == 0) && !c.accBound && c.cirrus.isNone && c.digest.isNone

/-- The context leaves its slots (R162): the home slot is kept for the vt, others are released. -/
def State.depart (s : State) (x : Sec) (i home : Nat) (v : VtName) : State :=
  let ext := (s.ctx x i).extFrom
  let s := if i = home then s.clearSlot x i else s.releaseSlot x i
  let s := match ext with
    | some o => if o = home then s else (s.unreserve x o (some v)).releaseSlot x o
    | none => s
  s.keepHome x home v

/-- The message of a move (R166). -/
def State.migration (s : State) (x : Sec) (i home : Nat) (v : VtName) (bound : Bool) : Migration :=
  let h := s.hart (ctxAgent x i)
  { regs := h.s.map (·.val), pc := h.pc + 4, srseed := h.srseed, fflags := h.fflags, fmode := h.fmode, preds := h.p
    hpri := h.hpri, vt := v, home := home, seq := (s.ctx x home).seq, bound := bound, from_ := i / 64, roSeq := h.roSeq
    unread := h.unread }

/-- Move to another cluster: the message is sent with the next sequence number of the home context. -/
def State.migrateTo (s : State) (x : Sec) (i home : Nat) (v : VtName) (cl : Fin 96) (bound : Bool) : State :=
  let m := s.migration x i home v bound
  let act := s.actor s.cur 0
  let s := s.modCtx x home fun c => { c with seq := c.seq + 1 }
  ((s.depart x i home v).setRunning x v none).sendTo x cl act (.migrate m)

/-- `gohome` within the home cluster: the context moves to its home slot, if no other vt has it. -/
def State.moveHome (s : State) (x : Sec) (i home : Nat) (v : VtName) : State :=
  let h := s.ctx x home
  if h.reserved ≠ some v ∧ ¬(h.reserved.isNone ∧ h.holds = .released) then s
  else match (s.ctx x i).extFrom with
  | some o =>
    if o = home then s.extReturn x i home
    else
      let s := (s.modCtx x home fun c => { c with reserved := none }).moveCtx x i home
      (s.releaseSlot x i).unreserve x o (some v) |>.releaseSlot x o
  | none => ((s.modCtx x home fun c => { c with reserved := none }).moveCtx x i home).releaseSlot x i

/-- The common effect of the moves: the waits, the checks, and the message or a local end (R165). DESIGN CHOICE (log
entry 124): the format bit of the accumulator binding keeps what the configuration that is discarded gave it. -/
def State.moveBody (s : State) (sm : Bool) (target : Fin 96) (homing : Bool) : Except Stop (State × Next) := do
  let me ← threadOnly s
  let x := me.1
  let i := me.2.val
  if !s.drained s.cur || !s.enginesIdle s.cur then .error (.interlock (.drain true))
  else
    require (s.me.s.toList.all (·.full)) (flt cMIG 1)
    require (s.vectorEmpty x i) (flt cMIG 2)
    let home := s.homeIdx x i
    let s := s.acquired.modCtx x i fun c => { c with mxcfg := none }
    match s.vtOf s.cur with
    | none => .ok (s, .seq)
    | some v =>
      if target ≠ clusterOf i then .ok (s.migrateTo x i home v target homing, .stay)
      else if homing ∧ i ≠ home then .ok ((s.retire sm .seq).moveHome x i home v, .stay)
      else .ok (s, .seq)

def execGo (sm : Bool) (a : Fin 16) (s : State) : Host.Outcome State Fault Refusal :=
  s.issue sm fun s => do
    let _ ← threadOnly s
    noTx s
    let t ← s.rdS a
    require (decide (t.toNat ≤ 95)) (fltAt cADR 0 t.toNat)
    s.moveBody sm (Fin.ofNat 96 t.toNat) false

def execGoh (sm : Bool) (a : Fin 16) (s : State) : Host.Outcome State Fault Refusal :=
  s.issue sm fun s => do
    let _ ← threadOnly s
    noTx s
    let t ← s.rdS a
    let p ← s.place t 1
    match p with
    | .spad cl _ => s.moveBody sm cl false
    | .app _ => fault (fltAt cADR 0 t.toNat)
    | .peer _ _ => fault (fltAt cADR 0 t.toNat)
    | .reg _ _ => fault (fltAt cADR 0 t.toNat)

def execGohome (sm : Bool) (s : State) : Host.Outcome State Fault Refusal :=
  s.issue sm fun s => do
    let me ← threadOnly s
    noTx s
    s.moveBody sm (clusterOf (s.homeIdx me.1 me.2.val)) true

/-! ## sleep (R168) -/

/-- The home of a word for a watch: sector, address space and address there. -/
def State.watchHome (s : State) (p : Place) : Nat × Nat × Nat :=
  match p with
  | .peer slot off =>
    let h := (s.import_ (secOf s.cur) slot).handle.toNat
    let e := s.export_ (handleSec h) (handleIndex h)
    ((handleSec h).val, e.asid.toNat, e.base + off)
  | .app va => ((secOf s.cur).val, (s.asidOf s.cur).toNat, va)
  | _ => (0, 0, 0)

def execSleep (sm : Bool) (a b : Fin 16) (s : State) : Host.Outcome State Fault Refusal :=
  s.issue sm fun s => do
    let _ ← threadOnly s
    noTx s
    let ea ← s.rdS a
    let v ← s.rdS b
    let p ← s.place ea 8
    match p with
    | .spad _ _ => fault (fltAt cADR 0 ea.toNat)
    | .reg _ _ => fault (fltAt cADR 0 ea.toNat)
    | _ => pure ()
    s.acquiring true
    let r ← s.loadNat ea 8 true
    if word r.1 ≠ v then done r.2.acquired
    else
      let w := s.watchHome p
      .ok (r.2.parkMe sm (.sleep w.1 w.2.1 w.2.2 ea), .stay)

/-- A sleeping context wakes, reloads the word as a load of its own (R125, R174) and completes, whether or not the word
has changed (R168). A reload that faults does so as the instruction executes again. -/
def execSleepWake (g : Agent) (s : State) : Host.Outcome State Fault Refusal :=
  event (match (s.hart g).park with
    | some (.sleep _ _ _ ea) => match State.load { s with cur := g } ea 8 true with
      | .ok r => State.completeParked { r.2 with cur := s.cur } g fun h => { h with roSeq := r.2.wseq }
      | .error .stall => s.post (.sleepWake g)
      | .error _ => s.unpark g
    | _ => s)

/-! ## Other wakes (R373) -/

/-- A read that parked on an empty register executes again once it is full (R13). -/
def execRegisterFillWake (g : Agent) (s : State) : Host.Outcome State Fault Refusal :=
  event (match (s.hart g).park with
    | some (.reg r) => if ((s.hart g).s.get r).full then s.unpark g else s
    | _ => s)

/-- A word has changed state, or its watermark has passed: the forms parked on it complete in the order of R148. -/
def execFeWordWake (x : Sec) (cl : Fin 96) (word : Fin 262144) (s : State) : Host.Outcome State Fault Refusal :=
  event (s.feSettle x cl (8 * word.val))

/-- Channels of a cluster have moved: reads parked on a watermark are tested again, and so are the commands of the
engines that wait for one (R24, R216, R376). -/
def execWatermarkWake (x : Sec) (cl : Fin 96) (s : State) : Host.Outcome State Fault Refusal :=
  event (
    let here := s.harts.filter fun e => secOf (agentOfKey e.1) = x && clusterOfAgent (agentOfKey e.1) == some cl
    let s := here.foldl (fun s e => match e.2.park with
      | some (.mark c off n) => if c = cl.val ∧ !s.belowMark x cl off n then s.unpark (agentOfKey e.1) else s
      | some (.fe w _ _ _) => s.post (.feWordWake x cl (Fin.ofNat 262144 w))
      | _ => s) s
    let s := if (s.cluster x cl).mx.toList.any (!·.isEmpty) then s.post (.engineStep x cl) else s
    ((s.cluster x cl).cpRunning.foldl (fun s c => s.post (.copyComplete x cl c.id)) s).kickGathers x cl)

/-- Issues that parked on a full queue execute again (R215, R267, R273). -/
def execQueueEntryFree (g : Agent) (s : State) : Host.Outcome State Fault Refusal :=
  event (match (s.hart g).park with
    | some (.queue _) => s.unpark g
    | _ => s)

/-- A D slot is free: the waiting migrant takes it and executes its instruction there (R68). -/
def execDSlotFree (x : Sec) (cl : Fin 96) (s : State) : Host.Outcome State Fault Refusal :=
  event (match s.dWaiter x cl, s.freeDSlot x cl with
    | some i, some j => (s.unpark (.thread x i)).extMigrate x i.val j.val
    | _, _ => s)

end Sys2Proof.Machine
end

