-- ==== Sys2Proof/Machine/Preempt.lean ====
section
/-! DEFINITION. Pre-emption of a thread core: stopping, the saved images, release and restoring (R48, R49, R401 to
R406). -/

namespace Sys2Proof.Machine

/-- The slots of a core that hold application contexts: all but the service context (R11), as sector indices. -/
def slotsOf (cl : Fin 96) (co : Fin 8) : List Nat :=
  ((List.range 8).map fun k => cl.val * 64 + co.val * 8 + k).filter fun i => !isService i

/-! ## Stopping (R401, R402) -/

/-- A `pginv` that has not been answered is taken back (R142, R264): its result register is as it was, and its run is
given up. -/
def State.takeBack (s : State) (g : Agent) : State :=
  match (s.hart g).park, s.gen with
  | some (.pginv _), some r => match r.for_ with
    | .query q d _ was unread =>
      if q = g then (s.modHart g fun h =>
        { h with s := h.s.set d.val was d.isLt, unread := if unread then d :: h.unread else h.unread }).stopQuery g
      else s
    | _ => s
  | _, _ => s

/-- A context stops at its instruction boundary: its transaction aborts, and one that is parked on anything but a fault
is back at its parked instruction (R62, R142, R401). -/
def State.stopSlot (s : State) (x : Sec) (i : Nat) : State :=
  let g := ctxAgent x i
  let s := ((s.abortTx g txAsync 0).withdraw g).takeBack g
  s.modHart g fun h => match h.park with
    | some (.fault _) => h
    | _ => { h with pc := if h.chain.isEmpty then h.pc else h.chainPc, chain := [], park := none, sWait := false, wait := none }

/-- Deposits that wait for a register of a core's slots are diverted as they arrive again, for the vts for which they
are kept (R401). -/
def State.divertWaiting (s : State) (x : Sec) (cl : Fin 96) (co : Fin 8) : State :=
  let here := fun (f : Flight) => match f.body with
    | .deposit c _ _ => clusterOf c.val == cl && coreOf c.val == co
    | _ => false
  let c := s.cluster x cl
  let fs := ((c.recvInbox ++ c.reserveBuf).filter here).map fun f => { f with arrived := none }
  let s := s.setCluster x cl { c with recvInbox := c.recvInbox.filter fun f => !here f
                                      reserveBuf := c.reserveBuf.filter fun f => !here f }
  let s := State.postAll { s with flight := s.flight ++ fs } (fs.map fun (f : Flight) => Due.depositArrive f.id)
  if fs.isEmpty then s else s.inboxFreed x cl

/-- A core that is stopped already stays as it is. -/
def execPreempt (x : Sec) (cl : Fin 96) (co : Fin 8) (issuer : Fin 16) (s : State) :
    Host.Outcome State Fault Refusal :=
  event (
    if (s.coreSt x cl co).stopped.isSome ∨ s.isFenced x (chipletOf cl) ∨ (s.sec x).power ≠ .running then s
    else
      let s := s.modCore x cl co fun c => { c with stopped := some issuer, saved := false }
      let s := (slotsOf cl co).foldl (fun s i => s.stopSlot x i) s
      ((s.divertWaiting x cl co).post (.preemptImagesSaved x cl co)))

/-! ## Images (R48) -/

/-- Bits of a list, the first as bit 0. -/
def bitsNat : List Bool → Nat
  | [] => 0
  | b :: bs => b.toNat + 2 * bitsNat bs

/-- The 32 bytes of a matrix configuration (R225). -/
def mxcfgBytes (c : Option (Word × Word)) : List Byte :=
  match c with
  | none => List.replicate 32 0
  | some (w, t) => leBytes 8 (w.toNat % 2 ^ 63 + 2 ^ 63) ++ leBytes 8 t.toNat ++ List.replicate 16 0

/-- The state word of an image. -/
def imageState (h : Hart) : Nat :=
  bitsNat (h.s.toList.map (·.full)) + bitsNat (true :: h.p.toList.drop 1) * 2 ^ 16
    + bitsNat ((h.m.toList.drop 1).map (·.void)) * 2 ^ 24 + bitsNat (h.q.toList.map (·.void)) * 2 ^ 32

/-- The image of a context (R48); `seq` is the next outgoing number of its home context. DESIGN CHOICE (log entry 125):
the bytes of an s register that is empty, and of a void v, m or q register, are the value that it held last. -/
def imageBytes (h : Hart) (c : Ctx) (seq : Nat) (ext : Bool) : List Byte :=
  h.s.toList.flatMap (fun r => leBytes 8 r.val.toNat)
  ++ h.v.toList.flatMap (fun r => leBytes 64 r.body.toNat)
  ++ h.v.toList.flatMap (fun r => leBytes 8 r.side.toNat)
  ++ leBytes 8 (2 ^ 64 - 1) ++ (h.m.toList.drop 1).flatMap (fun r => leBytes 8 r.val.toNat)
  ++ h.q.toList.flatMap (fun r => leBytes 16 r.val.toNat)
  ++ leBytes 8 h.pc.toNat ++ leBytes 8 h.fmode.toNat ++ leBytes 8 h.fflags.toNat ++ leBytes 8 h.srseed.toNat
  ++ leBytes 8 c.vtn.toNat ++ leBytes 8 c.homec.toNat ++ leBytes 8 h.instret.toNat
  ++ leBytes 8 (imageState h)
  ++ leBytes 8 (ofLanes 4 (h.v.toList.map fun r => tagCode r.tag))
  ++ leBytes 8 (c.accBound.toNat + bitsNat c.accLive.toList * 2 + c.accInt.toNat * 8)
  ++ leBytes 8 (seq % 65536 + ext.toNat * 2 ^ 16 + h.hpri.val * 2 ^ 17)
  ++ leBytes 8 c.sph.toNat ++ mxcfgBytes c.mxcfg

/-- A number of an image. -/
def imageNat (bs : List Byte) (off n : Nat) : Nat := leNat (slice bs off n)

/-- The registers that an image gives (R49): FMODE and FFLAGS keep their fields, and everything an image must hold zero
is ignored (R400). DESIGN CHOICE (log entry 118): a tag of 14, which no register holds (R91), is restored as INV. -/
def imageHart (bs : List Byte) (own : Hart) (w : Saved) : Hart :=
  let st := imageNat bs 0x5B8 8
  let bit := fun (i : Nat) => st / 2 ^ i % 2 == 1
  { Hart.resetThread with
    s := Vector.ofFn fun k => ⟨word (imageNat bs (8 * k.val) 8), bit k.val, false⟩
    p := Vector.ofFn fun k => if k.val = 0 then false else bit (16 + k.val)
    v := Vector.ofFn fun k =>
      ⟨(tagOf (imageNat bs 0x5C0 8 / 16 ^ k.val % 16)).getD .inv, BitVec.ofNat 512 (imageNat bs (0x80 + 64 * k.val) 64)
        , word (imageNat bs (0x480 + 8 * k.val) 8)⟩
    m := Vector.ofFn fun k =>
      if k.val = 0 then ⟨0, true⟩ else ⟨word (imageNat bs (0x500 + 8 * k.val) 8), bit (23 + k.val)⟩
    q := Vector.ofFn fun k => ⟨BitVec.ofNat 128 (imageNat bs (0x540 + 16 * k.val) 16), bit (32 + k.val)⟩
    pc := word (imageNat bs 0x580 8 / 4 * 4), fmode := fmodeStored (word (imageNat bs 0x588 8))
    fflags := word (imageNat bs 0x590 8 % 32), srseed := word (imageNat bs 0x598 8)
    instret := word (imageNat bs 0x5B0 8), hpri := Fin.ofNat 4 (imageNat bs 0x5D0 8 / 2 ^ 17)
    jobCtr := own.jobCtr, pushEpoch := w.epoch, park := w.fault.map .fault, roSeq := w.roSeq, unread := w.unread
    engSeq := w.engSeq }

/-- The bits of a home context's identity that are not RES0 (R27). -/
def homecBits (v : Nat) : Nat := v % 2 ^ 13 + v / 2 ^ 15 % 8 * 2 ^ 15

/-- The own state of a context that an image gives; Cirrus and digest bindings are invalid (R49), and reserved bits are
ignored (R400). DESIGN CHOICE (log entry 117): which vt the image is, and whether it needs D, is what Stratus recorded
when it saved the image. -/
def imageCtx (bs : List Byte) (own : Ctx) (w : Saved) : Ctx :=
  let b := imageNat bs 0x5C8 8
  let cfg := imageNat bs 0x5E0 8
  { own with
    holds := .running w.vt, extFrom := if w.needsD then some w.idx else none
    vtn := word (imageNat bs 0x5A0 8 % 2 ^ 40), sph := word (imageNat bs 0x5D8 8 % 2 ^ 56)
    homec := word (homecBits (imageNat bs 0x5A8 8))
    accBound := b % 2 == 1, accLive := Vector.ofFn fun k => b / 2 ^ (1 + k.val) % 2 == 1, accInt := b / 8 % 2 == 1
    cirrus := none, digest := none
    mxcfg := if cfg / 2 ^ 63 % 2 = 1 then some (word (cfg % 2 ^ 26), word (imageNat bs 0x5E8 8 % 2 ^ 48)) else none }

/-! ## Saving (R401) -/

/-- A message that cannot be accepted before the contexts of stopped cores are restored: one that the spill queue takes,
or one that its agent's order holds behind such a message (log entry 36). -/
def State.stuck (s : State) (f : Flight) : Bool :=
  s.diverted f || ((s.heldBack f || match f.body with
    | .deposit _ _ _ => s.earlierOpen f
    | _ => false) && s.anyMessage f.sec fun e => e.actor.same f.actor && decide (e.id < f.id) && s.diverted e)

/-- The accesses of an agent have been accepted, as far as pre-emption waits for them (R401). -/
def State.settled (s : State) (g : Agent) : Bool :=
  !(s.anyMessage (secOf g) fun f => f.awaited && s.isActor g f.actor && !s.stuck f) && !(s.zreqs.any fun r => s.zBy g r)

/-- A stopped core has drained: no access of its contexts is outstanding, no draw is in flight, and no matrix command is
left in its queue; a `pgrun` goes on by itself. -/
def State.coreQuiet (s : State) (x : Sec) (cl : Fin 96) (co : Fin 8) : Bool :=
  (slotsOf cl co).all (fun i => match (s.ctx x i).holds with
    | .released => true
    | .running _ => s.settled (ctxAgent x i)
    | .bound _ => false
    | .drawn _ _ => false)
  && ((s.cluster x cl).mx.get co).all fun c => c.op == .run

/-- Save the context of one slot, if it holds a vt (R401, R402). -/
def State.saveSlot (s : State) (x : Sec) (i : Nat) : State :=
  match s.vtAt x i with
  | none => s.modCtx x i fun c => { c with drawAfter := none }
  | some v => match s.inst x v.uid with
    | none => s
    | some inst =>
      let g := ctxAgent x i
      let h := s.hart g
      let c := s.ctx x i
      let idx := c.extFrom.getD i
      let seq := (s.ctx x (s.homeIdx x i)).seq.toNat
      let w : Saved :=
        { uid := v.uid, idx := idx, vt := v, needsD := c.extFrom.isSome, ran := i
          fault := match h.park with
            | some (.fault next) => some next
            | _ => none
          roSeq := h.roSeq, unread := h.unread, engSeq := h.engSeq, epoch := h.pushEpoch, order := (s.sec x).savedOrder }
      let s := s.areaWrite x inst.asid (inst.rcd.save + areaImage idx) (imageBytes h c seq w.needsD)
      let s := ((s.clearSlot x i).setRunning x v none).modCtx x i fun c => { c with drawAfter := none }
      s.modSec x fun q => { q with saved := q.saved ++ [w], savedOrder := q.savedOrder + 1 }

/-- The images are written and the issuer is told. -/
def execPreemptImagesSaved (x : Sec) (cl : Fin 96) (co : Fin 8) (s : State) : Host.Outcome State Fault Refusal :=
  event (match (s.coreSt x cl co).stopped with
    | none => s
    | some n =>
      if (s.coreSt x cl co).saved ∨ !s.coreQuiet x cl co then s
      else
        let s := (slotsOf cl co).foldl (fun s i => s.saveSlot x i) s
        (s.modCore x cl co fun c => { c with saved := true, holder := none }).irq x n irqPreempted
          (word (cl.val * 8 + co.val)))

/-! ## The spill queue's records (R405, R406) -/

/-- The service that sends redelivered messages. -/
def State.redeliverer (s : State) (x : Sec) (cl : Nat) : Actor :=
  { agent := ctxAgent x (cl * 64 + 7), asid := 0, vt := none, home := 0, sys := false, job := 0, seq := 0, epoch := 0
    after := s.nextId }

/-- A parcel with the contents that its record holds: which register or vt it is for is as Stratus recorded it. -/
def State.recordBody (s : State) (x : Sec) (f : Flight) (bs : List Byte) : Parcel :=
  match f.body with
  | .deposit c r _ => .deposit c r (word (leNat (slice bs 32 8)))
  | .migrate m => match s.parseMig x f.cl.val (slice bs 32 160) with
    | some n => .migrate { m with
        regs := n.regs, pc := n.pc, srseed := n.srseed, fflags := n.fflags, fmode := n.fmode, preds := n.preds
        hpri := n.hpri }
    | none => .migrate m
  | p => p

/-- The message of a record of the spill queue, if it is live, and the state behind the read of its bytes (R408). -/
def State.spillFlight (s : State) (x : Sec) (k : Nat) : Option Flight × State :=
  let r := s.readFrames x (spillSlot (s.sec x).spillq k) 192
  match (s.sec x).stored.find? fun q => q.heap.isNone && q.number == k with
  | some q => (some { q.flight with arrived := none, body := s.recordBody x q.flight r.1 }, r.2)
  | none => match s.parseRecordBody x r.1 with
    | some (cl, b) =>
      (some { id := k, sec := x, cl := Fin.ofNat 96 cl, actor := s.redeliverer x cl, body := b, rel := true, arrived := none
              kept := match b with
                | .deposit c _ _ => s.holderOf x c.val
                | _ => none }, r.2)
    | none => (none, r.2)

/-- Take the records that a test names out of the queue, among `n` from record `k` on: their messages, oldest first, and
the state, in which they are of type 0. -/
def State.spillTake (s : State) (x : Sec) (p : Flight → Bool) : Nat → Nat → List Flight × State
  | 0, _ => ([], s)
  | n + 1, k =>
    let r := s.spillFlight x k
    match r.1 with
    | some f =>
      if p f then
        let q := (r.2.killRecord x ⟨none, k, f⟩).spillTake x p n (k + 1)
        (f :: q.1, q.2)
      else r.2.spillTake x p n (k + 1)
    | none => r.2.spillTake x p n (k + 1)

/-- The messages that the queue holds, or that it refused, and that a test names, oldest first, taken out (R405, R406).
-/
def State.spillOut (s : State) (x : Sec) (p : Flight → Bool) : List Flight × State :=
  let q := (s.sec x).spillq
  let head := leNat (s.readPhys x (spillBase q) 8)
  let tail := leNat (s.readPhys x (spillBase q + 8) 8)
  let t := if (s.sec x).stored.any (·.heap.isNone) || head != tail then
      s.spillTake x p (min (tail - head) (spillRecords q)) head else ([], s)
  let late := (t.2.sec x).refused.filter p
  let u := t.2.modSec x fun c => { c with refused := c.refused.filter fun f => !p f }
  (t.1 ++ late, if t.1.isEmpty then u else u.offerAgain x u.diverted)

/-- Redeliver a message (R405): a deposit is tried at once, and waits like any other while it must not land (R14, R170,
R311). -/
def State.redeliver (s : State) (f : Flight) : State :=
  match f.body with
  | .deposit c r v => State.arriveDeposit { s with flight := s.flight ++ [f] } f c r v
  | _ => s.resend f

/-! ## Restoring (R404, R405) -/

/-- The fault record of a restored context moves to its new index (R404). -/
def State.moveRecord (s : State) (x : Sec) (inst : Inst) (i j : Nat) : State :=
  if i = j then s
  else
    let r := s.areaRead x inst.asid (inst.rcd.save + areaRecord i) 64
    let s := r.2.areaWrite x inst.asid (inst.rcd.save + areaRecord j) r.1
    s.areaMod x inst (areaRecord i) 8 fun w => w - (w / 2 ^ 32 % 2) * 2 ^ 32

/-- The deposits kept for a restored vt that name its former slot follow it, oldest first (R404, R405): those of the
spill queue, then those that it has not taken yet. -/
def State.followTo (s : State) (x : Sec) (w : Saved) (j : Nat) : State :=
  let mine := fun (f : Flight) => f.kept == some w.vt && match f.body with
    | .deposit c _ _ => c.val == w.ran || (w.needsD && c.val == w.idx)
    | _ => false
  let here := fun (f : Flight) => { f with cl := clusterOf j, body := match f.body with
    | .deposit _ r w => .deposit (Fin.ofNat 6144 j) r w
    | b => b }
  let t := s.spillOut x mine
  let late := t.2.flight.filter fun f => f.sec == x && mine f
  (t.1 ++ late).foldl (fun s f => s.redeliver (here f))
    { t.2 with flight := t.2.flight.filter fun f => !(f.sec == x && mine f) }

/-- Restore an image into a slot. -/
def State.restore (s : State) (x : Sec) (w : Saved) (inst : Inst) (j : Nat) : State :=
  let g := ctxAgent x j
  let r := s.areaRead x inst.asid (inst.rcd.save + areaImage w.idx) 1536
  let bs := r.1
  let s := r.2.modSec x fun q => { q with saved := q.saved.filter fun v => v.order != w.order }
  let s := if w.fault.isSome then s.moveRecord x inst w.ran j else s
  let s := s.setHart g (imageHart bs (s.hart g) w)
  let s := s.modCtx x j fun c => imageCtx bs c w
  let home := s.homeIdx x j
  let s := s.modCtx x home fun c => { c with seq := BitVec.ofNat 16 (imageNat bs 0x5D0 8) }
  let s := if home = j then s else s.keepHome x home w.vt
  (((s.setRunning x w.vt (some j)).enlist g).followTo x w j).landWaiting x j

/-- A free slot takes the image that is first by priority and age, if nothing else comes before it. -/
def execImageRestore (x : Sec) (idx : Fin 6144) (s : State) : Host.Outcome State Fault Refusal :=
  event (
    let i := idx.val
    if !s.slotFree x i || s.dWanted x i || s.boundWaits x i || s.messageWaits x (clusterOf i) then s
    else match s.imageFor x i with
      | none => s
      | some w => match s.inst x w.uid with
        | some inst => s.restore x w inst i
        | none => s)

/-- A stopped core returns to allocation (R403): what the spill queue holds for its slots, and for no image, is
delivered, and its free slots are given away. -/
def execCoreRelease (x : Sec) (cl : Fin 96) (co : Fin 8) (s : State) : Host.Outcome State Fault Refusal :=
  event (
    if (s.coreSt x cl co).stopped.isNone then s
    else
      let s := s.modCore x cl co fun c => { c with stopped := none, saved := false, watchdog := 0 }
      let at_ := fun (i : Nat) => clusterOf i == cl && coreOf i == co
      let t := s.spillOut x fun f => !s.diverted f && match f.body with
        | .deposit c _ _ => at_ c.val
        | .migrate m => m.bound && at_ m.home
        | .push _ _ => false
      let s := t.1.foldl (fun s f => s.redeliver f) t.2
      (slotsOf cl co).foldl (fun s i => if s.slotFree x i then s.slotFreed x i else s) s)

end Sys2Proof.Machine
end

