-- ==== Sys2Proof/Machine/Reliability.lean ====
section
/-! DEFINITION. Errors of memories and links (R407 to R409, R414). -/

namespace Sys2Proof.Machine

/-! ## Counters (R425) -/

/-- A counter that saturates at 2^64 − 1. -/
def sat64 (n : Nat) : Nat := min (n + 1) (2 ^ 64 - 1)

/-- Count an event in a sector's telemetry. -/
def State.tally (s : State) (x : Sec) (f : Telemetry → Telemetry) : State :=
  s.modSec x fun c => { c with telemetry := f c.telemetry }

/-! ## Memories (R407, R408) -/

/-- The sector of a site, and the location that MCLOG reports: a physical address for memory, a virtual address for a
line, the offset in the sector's scratchpads, the chiplet, or 0 for a table. -/
def siteSector : EccSite → Sec
  | .dram x _ => x
  | .llc x _ _ => x
  | .scratchpad x _ _ => x
  | .register x _ => x
  | .table x => x
  | .device x _ => x
def siteLocation : EccSite → Nat
  | .dram _ pa => pa
  | .llc _ _ va => va
  | .scratchpad _ cl w => cl.val * 0x200000 + 8 * w.val
  | .register _ ch => ch.val
  | .table _ => 0
  | .device _ pa => pa

/-- A lasting uncorrectable error marks its location (R408): a line of memory is poisoned; a line of the LLC is poisoned
if it is dirty and read again from memory otherwise; a scratchpad word raises MCE when it is read; a register file or
engine array takes its chiplet out of service. A device that does not take a line's bytes refuses every write-back of it
until an event says that it does (R409; log entry 116). -/
def State.markBad (s : State) (site : EccSite) : State :=
  match site with
  | .dram x pa => (s.setPoison x pa true).irqSector x irqMclog (word pa)
  | .llc x asid va =>
    let k := lineKey x (BitVec.ofNat 16 asid) va
    match s.line k with
    | none => s
    | some l =>
      if l.dirty then (s.setLine k (some { l with poison := true })).irqSector x irqMclog (word va) else s.evict k
  | .scratchpad x cl w =>
    s.modSec x fun c =>
      let k := cl.val * 2 ^ 18 + w.val
      { c with badWords := k :: c.badWords.filter (· ≠ k) }
  | .register x ch => s.post (.chipletFence x ch)
  | .table _ => s
  | .device x pa => s.modSec x fun c => { c with badDevice := pa / 128 :: c.badDevice.filter (· ≠ pa / 128) }

/-- The device of a line takes its bytes again. -/
def State.deviceWell (s : State) (site : EccSite) : State :=
  match site with
  | .device x pa => s.modSec x fun c => { c with badDevice := c.badDevice.filter (· ≠ pa / 128) }
  | _ => s

/-- The requester of an access that meets an error raises MCE at the access's address (R391, R396, R407, R408): an agent
at its present instruction, if it can execute one, and a request at its job. Which access met the error is what the
event says (log entry 87). -/
def State.tellRequester (s : State) (req : ErrReq) (sub : Nat) : State :=
  match req with
  | .nobody => s
  | .agent g ea =>
    if s.canIssue g then
      let w := match s.fetchWord g (s.hart g).pc.toNat with
        | .ok (some r) => r.1
        | _ => 0
      ({ s with cur := g, curWord := BitVec.ofNat 32 w }).raise (fltAt cMCE sub ea.toNat)
    else s
  | .request id => match s.bankq.find? fun b => b.id == id && !b.back with
    | some b => s.failReq b (fltAt cMCE sub b.ea)
    | none => s

/-- An error is retried once and classified by the result (R407). -/
def execEccEvent (site : EccSite) (retry : EccRetry) (s : State) : Host.Outcome State Fault Refusal :=
  event (
    let x := siteSector site
    match retry with
    | .clean => (s.tally x fun t => { t with soft := sat64 t.soft }).deviceWell site
    | .corrected =>
      ((s.tally x fun t => { t with correctable := sat64 t.correctable }).deviceWell site).irqSector x irqMclog
        (word (siteLocation site))
    | .uncorrectable req =>
      ((s.tally x fun t => { t with uncorrectable := sat64 t.uncorrectable }).markBad site).tellRequester req 1)

/-! ## Links (R414) -/

/-- The sectors of a bridge (R412). -/
def bridgeEnds (b : Fin 6) : Sec × Sec :=
  match b with
  | 0 => (0, 1)
  | 1 => (0, 2)
  | 2 => (0, 3)
  | 3 => (1, 2)
  | 4 => (1, 3)
  | 5 => (2, 3)

/-- The sectors to which a link belongs. -/
def linkSectors : Link → List Sec
  | .bridge b => [(bridgeEnds b).1, (bridgeEnds b).2]
  | .chiplet x _ => [x]
  | .stack x _ => [x]
  | .far x => [x]

/-- A lasting link fault is reported to Horizon, which fences the bridge or the chiplet; no rule names a fence for the
link of a stack or of the far tier. -/
def State.linkFault (s : State) (l : Link) : State :=
  match l with
  | .bridge b => s.post (.bridgeFence b)
  | .chiplet x ch => s.post (.chipletFence x ch)
  | .stack _ _ => s
  | .far _ => s

/-- A flit fails its CRC and is sent again, which repeats no effect (R414); when it fails again the requester raises MCE
LINK (R407) and the link is reported. -/
def execLinkCrcError (l : Link) (again : Option ErrReq) (s : State) : Host.Outcome State Fault Refusal :=
  event (
    let t := (linkSectors l).foldl (fun s x => s.tally x fun t => { t with retries := sat64 t.retries }) s
    match again with
    | some req => (t.tellRequester req 2).linkFault l
    | none => t)

/-- Contexts asleep on a word of a home that cannot be reached wake and meet the error completion (R421). -/
def State.wakeCutOff (s : State) : State :=
  let cut := s.harts.filterMap fun e => match e.2.park with
    | some (.sleep y _ _ _) =>
      let g := agentOfKey e.1
      if y ≠ (secOf g).val ∧ !s.reachable (secOf g) (Fin.ofNat 4 y) then some g else none
    | _ => none
  cut.foldl (fun s g => s.unpark g) s

/-- A bridge goes out of service; where no third sector connects its ends, the traffic is answered with errors. -/
def execBridgeFence (b : Fin 6) (s : State) : Host.Outcome State Fault Refusal :=
  event (State.wakeCutOff { s with bridges := s.bridges.set b.val false b.isLt })

end Sys2Proof.Machine
end

