-- ==== Sys2Proof/Machine/Zenith.lean ====
section
/-! DEFINITION. Zenith registers: requests, and the cycle that combines them (R21, R157 to R160). -/

namespace Sys2Proof.Machine

/-- The instance that a Z form names, or SHP (R158): `read` is true for `zget`, which a master core may use on an
instance that has ended. -/
def State.zInst (s : State) (read : Bool) : Except Stop Inst :=
  match s.cur with
  | .thread _ _ => match s.instOf s.cur with
    | some i => .ok i
    | none => fault (flt cSHP 3)
  | .master x n => match (s.master x n).lastInst with
    | none => fault (flt cSHP 3)
    | some uid => match s.inst x uid with
      | none => fault (flt cSHP 3)
      | some i => if read || i.final.isNone then .ok i else fault (flt cSHP 3)

/-- The final values that a master core can still read after `join` (R21, R154). -/
def State.zFinal (s : State) : Option (Vector Word 16) :=
  match s.cur with
  | .master x n => (s.master x n).finalZ
  | .thread _ _ => none

/-- Issue a request (R157): the result register is empty until it completes. -/
def State.zIssue (s : State) (i : Inst) (z : Fin 16) (op : ZOp) (d : Option (Fin 16)) (o : Order) : State :=
  let x := secOf s.cur
  let r : ZReq :=
    { id := s.nextId, sec := x, agent := s.cur, vt := s.vtOf s.cur, uid := i.uid, z := z, op := op, d := d
      rel := isRel o, acq := isAcq o }
  let t := match d with
    | some d => s.claimS d
    | none => s
  ({ t with zreqs := t.zreqs ++ [r], nextId := t.nextId + 1 }).post (.zenithCycle x i.uid z [r.id])

def execPsm (sm : Bool) (d a z : Fin 16) (o : Order) (s : State) : Host.Outcome State Fault Refusal :=
  s.issue (sm || isAcq o) fun s => do
    noTx s
    let v ← s.rdS a
    let i ← s.zInst false
    s.released (isRel o)
    s.acquiring (isAcq o)
    if s.zBusy s.cur d then .error (.interlock (.result d)) else done (s.zIssue i z (.add v) (some d) o)

/-- The predicate of `psmb` has no state that programs see: its readers wait (R121, R157). -/
def Hart.claimP (h : Hart) (k : Fin 8) : Hart := if k = 0 then h else { h with pBusy := h.pBusy.set k.val true k.isLt }

def execPsmb (sm : Bool) (d a z : Fin 16) (k : Fin 8) (o : Order) (s : State) : Host.Outcome State Fault Refusal :=
  s.issue (sm || isAcq o) fun s => do
    noTx s
    let v ← s.rdPair a
    let i ← s.zInst false
    s.released (isRel o)
    s.acquiring (isAcq o)
    if s.me.pBusy.get k then .error (.interlock (.pred k))
    else if s.zBusy s.cur d then .error (.interlock (.result d))
    else done ((s.zIssue i z (.addBounded v.1 v.2 k) (some d) o).modMe fun h => h.claimP k)

def execZset (sm : Bool) (a z : Fin 16) (o : Order) (s : State) : Host.Outcome State Fault Refusal :=
  s.issue (sm || isAcq o) fun s => do
    noTx s
    let v ← s.rdS a
    let i ← s.zInst false
    s.released (isRel o)
    s.acquiring (isAcq o)
    done (s.zIssue i z (.set v) none o)

def execZget (sm : Bool) (d z : Fin 16) (o : Order) (s : State) : Host.Outcome State Fault Refusal :=
  s.issue (sm || isAcq o) fun s => do
    match s.zFinal with
    | some v => do
      s.released (isRel o)
      s.acquiring (isAcq o)
      done ((if isAcq o then s.acquired else s).wrS d (v.get z))
    | none =>
      let i ← s.zInst true
      s.released (isRel o)
      s.acquiring (isAcq o)
      if s.zBusy s.cur d then .error (.interlock (.result d)) else done (s.zIssue i z .get (some d) o)

/-- The running value after a request, and whether a bounded add was made (R157, R159). -/
def zApply (op : ZOp) (v : Word) : Word × Bool :=
  match op with
  | .add a => (v + a, true)
  | .addBounded a lim _ => if v.toNat + a.toNat ≤ lim.toNat then (v + a, true) else (v, false)
  | .set a => (a, true)
  | .get => (v, true)

/-- The result of a request lands in a register that still waits for it (R13, R141). -/
def State.landZ (s : State) (r : ZReq) (old : Word) (added : Bool) : State :=
  match r.d with
  | none => s
  | some d =>
    let s := if ((s.hart r.agent).s.get d).claimed then s.fillS r.agent d old else s
    match r.op with
    | .addBounded _ _ k =>
      if (s.hart r.agent).pBusy.get k then s.modHart r.agent fun h => h.putP k added else s
    | _ => s

/-- A request that is an acquire begins a new interval of its agent's read-only path as it completes (R124, R308). -/
def State.zAcquired (s : State) (r : ZReq) : State :=
  if r.acq then
    s.modHart r.agent fun h => { h with roSeq := s.wseq }
  else s

/-- What waited for a Zenith request of an agent goes on: later requests of it to the register, and its messages that
are releases (R159, R311). -/
def State.zSettled (s : State) (r : ZReq) : State :=
  let next := (s.zreqs.filter fun q => q.agent == r.agent && q.vt == r.vt && q.uid == r.uid && q.z == r.z).map fun q =>
    Due.zenithCycle r.sec r.uid r.z [q.id]
  (s.postAll next).nudge (s.actor r.agent 0)

/-- One request takes effect, unless an older one of its agent to the register still has to (R159). -/
def State.zOne (s : State) (x : Sec) (uid : Nat) (z : Fin 16) (id : Nat) : State :=
  match s.zreqs.find? fun r => r.id == id && r.sec == x && r.uid == uid && r.z == z, s.inst x uid with
  | some r, some i =>
    if s.zreqs.any fun q => q.agent = r.agent && q.vt == r.vt && q.uid == uid && q.z == z && decide (q.id < id) then s
    else
      let a := zApply r.op (i.z.get z)
      let s := { s with zreqs := s.zreqs.filter fun q => q.id != id }
      (((s.modInst x uid fun i => { i with z := i.z.set z.val a.1 z.isLt }).landZ r (i.z.get z) a.2).zAcquired r).zSettled r
  | some r, none => State.zSettled { s with zreqs := s.zreqs.filter fun q => q.id != id } r
  | none, _ => s

/-- Requests to one Zenith register combine in an order that the hardware chooses: `order` (R159). -/
def execZenithCycle (x : Sec) (uid : Nat) (z : Fin 16) (order : List Nat) (s : State) :
    Host.Outcome State Fault Refusal :=
  event ((order.foldl (fun s id => s.zOne x uid z id) s).checkEnds x)

end Sys2Proof.Machine
end

