-- ==== Sys2Proof/Machine/Fence.lean ====
section
/-! DEFINITION. Taking a chiplet out of service and back: the fence, unit loss and replay, and admission (R383 to R386,
R410, R411, R417 to R419). -/

namespace Sys2Proof.Machine

/-! ## Records and saved images (R411) -/

/-- The fault records at indices on the chiplet of contexts that are saved and not lost are cleared (R411). -/
def State.clearSavedFaults (s : State) (x : Sec) (ch : Fin 4) : State :=
  (s.sec x).saved.foldl (fun s w =>
    if w.fault.isSome ∧ onChiplet ch w.ran then
      match s.inst x w.uid with
      | some i => (s.clearFault x i w.ran).modSec x fun c =>
          { c with saved := c.saved.map fun v => if v.order = w.order then { v with fault := none } else v }
      | none => s
    else s) s

/-! ## The hardware of the chiplet (R417) -/

/-- The master cores of a chiplet. -/
def mastersOf (ch : Fin 4) : List (Fin 16) := (List.range 4).map fun k => Fin.ofNat 16 (ch.val * 4 + k)

/-- Requests of the chiplet that Stratus has not accepted at the fence are dropped; which those are is a free value
(log entry 23). -/
def State.cutRequests (s : State) (x : Sec) (ch : Fin 4) : State :=
  let keep := fun (g : Agent) (id : Nat) => !agentOn x ch g || Config.fenceAccepts (s.freeCtr + id)
  { s with
    flight := s.flight.filter fun f => keep f.actor.agent f.id
    bankq := s.bankq.filter fun b => keep b.actor.agent b.id && !(b.back && b.sec == x && chipletOf b.cl == ch)
    zreqs := s.zreqs.filter fun r => keep r.agent r.id
    freeCtr := s.freeCtr + s.nextId + 1 }

/-- Complete the requests of the chiplet that the fence has accepted, in the order of issue (R417): pushes, deposits,
Zenith requests, and the bytes of copies and scatters. What still has to come back to the chiplet is dropped. -/
def State.completeAccepted (s : State) (x : Sec) (ch : Fin 4) : State :=
  let mine := agentOn x ch
  let ids := (s.flight.filter fun f => mine f.actor.agent).map (·.id) ++ (s.zreqs.filter fun r => mine r.agent).map (·.id)
    ++ (s.bankq.filter fun b => mine b.actor.agent && b.op != .read).map (·.id)
  let s := (ids.mergeSort).foldl (fun s id => match s.flightOf id, s.zreqs.find? fun r => r.id == id with
    | some f, _ => match f.body with
      | .push off data => s.acceptPush f off data
      | .deposit c r v => s.arriveDeposit f c r v
      | .migrate _ => s
    | none, some r => s.zOne r.sec r.uid r.z id
    | none, none => s.serve id fun _ => true) s
  State.postAll { s with bankq := s.bankq.filter fun b => !mine b.actor.agent }
    ((s.flight.filter fun f => mine f.actor.agent).filterMap fun f => match f.body with
      | .deposit _ _ _ => some (.depositArrive f.id)
      | _ => none)

/-- Pushes and deposits toward the chiplet, wherever they are, are discarded and count as accepted (R418). -/
def State.dropToward (s : State) (x : Sec) (ch : Fin 4) : State :=
  let hit := fun (f : Flight) => f.sec == x && chipletOf f.cl == ch && match f.body with
    | .migrate _ => false
    | _ => true
  let gone := (s.flight ++ (s.sec x).refused ++ s.inboxes x ++ (s.sec x).stored.map (·.flight)).filter hit
  gone.foldl (fun s f => (match f.body with
    | .push _ data => s.cpSettled x f.actor data.length
    | _ => s).nudge f.actor) (s.discard x hit)

/-- Commands of the chiplet's units that run on without their vt end DONE; their bytes are discarded (R418; log entry
119). -/
def State.endStranded (s : State) (x : Sec) (ch : Fin 4) : State :=
  let units := s.clusters.filter fun e => e.1 / 96 == x.val && chipletOf (Fin.ofNat 96 e.1) == ch
  let cmds := units.flatMap fun e =>
    e.2.cpRunning.map (·.actor) ++ (e.2.cp.toList.flatMap fun q => q.map (·.actor))
      ++ e.2.mx.toList.flatMap fun q => q.map (·.actor)
  let xgs := (s.sec x).asyncs.filter fun a => agentOn x ch a.actor.agent && match a.kind with
    | .xgat | .xsct | .xsctadd _ => true
    | _ => false
  (cmds ++ xgs.map (·.actor)).foldl (fun s a => s.endJob x a 1 0 none) s

/-- Values of a sparse map outside a range of keys. -/
def Sparse.outside {α : Type} (m : List (Nat × α)) (lo hi : Nat) : List (Nat × α) :=
  m.filter fun e => decide (e.1 < lo) || decide (hi ≤ e.1)

/-- Everything that the chiplet holds is lost: registers, clusters, scratchpads, accumulators, pending events. -/
def State.wipeChiplet (s : State) (x : Sec) (ch : Fin 4) : State :=
  let gone := (s.harts.map fun e => agentOfKey e.1).filter (agentOn x ch)
  let s := gone.foldl (fun s g => (match (s.hart g).tx with
    | some t => s.clearMarks g (t.reads ++ t.writes)
    | none => s).withdraw g) s
  let cl := x.val * 96 + ch.val * 24
  let ctx := x.val * 6144 + ch.val * 1536
  let mast := 24576 + x.val * 16 + ch.val * 4
  let run := match s.gen with
    | some r => match r.for_ with
      | .command y c _ => y == x && chipletOf c == ch
      | .list y c _ => y == x && chipletOf c == ch
      | .query g _ _ _ _ => agentOn x ch g
    | none => false
  let s := if run then s.stopRun else s
  let s := { s with
    harts := Sparse.outside (Sparse.outside s.harts ctx (ctx + 1536)) mast (mast + 4)
    masters := Sparse.outside s.masters mast (mast + 4)
    ctxs := Sparse.outside s.ctxs ctx (ctx + 1536)
    clusters := Sparse.outside s.clusters cl (cl + 24)
    spad := Sparse.outside s.spad (cl * 2 ^ 21) ((cl + 24) * 2 ^ 21)
    spadEmpty := Sparse.outside s.spadEmpty (cl * 2 ^ 18) ((cl + 24) * 2 ^ 18)
    spadMarks := Sparse.outside s.spadMarks (cl * 2 ^ 18) ((cl + 24) * 2 ^ 18)
    accs := Sparse.outside s.accs (cl * 2 ^ 18) ((cl + 24) * 2 ^ 18)
    copies := s.copies.filterMap fun (e : Nat × List Copy) =>
      if lineSec e.1 = x then
        match e.2.filter fun (c : Copy) => !agentOn x ch (.master x c.core) with
        | [] => none
        | cs => some (e.1, cs)
      else some e
    turns := s.turns.filter fun g => !agentOn x ch g || isMaster g
    tokens := s.tokens.filter fun t => !(t.sec == x && (chipletOf t.at_ == ch || chipletOf t.name == ch)) }
  s.modSec x fun c => { c with
    badWords := c.badWords.filter fun w => !(chipletOf (Fin.ofNat 96 (w / 2 ^ 18)) == ch)
    asyncs := c.asyncs.filter fun a => !(agentOn x ch a.actor.agent && match a.kind with
      | .xgat | .xsct | .xsctadd _ => true
      | _ => false) }

/-! ## The fence (R410, R417) -/

/-- Fence a chiplet. -/
def State.fenceChiplet (s : State) (x : Sec) (ch : Fin 4) : State :=
  let losses : List (Inst × List Vt) := ((s.sec x).insts.filter fun i => i.final.isNone).filterMap fun i =>
    match s.lostVts x ch i with
    | [] => none
    | l => some (i, l)
  let s := (((s.cutRequests x ch).completeAccepted x ch).modSec x fun c =>
    { c with fenced := c.fenced.set ch.val true }).dropToward x ch
  let s := losses.foldl (fun s p => s.loseVts x ch p.1 p.2) s
  let s := ((s.sec x).insts.filter fun i => i.final.isNone && !i.replay.isEmpty && !s.survives x i).foldl
    (fun s i => s.settleLoss x i []) s
  let s := losses.foldl (fun s p => s.abortOwned x p.1.uid (p.2.map (·.n))) s
  let s := ((s.clearSavedFaults x ch).endStranded x ch).wipeChiplet x ch
  let s := losses.foldl (fun s p => s.tellLoss x ch p.1) s
  let s := match s.intMaster x with
    | some n => s.chl x n ch ((losses.head?.map fun (p : Inst × List Vt) => p.1.handle).getD 0)
    | none => s
  s.checkEnds x

/-- Nothing is under way for a sector that a request to Horizon would have to wait for (R426): it runs, or is held in
reset. -/
def State.horizonFree (s : State) (x : Sec) : Bool :=
  match (s.sec x).power with
  | .running | .down => true
  | .ready | .settling _ | .resetting _ => false

/-- Horizon takes a request for a sector: it carries it out now, or once the release or reset under way is over (R426).
-/
def State.inTurn (s : State) (x : Sec) (l : Later) (f : State → State) : State :=
  if s.horizonFree x then f s else s.modSec x fun c => { c with later := c.later ++ [l] }

/-- A chiplet that is fenced already stays as it is. -/
def State.fenceNow (s : State) (x : Sec) (ch : Fin 4) : State := if s.isFenced x ch then s else s.fenceChiplet x ch

def execChipletFence (x : Sec) (ch : Fin 4) (s : State) : Host.Outcome State Fault Refusal :=
  event (s.inTurn x (.fence ch false) fun s => s.fenceNow x ch)

/-! ## Admission (R419) -/

/-- Clear a sector's sequence windows for the origins on a chiplet. -/
def State.clearWindows (s : State) (x : Sec) (ch : Fin 4) : State :=
  s.modClusters x fun c => { c with windows := c.windows.filter fun w => !onChiplet ch w.1 }

/-- Start the master cores of a chiplet at an entry address. -/
def State.startMasters (s : State) (x : Sec) (ns : List (Fin 16)) (entry : Word) : State :=
  ns.foldl (fun s n =>
    let g : Agent := .master x n
    ((s.setHart g { Hart.resetMaster n.val with pc := entry }).setMaster x n Master.reset).enlist g) s

/-- Let free slots be given away: to saved images, and to allocation. -/
def State.offerSlots (s : State) (x : Sec) (is : List Nat) : State :=
  if (s.sec x).saved.isEmpty then s.offer x
  else is.foldl (fun s i => if s.slotFree x i then s.slotFreed x i else s) s

/-- Return a fenced chiplet to service: it is reset and tested, and the windows are cleared before its link carries
traffic. Its s1 is 0 as after any start but the sector's release. -/
def State.admitChiplet (s : State) (x : Sec) (ch : Fin 4) (entry : Word) : State :=
  let s := (s.wipeChiplet x ch).clearWindows x ch
  let s := s.startMasters x (mastersOf ch) entry
  let s := (mastersOf ch).foldl (fun s n => s.modHart (.master x n) fun h => h.putS 1 0) s
  let s := s.modSec x fun c => { c with fenced := c.fenced.set ch.val false }
  s.offerSlots x ((List.range 1536).map fun k => ch.val * 1536 + k)

/-- A chiplet that fails its test stays fenced; the outcome of the test is a free value (log entry 17). -/
def State.admitNow (s : State) (x : Sec) (ch : Fin 4) (entry : Word) : State :=
  if !s.isFenced x ch then s
  else
    let t := { s with freeCtr := s.freeCtr + 1 }
    if Config.selfTest s.freeCtr then t.admitChiplet x ch entry else t

def execChipletAdmit (x : Sec) (ch : Fin 4) (entry : BitVec 64) (s : State) : Host.Outcome State Fault Refusal :=
  event (s.inTurn x (.readmit ch entry) fun s => s.admitNow x ch entry)

end Sys2Proof.Machine
end

