-- ==== Sys2Proof/Machine/Reset.lean ====
section
/-! DEFINITION. Boot, release and reset of sectors, and what a reset means for the neighbours (R415, R416, R420, R421,
R427, R437). -/

namespace Sys2Proof.Machine

/-! ## Firmware images (R427) -/

/-- The fields of an image's header. -/
def imageField (bs : List Byte) (off n : Nat) : Nat := leNat (slice bs off n)
def imageLen (bs : List Byte) : Nat := imageField bs 16 8
def imageVbase (bs : List Byte) : Nat := imageField bs 24 8
def imageEntry (bs : List Byte) : Nat := imageField bs 32 8

/-- The body of an image. -/
def imageBody (bs : List Byte) : List Byte := slice bs 256 (imageLen bs)

/-- The digest of an image: 64 bytes. -/
def imageDigest (bs : List Byte) : List Byte :=
  shake512 (leBytes 1 (imageField bs 0 1) ++ leBytes 8 (imageField bs 8 8) ++ leBytes 8 (imageLen bs)
    ++ leBytes 8 (imageVbase bs) ++ leBytes 8 (imageEntry bs) ++ imageBody bs)

/-- The limits of a sector boot image. -/
def imageLimits (bs : List Byte) : Bool :=
  imageField bs 0 1 != 5 || (imageVbase bs % 65536 == 0 && decide (imageVbase bs < 0x00FF000000000000)
    && imageEntry bs % 4 == 0 && decide (imageVbase bs ≤ imageEntry bs)
    && decide (imageEntry bs + 4 ≤ imageVbase bs + imageLen bs))

/-- Horizon verifies an image: the signature, whose check is a free value (log entry 15), the rollback counter of its
kind, the limits, and that the body is there. -/
def State.verifies (s : State) (bs : List Byte) : Bool :=
  let kind := imageField bs 0 1
  decide (256 + imageLen bs ≤ bs.length) && imageLimits bs
    && decide (Sparse.get 0 s.hz.rollback kind ≤ imageField bs 8 8)
    && Config.imageVerifies kind (imageDigest bs) (slice bs 40 114)

/-- The image in a slot of Horizon's store. -/
def State.image (s : State) (k : Nat) : Option Image := Sparse.get none s.hz.images k

/-- The lowest slot that holds an image of a kind. -/
def State.imageOf (s : State) (kind : Nat) : Option Image :=
  firstSome (fun (e : Nat × Option Image) => match e.2 with
    | some i => if i.kind = kind then some i else none
    | none => none) s.hz.images

/-! ## The boot page tables (R415) -/

/-- A page mapped by boot firmware: virtual address and leaf entry. -/
abbrev BootLeaf := Nat × Nat

/-- The pages that boot firmware maps: the image body, the first 2 MiB of physical space, and the control window. -/
def bootLeaves (vbase len : Nat) : List BootLeaf :=
  ((List.range ((len + 65535) / 65536)).map fun i => (vbase + i * 65536, 0x200000 + i * 65536 + 0x3A))
  ++ ((List.range 32).map fun i => (0x00FF000000000000 + i * 65536, i * 65536 + 0x21A))
  ++ (List.range 4).map fun i => (0x00FFFF0000000000 + i * 65536, 0xFFF0000000000 + i * 65536 + 0x21A)

/-- The physical page of a boot table by its number: seven tables and more do not fit into the 0x4_0000 bytes that R415
names (log entry 25). -/
def bootTable (k : Nat) : Nat := if k < 4 then k * 65536 else (k + 1) * 65536

/-- The prefixes of the tables of a level that a list of pages needs, in order. -/
def bootPrefixes (ls : List BootLeaf) (shift : Nat) : List Nat :=
  ls.foldl (fun ps l => if ps.contains (l.1 / 2 ^ shift) then ps else ps ++ [l.1 / 2 ^ shift]) []

/-- The number of a table, by level and prefix. -/
def bootNumber (l1 l2 l3 : List Nat) (level p : Nat) : Nat :=
  match level with
  | 1 => 1 + l1.idxOf p
  | 2 => 1 + l1.length + l2.idxOf p
  | _ => 1 + l1.length + l2.length + l3.idxOf p

/-- A page of physical memory becomes zero. -/
def State.zeroPage (s : State) (x : Sec) (pa : Nat) : State :=
  { s with mem := Sparse.outside s.mem (memKey x pa) (memKey x pa + 65536) }.modSec x fun c =>
    { c with poison := c.poison.filter fun l => !(decide (pa / 128 ≤ l) && decide (l < pa / 128 + 512)) }

/-- Boot firmware writes the page tables of ASID 0 from physical 0; entries that map nothing are zero. -/
def State.writeBootTables (s : State) (x : Sec) (ls : List BootLeaf) : State :=
  let l1 := bootPrefixes ls 55
  let l2 := bootPrefixes ls 42
  let l3 := bootPrefixes ls 29
  let num := bootNumber l1 l2 l3
  let put := fun (s : State) (t idx e : Nat) => s.writePhys x (bootTable t + 8 * idx) (leBytes 8 e)
  let s := (List.range (1 + l1.length + l2.length + l3.length)).foldl (fun s t => s.zeroPage x (bootTable t)) s
  let s := l1.foldl (fun s p => put s 0 (p % 2) (bootTable (num 1 p) + 1)) s
  let s := l2.foldl (fun s p => put s (num 1 (p / 2 ^ 13)) (p % 2 ^ 13) (bootTable (num 2 p) + 1)) s
  let s := l3.foldl (fun s p => put s (num 2 (p / 2 ^ 13)) (p % 2 ^ 13) (bootTable (num 3 p) + 1)) s
  ls.foldl (fun s l => put s (num 3 (l.1 / 2 ^ 29)) (l.1 / 2 ^ 16 % 2 ^ 13) l.2) s

/-! ## The reset of a sector (R416, R420) -/

/-- What every agent and unit of a sector holds is gone; memory and Horizon keep theirs. -/
def State.wipeSector (s : State) (x : Sec) : State :=
  let c := x.val * 96
  let mine := fun (a : Actor) => secOf a.agent == x
  let run := match s.gen with
    | some r => match r.for_ with
      | .command y _ _ => y == x
      | .list y _ _ => y == x
      | .query g _ _ _ _ => secOf g == x
    | none => false
  let s := if run then s.stopRun else s
  { s with
    harts := Sparse.outside (Sparse.outside s.harts (x.val * 6144) ((x.val + 1) * 6144)) (24576 + x.val * 16)
      (24576 + x.val * 16 + 16)
    masters := Sparse.outside s.masters (24576 + x.val * 16) (24576 + x.val * 16 + 16)
    ctxs := Sparse.outside s.ctxs (x.val * 6144) ((x.val + 1) * 6144)
    clusters := Sparse.outside s.clusters c (c + 96)
    spad := Sparse.outside s.spad (c * 2 ^ 21) ((c + 96) * 2 ^ 21)
    spadEmpty := Sparse.outside s.spadEmpty (c * 2 ^ 18) ((c + 96) * 2 ^ 18)
    spadMarks := Sparse.outside s.spadMarks (c * 2 ^ 18) ((c + 96) * 2 ^ 18)
    accs := Sparse.outside s.accs (c * 2 ^ 18) ((c + 96) * 2 ^ 18)
    llc := Sparse.outside s.llc (x.val * 2 ^ 65) ((x.val + 1) * 2 ^ 65)
    copies := Sparse.outside s.copies (x.val * 2 ^ 65) ((x.val + 1) * 2 ^ 65)
    marks := Sparse.outside s.marks (x.val * 2 ^ 65) ((x.val + 1) * 2 ^ 65)
    turns := s.turns.filter fun g => secOf g != x || isMaster g
    flight := s.flight.filter fun f => f.sec != x
    tokens := s.tokens.filter fun t => t.sec != x
    bankq := s.bankq.filter fun b => !mine b.actor
    zreqs := s.zreqs.filter fun r => r.sec != x }

/-- Export entries at a reset (R421): closed, with the next generation. -/
def resetExports (es : Sparse Export) (powerOn : Bool) : Sparse Export :=
  if powerOn then []
  else
    let next := (List.range 4096).foldl (fun (m : Sparse Export) e =>
      Sparse.put Export.reset m e { Export.reset with gen := (Sparse.get Export.reset es e).gen + 1 }) []
    next

/-- The sector's own state at a reset. What Horizon holds stays: fenced chiplets, cap and clock, the boot slot, the
requests that it has still to carry out; poison and failing devices stay with memory. -/
def Sector.afterReset (c : Sector) (powerOn : Bool) : Sector :=
  { Sector.reset with
    power := .down, bootSlot := c.bootSlot, later := if powerOn then [] else c.later, cap := c.cap, clock := c.clock
    fenced := if powerOn then Vector.replicate 4 false else c.fenced
    exports := resetExports c.exports powerOn, poison := if powerOn then [] else c.poison
    badDevice := if powerOn then [] else c.badDevice }

/-- Memory of a sector becomes zero. -/
def State.scrubMemory (s : State) (x : Sec) : State :=
  { s with mem := Sparse.outside s.mem (x.val * 2 ^ 52) ((x.val + 1) * 2 ^ 52) }.modSec x fun c => { c with poison := [] }

/-- Write every dirty line of a sector to its frame; a line without a mapping is lost without a notice (R420). -/
def State.writeBackAll (s : State) (x : Sec) : State :=
  (s.llc.filter fun e => lineSec e.1 == x).foldl (fun s e => match e.2 with
    | some l => if l.dirty then (s.writeBack e.1 l false).1 else s
    | none => s) s

/-- Reset applies: the sector is held in reset. -/
def State.applyReset (s : State) (x : Sec) (powerOn : Bool) : State :=
  let scrub := (s.sec x).scrub
  let s := (s.wipeSector x).modSec x fun c => c.afterReset powerOn
  if scrub || powerOn then s.scrubMemory x else s

/-! ## Boot (R415) -/

/-- Measure a verified image into MRB (R429). -/
def State.measure (s : State) (x : Sec) (bs : List Byte) : State :=
  let kind := imageField bs 0 1
  let version := imageField bs 8 8
  let d := (imageDigest bs).take 32
  s.modSec x fun c =>
    { c with mrb := extendMr c.mrb kind (leBytes 8 version ++ d)
             mlog := c.mlog ++ [logEntry 0 kind 0 version 0 0 d] }

/-- Verify and measure the firmware of a kind; without an image that verifies the sector cannot start. -/
def State.loadFirmware (s : State) (x : Sec) (kind : Nat) : Option State :=
  match s.imageOf kind with
  | some i => if s.verifies i.bytes then some (s.measure x i.bytes) else none
  | none => none

/-- Load a sector's boot image (R415 steps 4 and 5): the body at 0x20_0000, the page tables, and the entry address. -/
def State.loadBoot (s : State) (x : Sec) : Option State :=
  match s.image (s.sec x).bootSlot with
  | none => none
  | some i =>
    if i.kind = 5 ∧ s.verifies i.bytes then
      let s := (s.measure x i.bytes).writePhys x 0x200000 (imageBody i.bytes)
      let s := s.writeBootTables x (bootLeaves (imageVbase i.bytes) (imageLen i.bytes))
      let s := s.startMasters x ((List.range 16).map (Fin.ofNat 16)) (word (imageEntry i.bytes))
      some (s.modSec x fun c => { c with power := .ready })
    else none

/-- Steps 3 to 5 of R415 for a sector: firmware of the Stratus, base and far-tier dies in this order, then the boot
image. A sector whose images fail is held in reset, and the management port reports it. -/
def State.boot (s : State) (x : Sec) : State :=
  let fail := { s with hz := { s.hz with reports := leBytes 8 (0xFF00 + x.val) :: s.hz.reports } }
  match s.loadFirmware x 2 with
  | none => fail
  | some s2 => match s2.loadFirmware x 4 with
    | none => fail
    | some s3 => match s3.loadFirmware x 3 with
      | none => fail
      | some s4 => match s4.loadBoot x with
        | none => fail
        | some t => t.post (.sectorRelease x)

/-- Horizon starts, verifies its own firmware, and boots the sectors in ascending order. -/
def execModulePowerOn (s : State) : Host.Outcome State Fault Refusal :=
  event (
    let s := ([0, 1, 2, 3] : List Sec).foldl (fun s x => s.applyReset x true) s
    let s := { s with bridges := Vector.replicate 6 true }
    match s.imageOf 1 with
    | some i =>
      if s.verifies i.bytes then
        ([0, 1, 2, 3] : List Sec).foldl (fun s x => s.boot x) { s with hz := { s.hz with running := i.version } }
      else s
    | none => s)

/-! ## Neighbours (R421) -/

/-- An import slot of a sector names another sector. -/
def State.importsFrom (s : State) (n x : Sec) (k : Nat) : Bool :=
  let h := (s.import_ n k).handle.toNat
  h != 0 && handleSec h == x

/-- An address in a peer window of a sector leads to another sector. -/
def State.leadsTo (s : State) (n x : Sec) (ea : Nat) : Bool :=
  decide (ea / 2 ^ 56 = 0xFE) && s.importsFrom n x (ea / 2 ^ 40 % 256)

/-- The running copy commands of a sector, with their clusters. -/
def State.copiesOf (s : State) (n : Sec) : List (Fin 96 × CpCmd) :=
  (s.clusters.filter fun e => e.1 / 96 == n.val).flatMap fun e => e.2.cpRunning.map fun c => (Fin.ofNat 96 e.1, c)

/-- Every outstanding request toward the resetting sector ends with PEER RESET: those on their way, and what copies,
gathers and scatters still had to move. -/
def State.answerReset (s : State) (n x : Sec) : State :=
  let reset := fun (ea : Nat) => fltAt cPEER peerReset ea
  let out := s.bankq.filter fun b => b.sec == n && b.far && !b.back && s.leadsTo n x b.ea
  let s := out.foldl (fun s b => s.failReq b (reset b.ea)) s
  let s := (s.copiesOf n).foldl (fun s p =>
    if s.leadsTo n x p.2.side ∧ !p.2.todo.isEmpty then
      s.modRunning n p.1 p.2.id fun c => c.fails (reset (c.side + (c.todo.head?.map (·.1)).getD 0))
    else s) s
  (s.sec n).asyncs.foldl (fun s a => match a.kind, a.todo with
    | .xgat, i :: _ | .xsct, i :: _ | .xsctadd _, i :: _ =>
      if s.leadsTo n x a.base then
        (s.modAsync n a.id fun a => { a with flt := a.flt.orElse fun _ => some { reset a.base with detail := i } }).post
          (.xgComplete n a.id)
      else s
    | _, _ => s) s

/-- Sleepers of a sector on words of another wake; the reload faults. -/
def State.wakeSleepersOn (s : State) (n x : Sec) : State :=
  let gs := s.harts.filterMap fun e => match e.2.park with
    | some (.sleep y _ _ _) => if y = x.val ∧ secOf (agentOfKey e.1) = n then some (agentOfKey e.1) else none
    | _ => none
  gs.foldl (fun s g => s.unpark g) s

/-- A neighbour stops its traffic with the resetting sector and puts its import slots out of force. -/
def State.quiesce (s : State) (x n : Sec) : State :=
  let s := (s.answerReset n x).wakeSleepersOn n x
  (List.range 256).foldl (fun s k =>
    if s.importsFrom n x k then s.setImport n k { s.import_ n k with valid := false, err := true } else s) s

/-- A quiesce request reaches a neighbour; one that is itself resetting does not answer, and its time runs out. -/
def execQuiesceRequest (x n : Sec) (s : State) : Host.Outcome State Fault Refusal :=
  event (
    if x = n then s
    else match (s.sec n).power with
      | .running | .settling _ => (s.quiesce x n).post (.quiesceDone x n)
      | .down | .ready | .resetting _ => s.post (.quiesceTimeout x n))

/-- What a sector has accepted is not complete (R420): messages and requests on their way, commands that can go on, and
jobs of Stratus. -/
def State.workLeft (s : State) (x : Sec) : Bool :=
  s.flight.any (fun f => f.sec == x) || s.bankq.any (fun b => b.sec == x) || s.zreqs.any (fun r => r.sec == x)
    || (s.clusters.filter fun e => e.1 / 96 == x.val).any (fun e =>
      let cl : Fin 96 := Fin.ofNat 96 e.1
      e.2.cpRunning.any (fun c => decide (c.op ≠ .sendg ∧ c.unaccepted ≠ 0) || (s.cpTurn x cl c).isSome)
        || (s.mxNextQueue x cl 0).isSome)
    || (s.sec x).asyncs.any fun a => match a.kind, a.todo with
      | .xgat, i :: _ | .xsct, i :: _ | .xsctadd _, i :: _ =>
        !((a.elemReads i).any fun r => s.belowMark x a.cluster (spadOff r.1) r.2)
      | _, _ => true

/-! ## Resets (R420) -/

/-- The other sectors. -/
def othersOf (x : Sec) : List Sec := ([0, 1, 2, 3] : List Sec).filter (· ≠ x)

/-- Every instance of a sector is aborted. -/
def State.abortEverything (s : State) (x : Sec) : State :=
  let s := (s.sec x).insts.foldl (fun s i => s.abortInst x i.uid false) s
  s.checkEnds x

/-- Step 1 begins: the agents stop, and what the sector has accepted goes on until it is complete. A trip turns an
orderly reset that is under way into a forced one. -/
def State.beginReset (s : State) (x : Sec) (forced : Bool) : State :=
  ((s.abortEverything x).modSec x fun c => { c with power := .settling forced }).post
    (if forced then .sectorResetForced x else .sectorResetOrderly x)

/-- The scrub flag of a reset that Horizon is asked for, and the reset. -/
def State.resetNow (s : State) (x : Sec) (forced scrub : Bool) : State :=
  (s.modSec x fun c => { c with scrub := scrub }).beginReset x forced

/-- An answer of the management port; the answer OK (R426). -/
def State.portReport (s : State) (b : List Byte) : State := { s with hz := { s.hz with reports := b :: s.hz.reports } }
def State.portOk (s : State) : State := s.portReport (leBytes 8 0)

/-- A request that has waited is carried out. -/
def State.runOne (s : State) (x : Sec) (l : Later) : State :=
  match l with
  | .fence ch answer =>
    let t := s.fenceNow x ch
    if answer then t.portOk else t
  | .readmit ch entry => s.admitNow x ch entry
  | .reset forced scrub => s.resetNow x forced scrub

/-- The requests that have waited are carried out in order, up to one that begins a reset (R426). -/
def State.runLater (s : State) (x : Sec) : List Later → State
  | [] => s.modSec x fun c => { c with later := [] }
  | l :: ls => if s.horizonFree x then (s.runOne x l).runLater x ls else s.modSec x fun c => { c with later := l :: ls }

/-- Horizon releases a booted sector into the state of R416; then the requests that have waited for it have their turn.
-/
def execSectorRelease (x : Sec) (s : State) : Host.Outcome State Fault Refusal :=
  event (if (s.sec x).power = .ready then
    (s.modSec x fun c => { c with power := .running }).runLater x (s.sec x).later else s)

/-- Step 6: reset applies and the sector starts again; if it cannot, it is held in reset, and the requests that have
waited have their turn. -/
def State.restart (s : State) (x : Sec) : State :=
  let t := (s.applyReset x false).boot x
  if (t.sec x).power = .down then t.runLater x (t.sec x).later else t

/-- Step 1 is over once everything accepted is complete: the neighbours are asked to be quiet; a forced reset waits for
none and writes no line back. -/
def State.settleReset (s : State) (x : Sec) (forced : Bool) : State :=
  if s.workLeft x then s.post (if forced then .sectorResetForced x else .sectorResetOrderly x)
  else
    let ask := (othersOf x).map fun n => Due.quiesceRequest x n
    if forced then (s.postAll ask).restart x
    else (s.modSec x fun c => { c with power := .resetting (othersOf x) }).postAll ask

/-- A neighbour has answered. When all have, lines are written back and the sector starts again (R420). -/
def State.answered (s : State) (x n : Sec) : State :=
  match (s.sec x).power with
  | .resetting ws =>
    let rest := ws.filter (· ≠ n)
    let t := s.modSec x fun c => { c with power := .resetting rest }
    if rest.isEmpty then (t.writeBackAll x).restart x else t
  | _ => s

def execQuiesceDone (x n : Sec) (s : State) : Host.Outcome State Fault Refusal := event (s.answered x n)

/-- A neighbour that is itself resetting counts as answered after its time, whatever it has become since. -/
def execQuiesceTimeout (x n : Sec) (s : State) : Host.Outcome State Fault Refusal := event (s.answered x n)

/-- An orderly reset begins or, while the sector settles, goes on. -/
def execSectorResetOrderly (x : Sec) (s : State) : Host.Outcome State Fault Refusal :=
  event (match (s.sec x).power with
    | .settling false => s.settleReset x false
    | .settling true => s
    | _ => s.inTurn x (.reset false (s.sec x).scrub) fun s => s.beginReset x false)

/-- A forced reset acts at once, whatever Horizon does for the sector: a reset that has settled goes on without its
neighbours' answers. -/
def State.forceReset (s : State) (x : Sec) : State :=
  match (s.sec x).power with
  | .settling true => s
  | .resetting _ => s.restart x
  | _ => s.beginReset x true

/-- A forced reset begins or, while the sector settles for it, goes on. -/
def execSectorResetForced (x : Sec) (s : State) : Host.Outcome State Fault Refusal :=
  event (if (s.sec x).power = .settling true then s.settleReset x true else s.forceReset x)

/-! ## Clock, heat and rails (R437) -/

/-- The core clock moves by 100 MHz between 1.6 GHz and the nominal clock; results never change. -/
def execClockStep (x : Sec) (up : Bool) (s : State) : Host.Outcome State Fault Refusal :=
  event (s.modSec x fun c =>
    { c with clock := if up then min 2700 (c.clock + 100) else max 1600 (c.clock - 100) })

def execThermalTrip (x : Sec) (s : State) : Host.Outcome State Fault Refusal := event (s.forceReset x)

/-- A rail fault resets the sectors that it affects. -/
def execRailFault (sectors : List Sec) (s : State) : Host.Outcome State Fault Refusal :=
  event ((([0, 1, 2, 3] : List Sec).filter sectors.contains).foldl (fun s x => s.forceReset x) s)

end Sys2Proof.Machine
end

