-- ==== Sys2Proof/Machine/Horizon.lean ====
section
/-! DEFINITION. Horizon: the mailbox protocol, telemetry, quotes, and the management port (R37, R422 to R430). -/

namespace Sys2Proof.Machine

/-! ## Records that Horizon writes -/

/-- Readings of sensors from the n-th free value on, `k` bytes each (R425; log entry 16). -/
def sensorBytes (n k count : Nat) : List Byte := (List.range count).flatMap fun i => leBytes k (Config.sensor (n + i))

/-- The telemetry record (R425), and the state with its readings used up. -/
def State.telemetryRecord (s : State) (x : Sec) : List Byte × State :=
  let c := s.sec x
  let n := s.freeCtr
  let b := leBytes 8 (1 + x.val * 256)
    ++ sensorBytes n 8 1
    ++ sensorBytes (n + 1) 4 2
    ++ leBytes 2 c.clock ++ leBytes 2 c.cap ++ leBytes 4 0
    ++ sensorBytes (n + 3) 2 8
    ++ sensorBytes (n + 11) 4 1 ++ leBytes 4 0
    ++ leBytes 8 c.telemetry.soft ++ leBytes 8 c.telemetry.correctable ++ leBytes 8 c.telemetry.uncorrectable
    ++ leBytes 8 c.telemetry.retries
    ++ leBytes 8 (bitsNat c.fenced.toList + bitsNat (s.bridges.toList.map (!·)) * 16)
    ++ List.replicate 160 0
  (b, { s with freeCtr := n + 12 })

/-- The power of the package's rails (R415, R422): the standby rail, the Stratus dies, the HBM4E stacks, the far-tier
dies and the compute chiplets, in this order, 4 bytes in mW each; the specification gives these records no layout
(DESIGN CHOICE, log entry 106). -/
def State.railReport (s : State) : List Byte × State :=
  (sensorBytes s.freeCtr 4 5, { s with freeCtr := s.freeCtr + 5 })

/-- The entries of a register in a measurement log. -/
def entriesOf (log : List (List Byte)) (reg : Nat) : Nat := (log.filter fun e => leNat (e.take 1) == reg).length

/-- A quote over a nonce of 64 bytes (R430). -/
def State.quote (s : State) (x : Sec) (nonce : List Byte) : List Byte :=
  let c := s.sec x
  let body := leBytes 8 (1 + x.val * 256) ++ (List.range 8).map Config.serial
    ++ leBytes 32 c.mrb.toNat ++ leBytes 32 c.mrs.toNat
    ++ leBytes 4 (entriesOf c.mlog 0) ++ leBytes 4 (entriesOf c.mlog 1)
    ++ nonce ++ leBytes 8 s.hz.running
  body ++ (List.range 114).map (Config.sign body)

/-! ## The mailbox protocol (R37, R423) -/

/-- The mailbox page (R415). -/
def mailboxPage : Nat := 0x40000

/-- Statuses of a response. -/
def hxOk : Nat := 0
def hxBadCmd : Nat := 1
def hxDenied : Nat := 2
def hxBusy : Nat := 3
def hxBadArg : Nat := 4

/-- What a command answers: its status, the body as offsets and bytes, and the state. -/
structure HxAnswer where
  status : Nat
  body : List (Nat × List Byte)
  state : State

/-- A response without a body. -/
def hxSay (status : Nat) (s : State) : HxAnswer := ⟨status, [], s⟩

/-- A request is answered: the response stands in line, and Horizon posts it when it has the lock. -/
def answerHx (x : Sec) (cmd : Nat) (a : HxAnswer) : State :=
  let w := cmd / 2 ^ 16 % 2 ^ 16 * 2 ^ 16 + a.status * 2 ^ 8
  (a.state.modSec x fun c => { c with hxResps := c.hxResps ++ [⟨BitVec.ofNat 32 w, a.body⟩] }).post (.horizonResponse x)

/-- Horizon takes the command word that has been sent, if it is the command expected: operator policy may refuse it (log
entry 22), and otherwise it is carried out on its argument. -/
def State.hxTake (s : State) (x : Sec) (n : Nat) (f : State → Nat → HxAnswer) : State :=
  let c := s.sec x
  let cmd := c.hxSent.toNat
  if !c.hxDbo ∨ cmd / 2 ^ 24 ≠ n ∨ c.power ≠ .running then s
  else
    let s := s.modSec x fun c => { c with hxDbo := false }
    let t := { s with freeCtr := s.freeCtr + 1 }
    if Config.policyDenies s.freeCtr then answerHx x cmd (hxSay hxDenied t)
    else answerHx x cmd (f t (cmd % 2 ^ 16))

/-- A number of the request body. -/
def State.hxBody (s : State) (x : Sec) (off n : Nat) : Nat := leNat (s.readPhys x (mailboxPage + off) n)

/-- A command whose argument must be 0. -/
def noArg (arg : Nat) (s : State) (f : State → HxAnswer) : HxAnswer := if arg = 0 then f s else hxSay hxBadArg s

def execHxQuote (x : Sec) (s : State) : Host.Outcome State Fault Refusal :=
  event (s.hxTake x 1 fun s arg => noArg arg s fun _ =>
    ⟨hxOk, [(0x100, s.quote x (s.readPhys x mailboxPage 64))], s⟩)

/-- READLOG answers up to 960 entries from the first one on. -/
def execHxReadlog (x : Sec) (s : State) : Host.Outcome State Fault Refusal :=
  event (s.hxTake x 2 fun s arg =>
    let es := ((s.sec x).mlog.drop arg).take 960
    ⟨hxOk, [(0x80, leBytes 8 es.length), (0x100, es.flatten)], s⟩)

def execHxTelem (x : Sec) (s : State) : Host.Outcome State Fault Refusal :=
  event (s.hxTake x 3 fun s arg => noArg arg s fun _ =>
    let r := s.telemetryRecord x
    ⟨hxOk, [(0x100, r.1)], r.2⟩)

/-- Fencing the chiplet would leave the sector without an interrupt master (R393, R424). -/
def State.lastChiplet (s : State) (x : Sec) (ch : Fin 4) : Bool :=
  !s.isFenced x ch && (([0, 1, 2, 3] : List (Fin 4)).filter fun c => !s.isFenced x c).length == 1

def execHxFence (x : Sec) (s : State) : Host.Outcome State Fault Refusal :=
  event (s.hxTake x 4 fun s arg =>
    let ch : Fin 4 := Fin.ofNat 4 arg
    if 4 ≤ arg then hxSay hxBadArg s
    else if s.lastChiplet x ch then hxSay hxDenied s
    else hxSay hxOk (if s.isFenced x ch then s else s.fenceChiplet x ch))

/-- The chiplet's test is a free value (log entry 17); one that fails leaves it fenced and is answered DENIED. -/
def execHxAdmit (x : Sec) (s : State) : Host.Outcome State Fault Refusal :=
  event (s.hxTake x 5 fun s arg =>
    let ch : Fin 4 := Fin.ofNat 4 arg
    if 4 ≤ arg then hxSay hxBadArg s
    else if !s.isFenced x ch then hxSay hxOk s
    else
      let t := { s with freeCtr := s.freeCtr + 1 }
      if Config.selfTest s.freeCtr then hxSay hxOk (t.admitChiplet x ch (word (s.hxBody x 0 8))) else hxSay hxDenied t)

/-- SRESET: there is no response; the sector resets. -/
def State.askReset (s : State) (x : Sec) (arg : Nat) : State :=
  (s.modSec x fun c => { c with scrub := arg % 2 == 1, bootSlot := arg / 256 % 256 }).beginReset x false

def execHxSreset (x : Sec) (s : State) : Host.Outcome State Fault Refusal :=
  event (
    let c := s.sec x
    let cmd := c.hxSent.toNat
    if !c.hxDbo ∨ cmd / 2 ^ 24 ≠ 6 ∨ c.power ≠ .running then s
    else
      let s := s.modSec x fun c => { c with hxDbo := false }
      let t := { s with freeCtr := s.freeCtr + 1 }
      if Config.policyDenies s.freeCtr then answerHx x cmd (hxSay hxDenied t)
      else if cmd / 2 % 128 ≠ 0 then answerHx x cmd (hxSay hxBadArg t)
      else t.askReset x (cmd % 2 ^ 16))

/-- NETCFG gives the network table its base, and the engines load it (R432). -/
def execHxNetcfg (x : Sec) (s : State) : Host.Outcome State Fault Refusal :=
  event (s.hxTake x 7 fun s arg => noArg arg s fun _ =>
    let base := s.hxBody x 0 8
    hxSay hxOk ((s.modSec x fun c => { c with netBase := some base }).loadNet x))

/-- PCIECFG gives the port its ring, its address space and the message address (R435). -/
def execHxPciecfg (x : Sec) (s : State) : Host.Outcome State Fault Refusal :=
  event (s.hxTake x 8 fun s arg => noArg arg s fun _ =>
    let ring := s.hxBody x 0 8
    let asid := BitVec.ofNat 16 (s.hxBody x 8 8)
    let msg := s.hxBody x 16 8
    hxSay hxOk (s.modSec x fun c =>
      { c with pcieRing := ring, pcieAsid := asid, pcieMsg := msg, pcieHead := 0, pcieOut := [] }))

def execHxPcap (x : Sec) (s : State) : Host.Outcome State Fault Refusal :=
  event (s.hxTake x 9 fun s arg => hxSay hxOk (s.modSec x fun c => { c with cap := arg }))

/-- Write a response body into the mailbox page. -/
def State.putBody (s : State) (x : Sec) (b : List (Nat × List Byte)) : State :=
  b.foldl (fun s p => s.writePhys x (mailboxPage + p.1) p.2) s

/-- Horizon releases the lock: a request of the sector that stands receives it. -/
def State.horizonUnlocks (s : State) (x : Sec) : State :=
  s.modSec x fun c => { c with hxHorizon := false, hxLock := c.hxLock || c.hxWant, hxWant := false }

/-- Horizon takes a word that is no command, and posts the oldest response once the sector does not hold the lock. -/
def State.respond (s : State) (x : Sec) : State :=
  let c := s.sec x
  let cmd := c.hxSent.toNat
  let other := c.hxDbo && decide (cmd / 2 ^ 24 = 0 ∨ 9 < cmd / 2 ^ 24)
  let s := if other then
      let s := s.modSec x fun c => { c with hxDbo := false }
      answerHx x cmd (hxSay hxBadCmd s)
    else s
  match (s.sec x).hxResps with
  | [] => s.horizonUnlocks x
  | r :: rest =>
    if (s.sec x).hxLock then s
    else
      let s := ((s.putBody x r.body).modSec x fun c =>
        { c with hxResps := rest, hxIn := r.word, hxDbi := true }).horizonUnlocks x
      let s := s.irqSector x irqHxm 0
      if rest.isEmpty then s else s.post (.horizonResponse x)

def execHorizonResponse (x : Sec) (s : State) : Host.Outcome State Fault Refusal :=
  event (if (s.sec x).power = .running then s.respond x else s)

/-! ## The management port (R422) -/

/-- The power of the rails and the telemetry of every sector are offered. -/
def execMgmtTelemetry (s : State) : Host.Outcome State Fault Refusal :=
  let q := s.railReport
  event (([0, 1, 2, 3] : List Sec).foldl (fun s x =>
    let r := s.telemetryRecord x
    r.2.portReport r.1) (q.2.portReport q.1))

/-- Stage an image in a slot, verify it, or commit it: a commit of a verified image advances its kind's rollback counter
(R427). -/
def execMgmtFirmware (r : FirmwareRequest) (s : State) : Host.Outcome State Fault Refusal :=
  event (
    let put := fun (k : Nat) (i : Image) =>
      { s with hz := { s.hz with images := Sparse.put none s.hz.images k (some i) } }
    match r with
    | .stage k bs => put k { kind := imageField bs 0 1, version := imageField bs 8 8, verified := false, bytes := bs }
    | .verify k => match s.image k with
      | some i => put k { i with verified := s.verifies i.bytes }
      | none => s
    | .commit k => match s.image k with
      | some i =>
        if i.verified then
          let old := Sparse.get 0 s.hz.rollback i.kind
          { s with hz := { s.hz with rollback := Sparse.put 0 s.hz.rollback i.kind (max old i.version) } }
        else s
      | none => s)

/-- Release a sector that is held in reset, or reset one; a reset waits for a release or reset under way (R426). -/
def execMgmtBootReset (x : Sec) (reset forced scrub : Bool) (s : State) : Host.Outcome State Fault Refusal :=
  event (
    if !reset then if (s.sec x).power = .down then s.boot x else s.post (.sectorRelease x)
    else
      s.inTurn x (.reset forced scrub) fun s => s.resetNow x forced scrub)

/-- Fence or admit a chiplet, or fence a bridge; a fence of a chiplet is answered OK, also of one that is fenced already
(R426). -/
def execMgmtFence (r : FenceRequest) (s : State) : Host.Outcome State Fault Refusal :=
  event (match r with
    | .fence x ch => s.inTurn x (.fence ch true) fun s => (s.fenceNow x ch).portOk
    | .bridge b => s.post (.bridgeFence b)
    | .readmit x ch entry => s.inTurn x (.readmit ch entry) fun s => s.admitNow x ch entry)

/-- Set a sector's cap, in units of 10 W. -/
def execMgmtPower (x : Sec) (cap : BitVec 32) (s : State) : Host.Outcome State Fault Refusal :=
  event (s.modSec x fun c => { c with cap := cap.toNat % 65536 })

/-- Issue a quote and the measurement log. -/
def execMgmtAttestation (x : Sec) (nonce : BitVec 512) (s : State) : Host.Outcome State Fault Refusal :=
  event ((s.portReport (s.quote x (leBytes 64 nonce.toNat))).portReport (s.sec x).mlog.flatten)

end Sys2Proof.Machine
end

