-- ==== Sys2Proof/Machine/Int.lean ====
section
/-! DEFINITION. The integer, bit, compare and predicate instructions (R108 to R121): each is a function on words and one
line over the operand forms. -/

namespace Sys2Proof.Machine

/-! ## Functions on words -/

/-- The low 32 bits, sign-extended. -/
def sextW (x : Word) : Word := sext 32 x

/-- Signed and unsigned selections (R111). -/
def minS (x y : Word) : Word := if x.slt y then x else y
def maxS (x y : Word) : Word := if x.slt y then y else x
def minU (x y : Word) : Word := if x.ult y then x else y
def maxU (x y : Word) : Word := if x.ult y then y else x

/-- The absolute value modulo 2^64 (R111). -/
def absW (x : Word) : Word := if bitAt x 63 then -x else x

/-- Shifts by an amount in bits [5:0] (R111, R113). -/
def shlBy (x : Word) (n : Nat) : Word := x <<< (n % 64)
def shrBy (x : Word) (n : Nat) : Word := x >>> (n % 64)
def sarBy (x : Word) (n : Nat) : Word := x.sshiftRight (n % 64)

/-- The high half of the exact products (R115). -/
def mulHigh (x y : Word) : Word := BitVec.ofInt 64 (x.toInt * y.toInt / 2 ^ 64)
def mulHighU (x y : Word) : Word := word (x.toNat * y.toNat / 2 ^ 64)

/-- Division with its defined cases (R115, R116). -/
def divS (x y : Word) : Word := if y = 0 then BitVec.allOnes 64 else BitVec.ofInt 64 (x.toInt.tdiv y.toInt)
def divU (x y : Word) : Word := if y = 0 then BitVec.allOnes 64 else word (x.toNat / y.toNat)
def remS (x y : Word) : Word := if y = 0 then x else BitVec.ofInt 64 (x.toInt.tmod y.toInt)
def remU (x y : Word) : Word := if y = 0 then x else word (x.toNat % y.toNat)

/-- Zeros above the highest one among the low `n` bits. -/
def clzFrom (v : Nat) : Nat → Nat
  | 0 => 0
  | n + 1 => if v / 2 ^ n % 2 = 1 then 0 else 1 + clzFrom v n

/-- Zeros below the lowest one from bit `i` on, `n` bits in all. -/
def ctzFrom (v i : Nat) : Nat → Nat
  | 0 => 0
  | n + 1 => if v / 2 ^ i % 2 = 1 then 0 else 1 + ctzFrom v (i + 1) n

/-- Ones among the low `n` bits. -/
def popFrom (v : Nat) : Nat → Nat
  | 0 => 0
  | n + 1 => v / 2 ^ n % 2 + popFrom v n

/-- Counts of a word (R117). -/
def clzW (x : Word) : Word := word (clzFrom x.toNat 64)
def ctzW (x : Word) : Word := word (ctzFrom x.toNat 0 64)
def popcW (x : Word) : Word := word (popFrom x.toNat 64)

/-- The bytes of a word in reverse order (R117). -/
def bswapW (x : Word) : Word := word (leNat (leBytes 8 x.toNat).reverse)

/-- Position and length of a bit field (R118). -/
def fieldPos (y : Word) : Nat := bitsOf y 0 6
def fieldLen (y : Word) : Nat := Nat.min (bitsOf y 8 7) (64 - fieldPos y)

/-- Bit-field extraction and insertion (R118). -/
def bfxW (x y : Word) : Word :=
  if fieldLen y = 0 then 0 else sextNat (fieldLen y) (bitsOf x (fieldPos y) (fieldLen y))
def bfxuW (x y : Word) : Word := word (bitsOf x (fieldPos y) (fieldLen y))
def bfiW (old x y : Word) : Word :=
  let m := word ((2 ^ fieldLen y - 1) * 2 ^ fieldPos y)
  (old &&& ~~~m) ||| ((x <<< fieldPos y) &&& m)

/-! ## INT (R111) -/

def execAdd (sm : Bool) (d a b : Fin 16) (s : State) := s.op2 sm d a b fun x y => x + y
def execSub (sm : Bool) (d a b : Fin 16) (s : State) := s.op2 sm d a b fun x y => x - y
def execAddw (sm : Bool) (d a b : Fin 16) (s : State) := s.op2 sm d a b fun x y => sextW (x + y)
def execSubw (sm : Bool) (d a b : Fin 16) (s : State) := s.op2 sm d a b fun x y => sextW (x - y)
def execAnd (sm : Bool) (d a b : Fin 16) (s : State) := s.op2 sm d a b fun x y => x &&& y
def execOr (sm : Bool) (d a b : Fin 16) (s : State) := s.op2 sm d a b fun x y => x ||| y
def execXor (sm : Bool) (d a b : Fin 16) (s : State) := s.op2 sm d a b fun x y => x ^^^ y
def execAndn (sm : Bool) (d a b : Fin 16) (s : State) := s.op2 sm d a b fun x y => x &&& ~~~y
def execShl (sm : Bool) (d a b : Fin 16) (s : State) := s.op2 sm d a b fun x y => shlBy x y.toNat
def execShr (sm : Bool) (d a b : Fin 16) (s : State) := s.op2 sm d a b fun x y => shrBy x y.toNat
def execSar (sm : Bool) (d a b : Fin 16) (s : State) := s.op2 sm d a b fun x y => sarBy x y.toNat
def execMin (sm : Bool) (d a b : Fin 16) (s : State) := s.op2 sm d a b minS
def execMax (sm : Bool) (d a b : Fin 16) (s : State) := s.op2 sm d a b maxS
def execMinu (sm : Bool) (d a b : Fin 16) (s : State) := s.op2 sm d a b minU
def execMaxu (sm : Bool) (d a b : Fin 16) (s : State) := s.op2 sm d a b maxU
def execAbs (sm : Bool) (d a : Fin 16) (s : State) := s.op1 sm d a absW
def execNeg (sm : Bool) (d a : Fin 16) (s : State) := s.op1 sm d a fun x => -x
def execMov (sm : Bool) (d a : Fin 16) (s : State) := s.op1 sm d a fun x => x
def execSh1add (sm : Bool) (d a b : Fin 16) (s : State) := s.op2 sm d a b fun x y => (x <<< 1) + y
def execSh2add (sm : Bool) (d a b : Fin 16) (s : State) := s.op2 sm d a b fun x y => (x <<< 2) + y
def execSh3add (sm : Bool) (d a b : Fin 16) (s : State) := s.op2 sm d a b fun x y => (x <<< 3) + y

/-! ## Immediates and shifts (R60, R61, R112, R113) -/

def execAddi (sm : Bool) (d a : Fin 16) (i : BitVec 17) (s : State) :=
  s.opImm sm d a 17 i.toNat true fun x y => x + y
def execAndi (sm : Bool) (d a : Fin 16) (i : BitVec 17) (s : State) :=
  s.opImm sm d a 17 i.toNat false fun x y => x &&& y
def execOri (sm : Bool) (d a : Fin 16) (i : BitVec 17) (s : State) :=
  s.opImm sm d a 17 i.toNat false fun x y => x ||| y
def execXori (sm : Bool) (d a : Fin 16) (i : BitVec 17) (s : State) :=
  s.opImm sm d a 17 i.toNat false fun x y => x ^^^ y

/-- `ldi` reads no register. -/
def execLdi (sm : Bool) (d : Fin 16) (i : BitVec 17) (s : State) : Host.Outcome State Fault Refusal :=
  s.issueImm sm fun s => done (s.wrS d (s.me.imm 17 i.toNat true))

def execShli (sm : Bool) (d a : Fin 16) (n : BitVec 6) (s : State) := s.op1 sm d a fun x => shlBy x n.toNat
def execShri (sm : Bool) (d a : Fin 16) (n : BitVec 6) (s : State) := s.op1 sm d a fun x => shrBy x n.toNat
def execSari (sm : Bool) (d a : Fin 16) (n : BitVec 6) (s : State) := s.op1 sm d a fun x => sarBy x n.toNat

/-- A comparison with a sign-extended immediate, whatever the condition (R114). -/
def execCmpi (sm : Bool) (p : Fin 8) (c : Cond) (a : Fin 16) (i : BitVec 15) (s : State) :
    Host.Outcome State Fault Refusal :=
  s.issueImm sm fun s => do
    let x ← s.rdS a
    done (s.wrP p (condHolds c x (s.me.imm 15 i.toNat true)))

/-! ## MUL and BIT (R115 to R118) -/

def execMul (sm : Bool) (d a b : Fin 16) (s : State) := s.op2 sm d a b fun x y => x * y
def execMulh (sm : Bool) (d a b : Fin 16) (s : State) := s.op2 sm d a b mulHigh
def execMulhu (sm : Bool) (d a b : Fin 16) (s : State) := s.op2 sm d a b mulHighU
def execMulw (sm : Bool) (d a b : Fin 16) (s : State) := s.op2 sm d a b fun x y => sextW (x * y)
def execDiv (sm : Bool) (d a b : Fin 16) (s : State) := s.op2 sm d a b divS
def execDivu (sm : Bool) (d a b : Fin 16) (s : State) := s.op2 sm d a b divU
def execRem (sm : Bool) (d a b : Fin 16) (s : State) := s.op2 sm d a b remS
def execRemu (sm : Bool) (d a b : Fin 16) (s : State) := s.op2 sm d a b remU
def execClz (sm : Bool) (d a : Fin 16) (s : State) := s.op1 sm d a clzW
def execCtz (sm : Bool) (d a : Fin 16) (s : State) := s.op1 sm d a ctzW
def execPopc (sm : Bool) (d a : Fin 16) (s : State) := s.op1 sm d a popcW
def execBswap (sm : Bool) (d a : Fin 16) (s : State) := s.op1 sm d a bswapW
def execBfx (sm : Bool) (d a b : Fin 16) (s : State) := s.op2 sm d a b bfxW
def execBfxu (sm : Bool) (d a b : Fin 16) (s : State) := s.op2 sm d a b bfxuW

/-- `bfi` reads its destination as a third source. -/
def execBfi (sm : Bool) (d a b : Fin 16) (s : State) : Host.Outcome State Fault Refusal :=
  s.issue sm fun s => do
    let x ← s.rdS a
    let y ← s.rdS b
    let old ← s.rdS d
    done (s.wrS d (bfiW old x y))

/-! ## CMP and PRED (R119, R120) -/

def execCmp (sm : Bool) (d : Fin 8) (a b : Fin 16) (c : Cond) (s : State) : Host.Outcome State Fault Refusal :=
  s.issue sm fun s => do
    let x ← s.rdS a
    let y ← s.rdS b
    done (s.wrP d (condHolds c x y))

/-- The operand `c` is MOD[0]: false for `.eq`, true for `.ne`. -/
def execTest (sm : Bool) (d : Fin 8) (a b : Fin 16) (c : Bool) (s : State) : Host.Outcome State Fault Refusal :=
  s.issue sm fun s => do
    let x ← s.rdS a
    let y ← s.rdS b
    done (s.wrP d ((x &&& y == 0) != c))

/-- Both sources are read whichever way the predicate points. -/
def execSel (sm : Bool) (d a b : Fin 16) (k : Fin 8) (s : State) : Host.Outcome State Fault Refusal :=
  s.issue sm fun s => do
    let x ← s.rdS a
    let y ← s.rdS b
    let p ← s.rdP k
    done (s.wrS d (if p then x else y))

def execPand (sm : Bool) (d a b : Fin 8) (s : State) := s.opP sm d a b fun x y => x && y
def execPor (sm : Bool) (d a b : Fin 8) (s : State) := s.opP sm d a b fun x y => x || y
def execPxor (sm : Bool) (d a b : Fin 8) (s : State) := s.opP sm d a b fun x y => x != y

def execPnot (sm : Bool) (d a : Fin 8) (s : State) : Host.Outcome State Fault Refusal :=
  s.issue sm fun s => do
    let x ← s.rdP a
    done (s.wrP d (!x))

/-- Predicates 7 to 1 and a one in bit 0 (R120). -/
def packPreds (p : Vector Bool 8) : Nat := 1 + ((List.range 8).drop 1).foldl (fun a i => a + (p.toList.getD i false).toNat * 2 ^ i) 0

def execPget (sm : Bool) (d : Fin 16) (s : State) : Host.Outcome State Fault Refusal :=
  s.issue sm fun s => match s.me.busyPred with
    | some k => .error (.interlock (.pred k))
    | none => done (s.wrS d (word (packPreds s.me.p)))

/-- The predicates after `pset` (R120). -/
def unpackPreds (h : Hart) (x : Word) : Hart :=
  ((List.range 8).map (Fin.ofNat 8)).foldl (fun h (k : Fin 8) => h.putP k (bitAt x k.val)) h

def execPset (sm : Bool) (a : Fin 16) (s : State) : Host.Outcome State Fault Refusal :=
  s.issue sm fun s => do
    let x ← s.rdS a
    done (s.modMe fun h => unpackPreds h x)

end Sys2Proof.Machine
end

