-- ==== Sys2Proof/Machine/JobReport.lean ====
section
/-! DEFINITION. `jwait` and `jpoll` (R268). -/

namespace Sys2Proof.Machine

/-- The record that an agent may report: its own vt's or master core's, and not detached. -/
def State.ownJob (s : State) (g : Agent) (id : Nat) : Option Job :=
  match s.job (secOf g) (s.jobOwner g) id with
  | some j => if id ≠ 0 ∧ j.vt = s.vtOf g ∧ !j.detached then some j else none
  | none => none

/-- The status word that reports a job that has ended (R268). -/
def statusWord (j : Job) : Word := if j.flt.isSome then 4 else word (j.info % 2 ^ 56 * 256 + j.status)

/-- Free a record that has been reported. -/
def State.freeJob (s : State) (g : Agent) (id : Nat) : State := s.setJob (secOf g) (s.jobOwner g) id none

/-- The common part of the reports: the status of a record that is not running is an acquire; a fault that has not
been reported is raised. -/
def State.report (s : State) (sm : Bool) (d a : Fin 16) (running : Nat → Except Stop (State × Next)) :
    Host.Outcome State Fault Refusal :=
  s.issue sm fun s => do
    let v ← s.rdS a
    let id := v.toNat % 65536
    match s.ownJob s.cur id with
    | none => done (s.wrS d 0xFF)
    | some j =>
      if j.running then running id
      else do
      s.acquiring true
      match j.flt, j.reported with
        | some f, false =>
          let t := s.setJob (secOf s.cur) (s.jobOwner s.cur) id (some { j with reported := true })
          .ok (t.acquired.raise { f with job := id }, .stay)
        | _, _ => done ((s.freeJob s.cur id).acquired.wrS d (statusWord j))

def execJwait (sm : Bool) (d a : Fin 16) (s : State) : Host.Outcome State Fault Refusal :=
  s.report sm d a fun id => .error (.park (.jwait id d))

def execJpoll (sm : Bool) (d a : Fin 16) (s : State) : Host.Outcome State Fault Refusal :=
  s.report sm d a fun _ => done (s.wrS d 0)

/-- A parked `jwait` completes with the status; where the job's fault is to be raised, or an earlier release is open
(R311), the instruction executes again. -/
def execJwaitComplete (g : Agent) (s : State) : Host.Outcome State Fault Refusal :=
  event (match (s.hart g).park with
    | some (.jwait id d) => match s.ownJob g id with
      | none => s.completeParked g fun h => h.putS d 0xFF
      | some j =>
        if j.running then s
        else if (j.flt.isSome && !j.reported) || s.releaseOpen g then s.unpark g
        else
          (s.freeJob g id).completeParked g fun h => { h.putS d (statusWord j) with roSeq := s.wseq }
    | _ => s)

end Sys2Proof.Machine
end

