-- ==== Sys2Proof/Machine/Pcie.lean ====
section
/-! DEFINITION. The PCIe root port (R435): the descriptor ring, DMA of endpoints, and messages. The layout of the ring
and of a descriptor is not stated and stands in constants without a value (log entry 24). -/

namespace Sys2Proof.Machine

/-- The address of a descriptor by its number in the order of posting. -/
def pcieSlot (ring k : Nat) : Nat := ring + Config.pcieFirst + 64 * (k % Config.pcieSlots)

/-- The tail word has changed: the port begins every descriptor that has been posted. -/
def execPcieDescriptorRing (x : Sec) (s : State) : Host.Outcome State Fault Refusal :=
  event (
    let c := s.sec x
    if c.pcieRing = 0 ∨ c.power ≠ .running then s
    else match s.readHome x c.pcieAsid (c.pcieRing + Config.pcieTail) 8 (portAcc .read) with
      | .error (.busy, _) => s.post (.pcieDescriptorRing x)
      | .error _ => s
      | .ok (bs, t) =>
        let tail := leNat bs
        let new := (List.range (min (tail - c.pcieHead) Config.pcieSlots)).map fun i => c.pcieHead + i
        t.modSec x fun c => { c with pcieHead := c.pcieHead + new.length, pcieOut := c.pcieOut ++ new })

/-- An endpoint answers a descriptor that has been begun: the port writes status and read data into it. While a set is
full of pinned lines the answer is not taken (R331). -/
def execPcieCompletion (x : Sec) (slot : Nat) (status : BitVec 16) (data : List (BitVec 8)) (s : State) :
    Host.Outcome State Fault Refusal :=
  event (
    let c := s.sec x
    if !c.pcieOut.contains slot ∨ c.power ≠ .running then s
    else
      let a := pcieSlot c.pcieRing slot
      let t := s.modSec x fun c => { c with pcieOut := c.pcieOut.erase slot }
      let p := t.portStore x c.pcieAsid (a + Config.pcieData % 64) (data.take (64 - Config.pcieData % 64))
      let q := p.1.portStore x c.pcieAsid (a + Config.pcieStatus % 63) (leBytes 2 status.toNat)
      if p.2 = some .busy ∨ q.2 = some .busy then s else q.1)

/-- An endpoint's message: a note to the master core that bits [3:0] name, with bits [31:8] as payload (R304). -/
def State.pcieNote (s : State) (x : Sec) (v : Nat) : State := s.irq x (Fin.ofNat 16 v) irqIpi (word (v / 2 ^ 8 % 2 ^ 24))

def execPcieMessageWrite (x : Sec) (v : BitVec 64) (s : State) : Host.Outcome State Fault Refusal :=
  event (if (s.sec x).power = .running then s.pcieNote x v.toNat else s)

/-- How the port answers a failure: a sealed line gives Completer Abort, and so does poisoned data; a page without a
valid mapping gives Unsupported Request. A full set is waited for and not answered (R331). -/
def dmaReply : HomeErr → DmaReply
  | .page _ => .unsupported
  | .sealMap => .abort
  | .seal => .abort
  | .race => .abort
  | .mce _ => .abort
  | .busy => .abort

/-- The port's answer to the endpoint. -/
def State.dmaAnswer (s : State) (x : Sec) (r : DmaReply) (bs : List Byte) : State :=
  s.modSec x fun c => { c with pcieReplies := (r, bs) :: c.pcieReplies }

/-- An endpoint reads or writes memory; a write to the message address is a message. -/
def execPcieDma (x : Sec) (r : PcieDma) (s : State) : Host.Outcome State Fault Refusal :=
  event (
    let c := s.sec x
    if c.power ≠ .running then s
    else if r.write ∧ c.pcieMsg ≠ 0 ∧ r.va = c.pcieMsg then
      (s.pcieNote x (leNat (r.data.take 4))).dmaAnswer x .success []
    else if 2 ^ 56 < r.va + r.len then s.dmaAnswer x .unsupported []
    else if r.write then
      match s.portStore x c.pcieAsid r.va (r.data.take r.len) with
      | (t, none) => t.dmaAnswer x .success []
      | (_, some .busy) => s
      | (t, some e) => t.dmaAnswer x (dmaReply e) []
    else match s.portBytes x c.pcieAsid (chunks r.va r.len) with
      | .ok (bs, t) => t.dmaAnswer x .success bs
      | .error .busy => s
      | .error e => s.dmaAnswer x (dmaReply e) [])

end Sys2Proof.Machine
end

