-- ==== Sys2Proof/Machine/Sync.lean ====
section
/-! DEFINITION. Fences and transactions (R169 to R175) and the hints (R61 to R65). -/

namespace Sys2Proof.Machine

/-! ## Fences (R169, R170) -/

/-- A `fence` of a master core counts for its instruction fetch (R130). -/
def State.noteFence (s : State) : State :=
  match s.cur with
  | .thread _ _ => s
  | .master x n => s.modMaster x n fun m => { m with fenced := true }

/-- Order rlx is no form (R169). The accesses before a fence are accepted before any access after it; an acquire fence
begins a new interval of the read-only path (R124, R311). -/
def execFence (sm : Bool) (_c : Scope) (o : Order) (s : State) : Host.Outcome State Fault Refusal :=
  s.issue sm fun s => do
    require (o != .rlx) (flt cILL 0)
    s.released true
    done (if isAcq o then s.noteFence.acquired else s.noteFence)

def execFpush (sm : Bool) (s : State) : Host.Outcome State Fault Refusal :=
  s.issue sm fun s => done (s.modMe fun h => { h with pushEpoch := h.pushEpoch + 1 })

def execFwait (sm : Bool) (s : State) : Host.Outcome State Fault Refusal :=
  s.issue sm fun s => if s.storesDone s.cur then done s else .error (.interlock .stores)

/-! ## Transactions (R172 to R175) -/

/-- The first s register with an outstanding write of the own instructions: a checkpoint holds none (R172). -/
def Hart.claimedReg (h : Hart) : Option (Fin 16) :=
  ((List.range 16).map (Fin.ofNat 16)).find? fun r => (h.s.get r).claimed

/-- The transaction that an outermost `xbeg` begins. -/
def Hart.beginTx (h : Hart) (d : Fin 16) : Tx :=
  { depth := 1, regs := h.s, preds := h.p, dest := d, resume := h.pc + 4, reads := [], writes := [], buf := []
    vs := [], ms := [], qs := [], unread := h.unread }

def execXbeg (sm : Bool) (d : Fin 16) (s : State) : Host.Outcome State Fault Refusal :=
  s.issue sm fun s =>
    match s.me.tx with
    | some t =>
      if t.depth = 7 then .error (.abort txNest 0)
      else done ((s.modMe fun h => { h with tx := some { t with depth := t.depth + 1 } }).wrS d 0)
    | none => match s.me.claimedReg with
      | some r => .error (.interlock (.result r))
      | none =>
        match s.me.busyPred with
        | some k => .error (.interlock (.pred k))
        | none => done ((s.modMe fun h => { h with tx := some (h.beginTx d) }).wrS d 0)

/-- The buffered bytes as runs that lie in one line each: byte key and bytes. -/
def txRuns : Sparse (Option Byte) → List (Nat × List Byte)
  | [] => []
  | (_, none) :: m => txRuns m
  | (k, some b) :: m => match txRuns m with
    | (j, bs) :: rs => if j = k + 1 ∧ j % 128 ≠ 0 then (k, b :: bs) :: rs else (k, [b]) :: (j, bs) :: rs
    | [] => [(k, [b])]

/-- Write the runs at their homes; a master core's own copies of the lines are updated (R334). -/
def State.commitRuns (s : State) (g : Agent) (rs : List (Nat × List Byte)) : Except Stop State :=
  rs.foldlM (fun (s : State) r =>
    let a : Acc := { kind := .write, app := !s.sysLevel g, nc := false, race := none }
    let asid := BitVec.ofNat 16 (r.1 / 2 ^ 56)
    let k := lineKey (secOf g) asid (r.1 % 2 ^ 56)
    (liftHome g .write (s.writeHome (secOf g) asid (r.1 % 2 ^ 56) r.2 a)).map fun t => t.keepCopy k (s.ownCopy g k)) s

/-- The entries that a commit adds to the record of overwritten bytes belong to one moment (R172). -/
def State.oneMoment (s : State) (x : Sec) (seq : Nat) : State :=
  { s.modSec x fun c => { c with wlog := c.wlog.map fun e => if seq < e.1 then (seq + 1, e.2) else e } with
    wseq := min s.wseq (seq + 1) }

/-- The commit at depth zero (R172): the writes are accepted at home in one step, and tracking ends. -/
def State.commitTx (s : State) (g : Agent) (t : Tx) : Except Stop State := do
  let x := secOf g
  let seq := s.wseq
  let s := (s.modHart g fun h => { h with tx := none }).clearMarks g (t.reads ++ t.writes)
  let s ← s.commitRuns g (txRuns t.buf)
  .ok (s.oneMoment x seq)

def execXcom (sm : Bool) (s : State) : Host.Outcome State Fault Refusal :=
  s.issue sm fun s =>
    match s.me.tx with
    | none => done s
    | some t =>
      if 1 < t.depth then done (s.modMe fun h => { h with tx := some { t with depth := t.depth - 1 } })
      else do
        s.released true
        let s ← s.commitTx s.cur t
        done s.acquired

def execXabt (sm : Bool) (a : Fin 16) (s : State) : Host.Outcome State Fault Refusal :=
  s.issue sm fun s => do
    let v ← s.rdS a
    if s.me.tx.isSome then .error (.abort txExplicit (v.toNat % 256)) else done s

/-! ## Hints (R61 to R65) -/

/-- A prefix joins the chain; a fourth raises ILL (R61, R62). -/
def execHimm (i : BitVec 21) (s : State) : Host.Outcome State Fault Refusal :=
  if 3 ≤ s.me.chain.length then .next (s.raise (flt cILL 0))
  else .next (s.modMe fun h =>
    { h with chain := h.chain ++ [i], chainPc := if h.chain.isEmpty then h.pc else h.chainPc, pc := h.pc + 4
             instret := h.instret + 1 })

/-- The class of a hint (R64). -/
def hintClass (c : Fin 4) : LineClass :=
  match c with
  | 1 => .stream
  | 2 => .keep
  | _ => .normal

/-- A ninth `keep` line of a set makes the oldest `normal` (R330). -/
def State.capKeep (s : State) (k : Nat) : State :=
  let ks := (s.setLines k).filter fun e => e.2.cls = .keep
  if ks.length ≤ 8 then s
  else match victimOf ks with
    | some v => match s.line v with
      | some l => s.setLine v (some { l with cls := .normal })
      | none => s
    | none => s

/-- The line of an address whose page is mapped. -/
def State.hintMapped (s : State) (x : Sec) (asid : BitVec 16) (va : Nat) : Option Nat :=
  match s.translateAs x asid va false with
  | .ok _ => some (lineKey x asid va)
  | .error _ => none

/-- The line that holds an address, for a hint; none when the address names none (R64). -/
def State.hintLine (s : State) (g : Agent) (ea : Word) : Option Nat :=
  match placeOf g ea.toNat 1 with
  | .ok (.app va) => s.hintMapped (secOf g) (s.asidOf g) va
  | .ok (.peer slot off) => match s.peerCheck (secOf g) slot off 1 .read with
    | .ok (y, asid, va) => s.hintMapped y asid va
    | .error _ => none
  | _ => none

/-- Set the replacement class of a held line. -/
def State.setClass (s : State) (k : Nat) (c : LineClass) : State :=
  match s.line k with
  | some l => (s.setLine k (some { l with cls := c })).capKeep k
  | none => s

/-- `hloc` never parks: with an empty register, or an address that names no held line, it has no effect. -/
def execHloc (r : Fin 16) (c : Fin 4) (_x : BitVec 15) (s : State) : Host.Outcome State Fault Refusal :=
  s.issue false fun s =>
    if (s.me.s.get r).full then match s.hintLine s.cur (s.valS r) with
      | some k => done (s.setClass k (hintClass c))
      | none => done s
    else done s

def execHbr (_h : Fin 4) (_x : BitVec 19) (s : State) : Host.Outcome State Fault Refusal := s.issue false done

def execHpri (_x : BitVec 19) (c : Fin 4) (s : State) : Host.Outcome State Fault Refusal :=
  s.issue false fun s => done (s.modMe fun h => { h with hpri := c })

/-- No kind of `hmu` is implemented (R65). -/
def execHmu (k : BitVec 5) (_a : BitVec 16) (s : State) : Host.Outcome State Fault Refusal :=
  s.issue false fun _ => fault (flt cHMU k.toNat)

def execHintReserved (_k : Fin 16) (_x : BitVec 21) (s : State) : Host.Outcome State Fault Refusal := s.issue false done

end Sys2Proof.Machine
end

