-- ==== Sys2Proof/Machine/Vec.lean ====
section
/-! DEFINITION. Lanes of vector registers, the operand forms of the vector instructions, and the lane functions that are
not yet among the flags (R176 to R182). -/

namespace Sys2Proof.Machine

/-! ## Lanes (R88, R90, R177) -/

/-- The width of a lane or element of a tag; a RAW register counts as 64-bit lanes. -/
def tagWidth : Tag → Nat
  | .raw | .i64 | .f64 => 64
  | .i32 | .f32 => 32
  | .i16 | .bf16 | .f16 => 16
  | .e2m1x => 4
  | .i8 | .u8 | .e4m3 | .e5m2 | .b8 => 8
  | .inv => 64

/-- The number of lanes of a tag. -/
def tagLanes (t : Tag) : Nat := 512 / tagWidth t

/-- The lanes of a register under a tag, lowest first. -/
def lanesAs (t : Tag) (b : VBody) : List Nat := lanesOf (tagLanes t) (tagWidth t) b.toNat

/-- The lanes of a register under its own tag. -/
def VReg.lanes (r : VReg) : List Nat := lanesAs r.tag r.body

/-- The tags of floating-point lanes that the arithmetic forms accept (R181). -/
def arithFmt : Tag → Option FFmt
  | .f64 => some fp64
  | .f32 => some fp32
  | .bf16 => some bf16
  | .f16 => some fp16
  | _ => none

/-- A tag of block elements. -/
def isBlock : Tag → Bool
  | .e2m1x | .b8 => true
  | _ => false

/-- A tag of an integer format. -/
def isInt (t : Tag) : Bool := (intOfTag t).isSome

/-- The bits that the destination held, zero when it was void (R178). -/
def State.oldBody (s : State) (d : Fin 16) : Nat := if (s.vreg d).tag = .inv then 0 else (s.vreg d).body.toNat

/-- Lanes of the result over those of the old bits: a lane that is given replaces the old one. -/
def mergeLanes (w old : Nat) : List (Option (Nat × Nat)) → List Nat
  | [] => []
  | l :: ls => (match l with
    | some v => v.1
    | none => old % 2 ^ w) :: mergeLanes w (old / 2 ^ w) ls

/-- The flags of the given lanes (R98). -/
def laneFlags (ls : List (Option (Nat × Nat))) : Nat :=
  ls.foldl (fun f l => match l with
    | some v => f ||| v.2
    | none => f) 0

/-- The lanes that a mask leaves active. -/
def activeOnly {α : Type} (m : Word) (ls : List α) : List (Option α) :=
  ls.zipIdx.map fun p => if bitAt m p.2 then some p.1 else none

/-- Write a result: given lanes with their flags, the others as the destination held them (R178, R179). -/
def State.putLanes (s : State) (d : Fin 16) (t : Tag) (side : Word) (ls : List (Option (Nat × Nat))) : State :=
  (s.addFlags (laneFlags ls)).wrV d
    ⟨t, BitVec.ofNat 512 (ofLanes (tagWidth t) (mergeLanes (tagWidth t) (s.oldBody d) ls)), side⟩

/-- A form with an FP64 operand runs on a core with D (R68, R179). -/
def State.dIf (s : State) (d : Bool) (b : Body) : Except Stop (State × Next) := if d then s.withD b else b s

/-- A lane function of a tag: on integer lanes of a width and signedness, or of a floating-point format. -/
def laneOp2 (t : Tag) (rnd : Rnd) (fi : Option (Nat → Bool → Nat → Nat → Nat))
    (ff : Option (FFmt → Rnd → Nat → Nat → Nat × Nat)) : Option (Nat → Nat → Nat × Nat) :=
  match intOfTag t, arithFmt t with
  | some (w, sg), _ => fi.map fun f => fun x y => (f w sg x y % 2 ^ w, 0)
  | none, some q => ff.map fun f => f q rnd
  | none, none => none

/-- FMT when there is no value (R92). -/
def orFmt {α : Type} (o : Option α) : Except Stop α :=
  match o with
  | some a => .ok a
  | none => fault (flt cFMT 0)

/-- The second operands of a two-source form: lanes of a register, or S[VB] in every lane (R180). -/
def State.secondLanes (s : State) (t : Tag) (b : Fin 16) (scalar : Bool) : Except Stop (List Nat) :=
  if scalar then do
    let y ← s.rdS b
    .ok (List.replicate (tagLanes t) (y.toNat % 2 ^ tagWidth t))
  else .ok (lanesAs t (s.vreg b).body)

/-- The register that a two-source form reads as VB, checked not to be void; with `.s` it reads none. -/
def State.rdVb (s : State) (a : VReg) (b : Fin 16) (scalar : Bool) : Except Stop VReg :=
  if scalar then .ok a else s.rdV b

/-- A two-source form of VAR or VBIT under an activity mask (R180, R181, R183). -/
def State.vec2 (s : State) (sm : Bool) (d a b : Fin 16) (m : Fin 8) (scalar : Bool)
    (fi : Option (Nat → Bool → Nat → Nat → Nat)) (ff : Option (FFmt → Rnd → Nat → Nat → Nat × Nat)) :
    Host.Outcome State Fault Refusal :=
  s.issue sm fun s => do
    let va ← s.rdV a
    let vb ← s.rdVb va b scalar
    let mk ← s.rdM m
    let f ← orFmt (laneOp2 va.tag (arithRnd s.me.fmode) fi ff)
    require (vb.tag == va.tag) (flt cFMT 0)
    s.dIf (va.tag == .f64) fun s => do
      let ys ← s.secondLanes va.tag b scalar
      done (s.putLanes d va.tag 0 (activeOnly mk ((va.lanes.zip ys).map fun p => f p.1 p.2)))

/-- A one-source form under an activity mask. -/
def State.vec1 (s : State) (sm : Bool) (d a : Fin 16) (m : Fin 8)
    (fi : Option (Nat → Bool → Nat → Nat)) (ff : Option (FFmt → Rnd → Nat → Nat × Nat)) :
    Host.Outcome State Fault Refusal :=
  s.issue sm fun s => do
    let va ← s.rdV a
    let mk ← s.rdM m
    let f ← orFmt (laneOp2 va.tag (arithRnd s.me.fmode) (fi.map fun g => fun w sg x _ => g w sg x)
      (ff.map fun g => fun q r x _ => g q r x))
    s.dIf (va.tag == .f64) fun s =>
      done (s.putLanes d va.tag 0 (activeOnly mk (va.lanes.map fun x => f x 0)))

/-! ## Reciprocals, reciprocal roots and powers of two (R182) -/

/-- 1/a rounded once. -/
def FFmt.rcp (f : FFmt) (rnd : Rnd) (a : Nat) : Nat × Nat :=
  let q := Num.div (.fin false 1 0) (f.decode a)
  withFlags (f.round rnd q.1) q.2

/-- 1/√a: its number, exact or with a sticky bit, and DZ for a zero. -/
def Num.rsqrt (a : Num) : Num × Nat :=
  match a with
  | .nan x => (.nan x, 0)
  | .inf neg => if neg then (.nan true, 0) else (.fin false 0 0, 0)
  | .fin neg m e =>
    if m = 0 then (.inf neg, fDZ)
    else if neg then (.nan true, 0)
    else
      let odd := e % 2 != 0
      let m := if odd then 2 * m else m
      let e := if odd then e - 1 else e
      let k := 132 + lenOf m
      let r := isqrt (2 ^ (2 * k) / m)
      (.fin false (sticky r (r * r * m != 2 ^ (2 * k))) (-(e / 2) - (k : Nat) - 1), 0)

def FFmt.rsq (f : FFmt) (rnd : Rnd) (a : Nat) : Nat × Nat :=
  let q := (f.decode a).rsqrt
  withFlags (f.round rnd q.1) q.2

/-- The precision with which 2^x is computed, in bits: far beyond what any rounding of these formats can need. -/
def expBits : Nat := 256

/-- 2^(b/2^n) × 2^256 rounded down, from the root 2^(1/2^i) × 2^256 of the step before. -/
def exp2From : Nat → Nat → Nat → Nat → Nat
  | 0, _, _, acc => acc
  | n + 1, b, root, acc =>
    let root := isqrt (root * 2 ^ expBits)
    exp2From n (b % 2 ^ n) root (if 2 ^ n ≤ b then acc * root / 2 ^ expBits else acc)

/-- 2^a for a finite value a that is not zero, exact for an integer a, else with a sticky bit. -/
def exp2Fin (neg : Bool) (m : Nat) (e : Int) : Num :=
  let top := e + lenOf m
  if 13 < top then .fin false 1 (if neg then -9000 else 9000)
  else if top < -70 then
    if neg then .fin false (sticky (2 ^ expBits - 1) true) (-(expBits : Nat) - 1)
    else .fin false (sticky (2 ^ expBits) true) (-(expBits : Nat) - 1)
  else
    let n : Nat := 128
    let v : Int := (m * 2 ^ (e + n).toNat : Nat)
    let v := if neg then -v else v
    let whole := v / (2 ^ n : Nat)
    let frac := (v % (2 ^ n : Nat)).toNat
    if frac = 0 then .fin false 1 whole
    else .fin false (sticky (exp2From n frac (2 ^ (expBits + 1)) (2 ^ expBits)) true) (whole - (expBits : Nat) - 1)

/-- 2^a (R182). -/
def Num.exp2 (a : Num) : Num :=
  match a with
  | .nan x => .nan x
  | .inf neg => if neg then .fin false 0 0 else .inf false
  | .fin neg m e => if m = 0 then .fin false 1 0 else exp2Fin neg m e

def FFmt.exp2 (f : FFmt) (rnd : Rnd) (a : Nat) : Nat × Nat := f.round rnd (f.decode a).exp2

/-! ## Integer lanes (R78, R79, R181, R183) -/

/-- A lane function on exact integers, cut to the width. -/
def intLane (g : Int → Int → Int) (w : Nat) (sg : Bool) (x y : Nat) : Nat := modPow w (g (intVal w sg x) (intVal w sg y))

/-- A saturating lane function. -/
def satLane (g : Int → Int → Int) (w : Nat) (sg : Bool) (x y : Nat) : Nat :=
  modPow w (Max.max (intLo w sg) (Min.min (intHi w sg) (g (intVal w sg x) (intVal w sg y))))

/-- Leading zero bits and one bits of a `w`-bit number. -/
def clzLane (w x : Nat) : Nat := w - lenOf (x % 2 ^ w)
def popLane (w x : Nat) : Nat := ((List.range w).filter fun i => x / 2 ^ i % 2 == 1).length

/-! ## Conversions between lanes (R97, R195) -/

/-- Convert a lane of one format into another: bits and flags. -/
def convertLane (src dst : Tag) (rnd : Rnd) (v : Nat) : Nat × Nat :=
  match intOfTag src, intOfTag dst, fmtOfTag src, fmtOfTag dst with
  | some (ws, ss), some (wd, _), _, _ => (modPow wd (intVal ws ss v), 0)
  | some (ws, ss), none, _, some g => g.round rnd (.ofInt (intVal ws ss v))
  | none, some (wd, sd), some f, _ =>
    let r := toInt rnd (intLo wd sd) (intHi wd sd) (f.decode v)
    (modPow wd r.1, r.2)
  | none, none, some f, some g => g.round rnd (f.decode v)
  | _, _, _, _ => (0, 0)

/-- Apply a conversion to the lanes that are given, in ascending order, each with its own step under SR (R94). -/
def convertLanes (fmode : Word) (steps : Bool) (f : Rnd → Nat → Nat × Nat) :
    List (Option Nat) → Word → List (Option (Nat × Nat)) × Word
  | [], seed => ([], seed)
  | none :: ls, seed =>
    let r := convertLanes fmode steps f ls seed
    (none :: r.1, r.2)
  | some x :: ls, seed =>
    let q := if steps then cvtRnd fmode seed else (arithRnd fmode, seed)
    let r := convertLanes fmode steps f ls q.2
    (some (f q.1 x) :: r.1, r.2)

end Sys2Proof.Machine
end

