-- ==== Sys2Proof/Machine/VecMem.lean ====
section
/-! DEFINITION. Vector loads and stores, gathers and scatters, the top-k heap, tree steps and the digest unit (R200 to
R214). -/

namespace Sys2Proof.Machine

/-! ## The checks of lanes (R125, R203, R389) -/

/-- The fault that is reported among those of several lanes or elements: the first cause in the order of reporting, of
the lowest lane that has it; the detail names that lane. -/
def firstFault (fs : List (Nat × Flt)) : Option Flt :=
  (fs.foldl (fun (b : Option (Nat × Flt)) f => match b with
    | none => some f
    | some g =>
      if causeRank f.2.cause < causeRank g.2.cause ∨ (f.2.cause = g.2.cause ∧ f.1 < g.1) then some f else some g)
    none).map fun f => { f.2 with detail := f.1 }

/-- How a lane's access is checked: an NC page admits only scalar accesses (R343). -/
def State.laneAcc (s : State) (kind : AccKind) : Acc := { s.acc s.cur kind false with nc := false }

/-- The check of application space at a home: translation, permission and seal. A full set of pinned lines is no fault:
the access that meets it waits (R331). -/
def State.homeCheck (s : State) (x : Sec) (asid : BitVec 16) (va : Nat) (a : Acc) : Option HomeErr :=
  match s.locate x asid va a false with
  | .error .busy => none
  | .error e => some e
  | .ok _ => if a.kind ≠ .read ∧ (s.sealAt x asid va).isSome then some .seal else none

/-- The check of application space for the executing agent: a line that its own caches hold is checked against the bits
held there (R343), a read of one no further. -/
def State.appCheck (s : State) (va : Nat) (a : Acc) : Option HomeErr :=
  let x := secOf s.cur
  let asid := s.asidOf s.cur
  match s.ownCopy s.cur (lineKey x asid va) with
  | some c => if !a.permits c.perm then some (.page subPerm)
    else if a.kind = .read then none else s.homeCheck x asid va a
  | none => s.homeCheck x asid va a

/-- The check of one lane's access of `n` bytes before any lane performs. `dep` says that a lane may be a deposit. -/
def State.laneCheck (s : State) (ea : Word) (n : Nat) (kind : AccKind) (dep : Bool) : Option Flt :=
  let g := s.cur
  let e := ea.toNat
  match placeOf g e n with
  | .error f => some f
  | .ok p =>
    let al := decide (e % n ≠ 0) || match p with
      | .reg _ _ => kind == .write && !dep
      | _ => false
    if al then some (fltAt cALN 0 e)
    else match p with
      | .reg _ _ => if kind = .write then none else some (fltAt cREMR 0 e)
      | .spad cl _ => if clusterOfAgent g = some cl ∨ kind = .write then none else some (fltAt cREMR 0 e)
      | .app va => match s.leaseCheck g va n with
        | .error (.flt f) => some f
        | .error _ => none
        | .ok _ => (s.appCheck va (s.laneAcc kind)).map fun q => homeFlt (isMaster g) kind q e
      | .peer slot off =>
        if s.me.tx.isSome then none
        else match s.peerCheck (secOf g) slot off n kind with
          | .error sub => some (fltAt cPEER sub e)
          | .ok (y, asid, va) => (s.homeCheck y asid va (s.laneAcc kind)).map fun q => peerErr (isMaster g) kind q e

/-- One lane's access: its number, address and size. -/
structure Lane where
  i : Nat
  ea : Word
  n : Nat
  deriving DecidableEq, Repr

/-- Check every lane before any performs (R203); `more` are faults found before. -/
def State.checkLanes (s : State) (kind : AccKind) (dep : Bool) (ls : List Lane) (more : List (Nat × Flt)) :
    Except Stop Unit :=
  match firstFault (more ++ ls.filterMap fun l => (s.laneCheck l.ea l.n kind dep).map fun f => (l.i, f)) with
  | some f => fault f
  | none => .ok ()

/-- A fault that a lane meets at its home names the lane. -/
def atLane {α : Type} (i : Nat) (r : Except Stop α) : Except Stop α :=
  match r with
  | .error (.flt f) => fault { f with detail := i }
  | r => r

/-- Load the lanes: their numbers and values. -/
def State.loadLanes (s : State) (ls : List Lane) : Except Stop (List (Nat × Nat) × State) :=
  ls.foldlM (fun (r : List (Nat × Nat) × State) l => do
    let q ← atLane l.i (r.2.load l.ea l.n true)
    .ok (r.1 ++ [(l.i, leNat q.1)], q.2)) ([], s)

/-- Store values to the lanes, in ascending order. -/
def State.storeLanes (s : State) (ls : List (Lane × Nat)) : Except Stop State :=
  ls.foldlM (fun (s : State) l => atLane l.1.i (s.store l.1.ea (leBytes l.1.n l.2) true)) s

/-! ## Packed blocks (R89) -/

/-- The packed form of a register of block elements. -/
def packBlocks (t : Tag) (body : Nat) (side : Word) : List Byte :=
  if t = .e2m1x then
    (List.range 4).flatMap fun b => leBytes 16 (body / 2 ^ (128 * b) % 2 ^ 128) ++ leBytes 2 (bitsOf side (16 * b) 16)
  else (List.range 2).flatMap fun b => leBytes 32 (body / 2 ^ (256 * b) % 2 ^ 256) ++ leBytes 2 (bitsOf side (8 * b) 8)

/-- The body and side field of a packed form. -/
def unpackBlocks (t : Tag) (bs : List Byte) : Nat × Nat :=
  if t = .e2m1x then
    (ofLanes 128 ((List.range 4).map fun b => leNat (slice bs (18 * b) 16)),
      ofLanes 16 ((List.range 4).map fun b => leNat (slice bs (18 * b + 16) 2)))
  else
    (ofLanes 256 ((List.range 2).map fun b => leNat (slice bs (34 * b) 32)),
      ofLanes 8 ((List.range 2).map fun b => leNat (slice bs (34 * b + 32) 1)))

/-- The element to which a byte of a packed form belongs; the bytes of scale and spare to the first of their block. -/
def packedElement (t : Tag) (o : Nat) : Nat :=
  if t = .e2m1x then if o % 18 < 16 then 32 * (o / 18) + 2 * (o % 18) else 32 * (o / 18)
  else if o % 34 < 32 then 32 * (o / 34) + o % 34 else 32 * (o / 34)

/-- The accesses of a packed form: 8-byte units for E2M1X, 4-byte units for B8. -/
def packedLanes (t : Tag) (base : Word) : List Lane :=
  let u := if t = .e2m1x then 8 else 4
  (List.range (if t = .e2m1x then 9 else 17)).map fun k => ⟨packedElement t (u * k), base + word (u * k), u⟩

/-! ## Vector loads and stores (R200 to R202) -/

/-- The lanes of a form that a mask leaves active: lane i at base + i × step. -/
def activeLanes (t : Tag) (m : Word) (base step : Word) : List Lane :=
  ((List.range (tagLanes t)).filter fun i => bitAt m i).map fun i => ⟨i, base + word i * step, tagWidth t / 8⟩

/-- A misaligned base of a contiguous form is reported for the lowest active lane (R201, R203). -/
def baseFault (base : Word) (ls : List Lane) : List (Nat × Flt) :=
  match ls with
  | l :: _ => if base.toNat % 64 = 0 then [] else [(l.i, fltAt cALN 0 l.ea.toNat)]
  | [] => []

/-- The base of a VM form (R200). -/
def State.vmBase (s : State) (a : Fin 16) (o : BitVec 7) : Except Stop Word := do
  let b ← s.rdS a
  .ok (b + sextNat 7 o.toNat * 64)

/-- A whole access is one unit, but not through the register window (R202). -/
def State.wholeUnit (s : State) (base : Word) (m : Fin 8) : Bool :=
  m == 0 && match placeOf s.cur base.toNat 64 with
    | .ok (.reg _ _) => false
    | .ok _ => true
    | .error _ => false

/-- The lowest lane whose own access faults: a fault of a whole access is reported for it. -/
def nameLane {α : Type} (ls : List Lane) (f : Lane → Bool) (r : Except Stop α) : Except Stop α :=
  match r with
  | .error (.flt e) => match ls.find? f with
    | some l => fault { e with detail := l.i, addr := l.ea }
    | none => fault e
  | r => r

/-- A test of one lane's own access. -/
def Except.bad {α : Type} (r : Except Stop α) : Bool :=
  match r with
  | .error (.flt _) => true
  | _ => false

/-- Load 64 bytes as one unit: the lanes' values. -/
def State.loadWhole (s : State) (t : Tag) (base : Word) (ls : List Lane) : Except Stop (List (Nat × Nat) × State) := do
  let r ← nameLane ls (fun l => Except.bad (s.load l.ea l.n true)) (s.load base 64 true)
  .ok ((lanesAs t (BitVec.ofNat 512 (leNat r.1))).zipIdx.map fun p => (p.2, p.1), r.2)

/-- Lane values by number, for `putLanes`. -/
def byLane (t : Tag) (vs : List (Nat × Nat)) : List (Option (Nat × Nat)) :=
  (List.range (tagLanes t)).map fun i => (vs.find? fun v => v.1 == i).map fun v => (v.2, 0)

/-- FMT 15, a block format in a form that has none, or under a mask, is no word (R201). -/
def vmWord (f : Tag) (m : Fin 8) (contiguous : Bool) : Except Stop Unit :=
  match f with
  | .inv => fault (flt cILL 0)
  | .e2m1x | .b8 => if contiguous ∧ m = 0 then .ok () else fault (flt cILL 0)
  | _ => .ok ()

/-- The load of a register of block elements. -/
def State.loadPacked (s : State) (d : Fin 16) (t : Tag) (base : Word) : Except Stop (State × Next) := do
  let ls := packedLanes t base
  s.checkLanes .read false ls []
  let r ← s.loadLanes ls
  let b := unpackBlocks t (r.1.flatMap fun v => leBytes (if t = .e2m1x then 8 else 4) v.2)
  done (r.2.wrV d ⟨t, BitVec.ofNat 512 b.1, word b.2⟩)

def execVld (sm : Bool) (d a : Fin 16) (m : Fin 8) (f : Tag) (o : BitVec 7) (s : State) :
    Host.Outcome State Fault Refusal :=
  s.issue sm fun s => do
    vmWord f m true
    let mk ← s.rdM m
    let base ← s.vmBase a o
    if isBlock f then s.loadPacked d f base
    else
      let ls := activeLanes f mk base (word (tagWidth f / 8))
      s.checkLanes .read false ls (baseFault base ls)
      let r ← if s.wholeUnit base m then s.loadWhole f base ls else s.loadLanes ls
      done (r.2.putLanes d f 0 (byLane f r.1))

def execVldbc (sm : Bool) (d a : Fin 16) (m : Fin 8) (f : Tag) (o : BitVec 7) (s : State) :
    Host.Outcome State Fault Refusal :=
  s.issue sm fun s => do
    vmWord f m false
    let mk ← s.rdM m
    let base ← s.vmBase a o
    let ls := activeLanes f mk base 0
    s.checkLanes .read false (ls.take 1) []
    let r ← s.loadLanes (ls.take 1)
    let v := (r.1.head?.map (·.2)).getD 0
    done (r.2.putLanes d f 0 (activeOnly mk (List.replicate (tagLanes f) (v, 0))))

/-- The stride is read from the register after the base's. -/
def execVlds (sm : Bool) (d a : Fin 16) (m : Fin 8) (f : Tag) (o : BitVec 7) (s : State) :
    Host.Outcome State Fault Refusal :=
  s.issue sm fun s => do
    vmWord f m false
    let mk ← s.rdM m
    let base ← s.vmBase a o
    let st ← s.rdS (succ16 a)
    let ls := activeLanes f mk base st
    s.checkLanes .read false ls []
    let r ← s.loadLanes ls
    done (r.2.putLanes d f 0 (byLane f r.1))

/-- The format of a vector store: FMT 0 stands for the register's tag, any other must equal it (R201). -/
def storeTag (v : VReg) (f : Tag) (m : Fin 8) (contiguous : Bool) : Except Stop Tag :=
  if f = .raw then
    if isBlock v.tag && !(contiguous && m == 0) then fault (flt cFMT 0) else .ok v.tag
  else if f = v.tag then .ok f else fault (flt cFMT 0)

/-- Lanes with the data of a register. -/
def withData (t : Tag) (body : VBody) (ls : List Lane) : List (Lane × Nat) :=
  let xs := lanesAs t body
  ls.map fun l => (l, xs.getD l.i 0)

/-- The store of a register of block elements. -/
def State.storePacked (s : State) (t : Tag) (v : VReg) (base : Word) : Except Stop (State × Next) := do
  let ls := packedLanes t base
  s.checkLanes .write false ls []
  let u := if t = .e2m1x then 8 else 4
  let bs := packBlocks t v.body.toNat v.side
  let s ← s.storeLanes (ls.zipIdx.map fun p => (p.1, leNat (slice bs (u * p.2) u)))
  done s

def execVst (sm : Bool) (d a : Fin 16) (m : Fin 8) (f : Tag) (o : BitVec 7) (s : State) :
    Host.Outcome State Fault Refusal :=
  s.issue sm fun s => do
    vmWord f m true
    let v ← s.rdV d
    let t ← storeTag v f m true
    let mk ← s.rdM m
    let base ← s.vmBase a o
    if isBlock t then s.storePacked t v base
    else
      let ls := activeLanes t mk base (word (tagWidth t / 8))
      s.checkLanes .write (tagWidth t == 64) ls (baseFault base ls)
      if s.wholeUnit base m then do
        let q ← nameLane ls (fun l => Except.bad (s.store l.ea (leBytes l.n 0) true))
          (s.store base (leBytes 64 v.body.toNat) true)
        done q
      else do
        let q ← s.storeLanes (withData t v.body ls)
        done q

def execVsts (sm : Bool) (d a : Fin 16) (m : Fin 8) (f : Tag) (o : BitVec 7) (s : State) :
    Host.Outcome State Fault Refusal :=
  s.issue sm fun s => do
    vmWord f m false
    let v ← s.rdV d
    let t ← storeTag v f m false
    let mk ← s.rdM m
    let base ← s.vmBase a o
    let st ← s.rdS (succ16 a)
    let ls := activeLanes t mk base st
    s.checkLanes .write (tagWidth t == 64) ls []
    let q ← s.storeLanes (withData t v.body ls)
    done q

/-! ## Gathers and scatters (R204 to R206) -/

/-- The lanes of a gather or scatter: S[VA] + index × size for the active lanes. -/
def indexedLanes (vb : VReg) (m : Word) (base : Word) (n : Nat) : List Lane :=
  (vb.lanes.zipIdx.filter fun p => bitAt m p.2).map fun p =>
    ⟨p.2, base + sextNat (tagWidth vb.tag) p.1 * word n, n⟩

/-- The index register, tagged INT32 or INT64. -/
def State.rdIndex (s : State) (b : Fin 16) : Except Stop VReg := do
  let vb ← s.rdV b
  require (vb.tag == .i32 || vb.tag == .i64) (flt cFMT 0)
  .ok vb

/-- The elements' tag has lanes for every index (R205). -/
def indexFits (vb : VReg) (t : Tag) : Except Stop Unit :=
  require (!isBlock t && decide (tagLanes vb.tag ≤ tagLanes t)) (flt cFMT 0)

def execVgat (sm : Bool) (d a b : Fin 16) (m : Fin 8) (t : Tag) (s : State) : Host.Outcome State Fault Refusal :=
  s.issue sm fun s => do
    require (!isBlock t && t != .inv) (flt cILL 0)
    noTx s
    let vb ← s.rdIndex b
    let mk ← s.rdM m
    indexFits vb t
    let base ← s.rdS a
    let ls := indexedLanes vb mk base (tagWidth t / 8)
    s.checkLanes .read false ls []
    let r ← s.loadLanes ls
    done (r.2.putLanes d t 0 (byLane t r.1))

def execVsct (sm : Bool) (d a b : Fin 16) (m : Fin 8) (s : State) : Host.Outcome State Fault Refusal :=
  s.issue sm fun s => do
    noTx s
    let v ← s.rdV d
    let vb ← s.rdIndex b
    let mk ← s.rdM m
    s.dIf (v.tag == .f64) fun s => do
      indexFits vb v.tag
      let base ← s.rdS a
      let ls := indexedLanes vb mk base (tagWidth v.tag / 8)
      s.checkLanes .write (tagWidth v.tag == 64) ls []
      let q ← s.storeLanes (withData v.tag v.body ls)
      done q

/-- The update of a scatter-add lane: `afadd` for FP32, `aadd` for integers. -/
def scatterAdd (t : Tag) (x old : Nat) : Nat := if t = .f32 then bankFadd old x else (old + x) % 2 ^ tagWidth t

/-- Perform the lanes as atomics, in ascending order. DESIGN CHOICE (log entry 114): R107 leaves the order open. -/
def State.atomicLanes (s : State) (t : Tag) (ls : List (Lane × Nat)) : Except Stop State :=
  ls.foldlM (fun (s : State) l => do
    let r ← atLane l.1.i (s.atomic l.1.ea l.1.n (scatterAdd t l.2))
    .ok r.2) s

def execVsctadd (sm : Bool) (d a b : Fin 16) (m : Fin 8) (s : State) : Host.Outcome State Fault Refusal :=
  s.issue sm fun s => do
    noTx s
    let v ← s.rdV d
    let vb ← s.rdIndex b
    require (v.tag == .i32 || v.tag == .i64 || v.tag == .f32) (flt cFMT 0)
    let mk ← s.rdM m
    indexFits vb v.tag
    let base ← s.rdS a
    let ls := indexedLanes vb mk base (tagWidth v.tag / 8)
    s.checkLanes .atomic false ls []
    let q ← s.atomicLanes v.tag (withData v.tag v.body ls)
    done q

/-! ## The top-k heap (R207) -/

/-- The order of pairs (score, index): a NaN score is less than every number, equal scores order by the greater index.
-/
def pairLt (p q : Nat × Nat) : Bool :=
  let x := fp32.decode p.1
  let y := fp32.decode q.1
  if x.isNan && y.isNan then decide (q.2 < p.2)
  else if x.isNan then true
  else if y.isNan then false
  else
    let c := x.cmp y
    decide (c < 0) || (c == 0 && decide (q.2 < p.2))

/-- The pair at a place of a heap. -/
def pairAt (h : List (Nat × Nat)) (j : Nat) : Nat × Nat := h.getD j (0, 0)

/-- Let the pair at a place sink. -/
def sink (k : Nat) : Nat → List (Nat × Nat) → Nat → List (Nat × Nat)
  | 0, h, _ => h
  | fuel + 1, h, j =>
    if k ≤ 2 * j + 1 then h
    else
      let c := if 2 * j + 2 < k ∧ pairLt (pairAt h (2 * j + 2)) (pairAt h (2 * j + 1)) then 2 * j + 2 else 2 * j + 1
      if pairLt (pairAt h c) (pairAt h j) then sink k fuel ((h.set c (pairAt h j)).set j (pairAt h c)) c else h

/-- The heap after an arrival. -/
def heapStep (k : Nat) (h : List (Nat × Nat)) (p : Nat × Nat) : List (Nat × Nat) :=
  if (fp32.decode p.1).isNan then h else if pairLt (pairAt h 0) p then sink k 4 (h.set 0 p) 0 else h

def execHsift (sm : Bool) (d a b k : Fin 16) (s : State) : Host.Outcome State Fault Refusal :=
  s.issue sm fun s => do
    require (decide (1 ≤ k.val) && decide (k.val ≤ 8)) (flt cILL 0)
    let v ← s.rdV d
    require (v.tag == .raw) (flt cFMT 0)
    let sc ← s.rdS a
    let ix ← s.rdS b
    let ls := lanesAs .f32 v.body
    let h := heapStep k.val ((List.range k.val).map fun j => (ls.getD j 0, ls.getD (j + 8) 0))
      (sc.toNat % 2 ^ 32, ix.toNat % 2 ^ 32)
    let ls' := ls.zipIdx.map fun p =>
      if p.2 < k.val then (pairAt h p.2).1
      else if 8 ≤ p.2 ∧ p.2 < 8 + k.val then (pairAt h (p.2 - 8)).2
      else p.1
    done (s.wrV d { v with body := BitVec.ofNat 512 (ofLanes 32 ls') })

/-! ## The digest unit (R210 to R214) -/

def subNodigest : Nat := 4
def subDglog : Nat := 5

/-- The slot to which the executing context is bound. -/
def State.digestBound (s : State) : Option (Sec × Fin 96 × Nat × Fin 8) :=
  match s.cur with
  | .master _ _ => none
  | .thread x i => ((s.ctx x i.val).digest).map fun k => (x, clusterOf i.val, i.val, k)

/-- A digest slot, and a change of it. -/
def State.digestSlot (s : State) (x : Sec) (cl : Fin 96) (k : Fin 8) : DigestSlot := (s.cluster x cl).digest.get k
def State.modDigest (s : State) (x : Sec) (cl : Fin 96) (k : Fin 8) (f : DigestSlot → DigestSlot) : State :=
  s.modCluster x cl fun c => { c with digest := c.digest.set k.val (f (c.digest.get k)) k.isLt }

/-- Bind the executing context to a slot. -/
def State.bindDigest (s : State) (x : Sec) (i : Nat) (k : Option (Fin 8)) : State :=
  s.modCtx x i fun c => { c with digest := k }

/-- The result of `dgi` and the state after it (R211). -/
def State.dgi (s : State) (x : Sec) (i : Nat) (k : Fin 8) (re : Bool) : Nat × State :=
  let cl := clusterOf i
  let me := s.slotOwner x i
  let sl := s.digestSlot x cl k
  if (s.ctx x i).digest.isSome then (4, s)
  else if re then if sl.owner.isSome ∧ sl.owner = me then (0, s.bindDigest x i (some k)) else (2, s)
  else if sl.owner.isSome ∧ sl.owner ≠ me then (1, s)
  else (0, (s.modDigest x cl k fun _ => ⟨me, [], none, 0⟩).bindDigest x i (some k))

def execDgi (sm : Bool) (d a : Fin 16) (r : Bool) (s : State) : Host.Outcome State Fault Refusal :=
  s.issue sm fun s => do
    let v ← s.rdS a
    match s.cur with
    | .master _ _ => done (s.wrS d 3)
    | .thread x i =>
      let q := s.dgi x i.val (Fin.ofNat 8 v.toNat) r
      done (q.2.wrS d (word q.1))

/-- The bound slot, or SHP (R212). -/
def State.needDigest (s : State) : Except Stop (Sec × Fin 96 × Nat × Fin 8) :=
  match s.digestBound with
  | some b => .ok b
  | none => fault (flt cSHP subNodigest)

def execDga (sm : Bool) (a : Fin 16) (n : Fin 8) (s : State) : Host.Outcome State Fault Refusal :=
  s.issue sm fun s => do
    let b ← s.needDigest
    let v ← s.rdS a
    done (s.modDigest b.1 b.2.1 b.2.2.2 fun k => { k with bytes := k.bytes ++ leBytes (n.val + 1) v.toNat })

def execDgo (sm : Bool) (d : Fin 16) (r : Bool) (s : State) : Host.Outcome State Fault Refusal :=
  s.issue sm fun s => do
    let b ← s.needDigest
    let sl := s.digestSlot b.1 b.2.1 b.2.2.2
    let s := s.modDigest b.1 b.2.1 b.2.2.2 fun k =>
      { k with bytes := [], lsid := k.sid.getD 0, sid := none, owner := if r then none else k.owner }
    let s := if r then s.bindDigest b.1 b.2.2.1 none else s
    done (s.wrV d ⟨.raw, BitVec.ofNat 512 (leNat (shake256 sl.bytes)), 0⟩)

/-- The record of `dglog` (R213). -/
def logRecord (lsid vtn : Word) (body : VBody) (caller : Word) (seq home : Nat) : List Byte :=
  leBytes 8 lsid.toNat ++ leBytes 8 vtn.toNat ++ leBytes 32 body.toNat ++ leBytes 8 caller.toNat
    ++ leBytes 8 (seq % 2 ^ 48 + home % 2 ^ 13 * 2 ^ 48)

def execDglog (sm : Bool) (a b : Fin 16) (s : State) : Host.Outcome State Fault Refusal :=
  s.issue sm fun s => do
    let v ← s.rdV a
    require (v.tag == .raw) (flt cFMT 0)
    let q ← s.needDigest
    let caller ← s.rdS b
    s.released true
    let x := q.1
    let c := s.sec x
    if 2 ^ bitsOf c.dglogb 0 6 < c.dgP + 64 then fault (flt cSHP subDglog)
    else
      let r := logRecord (s.digestSlot x q.2.1 q.2.2.2).lsid (s.ctx x q.2.2.1).vtn v.body caller c.dgSeq
        (s.homeIdx x q.2.2.1)
      done ((s.writePhys x (bitsOf c.dglogb 16 36 * 2 ^ 16 + c.dgP) r).modSec x fun c =>
        { c with dgP := c.dgP + 64, dgSeq := c.dgSeq + 1 })

/-! ## Tree steps (R208, R209) -/

/-- The integer that a number is, if it is one and not negative. -/
def Num.category (n : Num) : Option Nat :=
  match n with
  | .fin neg m e =>
    if m = 0 then some 0
    else if neg then none
    else
      let q := splitAt m e 0
      if q.2.1 = 0 then some q.1 else none
  | _ => none

/-- Bit c of a category bitmap (R208). DESIGN CHOICE (log entry 115): the count is read whatever x is. -/
def State.category (s : State) (map : Word) (x : Nat) : Except Stop (Bool × State) := do
  let b ← s.loadNat map 4 true
  match (fp32.decode x).category with
  | none => .ok (false, b.2)
  | some c =>
    if b.1 ≤ c then .ok (false, b.2)
    else do
      let w ← b.2.loadNat (map + 4 + word (4 * (c / 32))) 4 true
      .ok (w.1 / 2 ^ (c % 32) % 2 == 1, w.2)

/-- The step goes left (R209). -/
def State.goesLeft (s : State) (tree : Word) (w0 t x : Nat) : Except Stop (Bool × State) :=
  let p := fp32.decode x
  let q := fp32.decode t
  if p.isNan then .ok (w0 / 2 ^ 29 % 2 == 1, s)
  else match w0 / 2 ^ 30 with
    | 0 => .ok (!q.isNan && decide (p.cmp q ≤ 0), s)
    | 1 => .ok (!q.isNan && decide (p.cmp q < 0), s)
    | 2 => .ok (!q.isNan && p.cmp q == 0, s)
    | _ => s.category (tree + word t) x

/-- The seal identifier of a node (R212): that of its sealed region, at the exporter for a peer window. -/
def State.nodeSeal (s : State) (ea : Word) : Nat :=
  let x := secOf s.cur
  match placeOf s.cur ea.toNat 16 with
  | .ok (.app va) => s.sealId x (s.asidOf s.cur) va
  | .ok (.peer slot off) => match s.peerCheck x slot off 16 .read with
    | .ok (y, asid, va) => s.sealId y asid va
    | .error _ => 0
  | _ => 0

/-- Absorb a step into the bound slot (R212). -/
def State.absorbStep (s : State) (n : Nat) (left : Bool) (id : Nat) : State :=
  match s.digestBound with
  | none => s
  | some (x, cl, _, k) => s.modDigest x cl k fun q =>
    { q with bytes := q.bytes ++ leBytes 4 n ++ [if left then 0 else 1]
             sid := match q.sid with
               | none => some (word id)
               | some o => some (if o = word id then o else BitVec.allOnes 64) }

def execTstep (sm : Bool) (d a b : Fin 16) (p : Fin 8) (s : State) : Host.Outcome State Fault Refusal :=
  s.issue sm fun s => do
    let v ← s.rdS d
    let tree ← s.rdS a
    let row ← s.rdS b
    if bitAt v 31 then done (s.wrP p true)
    else
      let n := bitsOf v 0 31
      let na := tree + word (16 * n)
      let node ← s.load na 16 true
      let w := fun k => leNat (slice node.1 (4 * k) 4)
      let x ← node.2.loadNat (row + word (4 * (w 0 % 2 ^ 29))) 4 true
      let l ← x.2.goesLeft tree (w 0) (w 1) x.1
      let next := if l.1 then w 2 else w 3
      done (((l.2.absorbStep n l.1 (s.nodeSeal na)).wrS d (word next)).wrP p (next / 2 ^ 31 % 2 == 1))

end Sys2Proof.Machine
end

