-- ==== Sys2Proof/Machine/Vector.lean ====
section
/-! DEFINITION. The vector groups VAR, VBIT, VFMA, VCMP, VPERM and VCVT (R181 to R199) and `vdfma` (R138). -/

namespace Sys2Proof.Machine

/-! ## Arithmetic (R181, R182) -/

def execVadd (sm : Bool) (d a b : Fin 16) (m : Fin 8) (x : Bool) (s : State) :=
  s.vec2 sm d a b m x (some (intLane (· + ·))) (some FFmt.add)
def execVsub (sm : Bool) (d a b : Fin 16) (m : Fin 8) (x : Bool) (s : State) :=
  s.vec2 sm d a b m x (some (intLane (· - ·))) (some FFmt.sub)
def execVmul (sm : Bool) (d a b : Fin 16) (m : Fin 8) (x : Bool) (s : State) :=
  s.vec2 sm d a b m x (some (intLane (· * ·))) (some FFmt.mul)
def execVmulh (sm : Bool) (d a b : Fin 16) (m : Fin 8) (x : Bool) (s : State) :=
  s.vec2 sm d a b m x (some fun w sg p q => modPow w (intVal w sg p * intVal w sg q / (2 ^ w : Nat))) none
def execVmin (sm : Bool) (d a b : Fin 16) (m : Fin 8) (x : Bool) (s : State) :=
  s.vec2 sm d a b m x (some (intLane Min.min)) (some fun f _ p q => f.pick false p q)
def execVmax (sm : Bool) (d a b : Fin 16) (m : Fin 8) (x : Bool) (s : State) :=
  s.vec2 sm d a b m x (some (intLane Max.max)) (some fun f _ p q => f.pick true p q)
def execVaddsat (sm : Bool) (d a b : Fin 16) (m : Fin 8) (x : Bool) (s : State) :=
  s.vec2 sm d a b m x (some (satLane (· + ·))) none
def execVsubsat (sm : Bool) (d a b : Fin 16) (m : Fin 8) (x : Bool) (s : State) :=
  s.vec2 sm d a b m x (some (satLane (· - ·))) none

/-- The sign bit alone is changed, and no flag is raised (R82). -/
def execVabs (sm : Bool) (d a : Fin 16) (m : Fin 8) (s : State) :=
  s.vec1 sm d a m (some fun w sg p => modPow w (intVal w sg p).natAbs) (some fun f _ p => (p % f.signBit, 0))
def execVneg (sm : Bool) (d a : Fin 16) (m : Fin 8) (s : State) :=
  s.vec1 sm d a m (some fun w sg p => modPow w (-(intVal w sg p)))
    (some fun f _ p => ((p + f.signBit) % 2 ^ f.width, 0))
def execVsqrt (sm : Bool) (d a : Fin 16) (m : Fin 8) (s : State) := s.vec1 sm d a m none (some FFmt.sqrt)
def execVrcp (sm : Bool) (d a : Fin 16) (m : Fin 8) (s : State) := s.vec1 sm d a m none (some FFmt.rcp)
def execVrsq (sm : Bool) (d a : Fin 16) (m : Fin 8) (s : State) := s.vec1 sm d a m none (some FFmt.rsq)
def execVexp2 (sm : Bool) (d a : Fin 16) (m : Fin 8) (s : State) := s.vec1 sm d a m none (some FFmt.exp2)

/-! ## Bits (R183) -/

/-- A logical form: eight 64-bit lanes whatever the tags; the result has the tag and side field of VA (R180, R183). -/
def State.vlogic (s : State) (sm : Bool) (d a b : Fin 16) (m : Fin 8) (scalar : Bool) (f : Nat → Nat → Nat) :
    Host.Outcome State Fault Refusal :=
  s.issue sm fun s => do
    let va ← s.rdV a
    let vb ← s.rdVb va b scalar
    let mk ← s.rdM m
    s.dIf (va.tag == .f64 || vb.tag == .f64) fun s => do
      let ys ← s.secondLanes .raw b scalar
      let ls := activeOnly mk (((lanesAs .raw va.body).zip ys).map fun p => (f p.1 p.2 % 2 ^ 64, 0))
      done (s.wrV d ⟨va.tag, BitVec.ofNat 512 (ofLanes 64 (mergeLanes 64 (s.oldBody d) ls)), va.side⟩)

def execVand (sm : Bool) (d a b : Fin 16) (m : Fin 8) (x : Bool) (s : State) := s.vlogic sm d a b m x (· &&& ·)
def execVor (sm : Bool) (d a b : Fin 16) (m : Fin 8) (x : Bool) (s : State) := s.vlogic sm d a b m x (· ||| ·)
def execVxor (sm : Bool) (d a b : Fin 16) (m : Fin 8) (x : Bool) (s : State) := s.vlogic sm d a b m x (· ^^^ ·)
def execVandn (sm : Bool) (d a b : Fin 16) (m : Fin 8) (x : Bool) (s : State) :=
  s.vlogic sm d a b m x fun p q => p &&& (2 ^ 64 - 1 - q)

def execVshl (sm : Bool) (d a b : Fin 16) (m : Fin 8) (x : Bool) (s : State) :=
  s.vec2 sm d a b m x (some fun w _ p q => p * 2 ^ (q % w)) none
def execVshr (sm : Bool) (d a b : Fin 16) (m : Fin 8) (x : Bool) (s : State) :=
  s.vec2 sm d a b m x (some fun w _ p q => p / 2 ^ (q % w)) none
def execVsar (sm : Bool) (d a b : Fin 16) (m : Fin 8) (x : Bool) (s : State) :=
  s.vec2 sm d a b m x (some fun w sg p q => modPow w (intVal w sg p / (2 ^ (q % w) : Nat))) none
def execVclz (sm : Bool) (d a : Fin 16) (m : Fin 8) (s : State) := s.vec1 sm d a m (some fun w _ p => clzLane w p) none
def execVpopc (sm : Bool) (d a : Fin 16) (m : Fin 8) (s : State) := s.vec1 sm d a m (some fun w _ p => popLane w p) none

/-! ## Fused forms and dot products (R184, R185, R138) -/

/-- Lanes of three registers. -/
def zip3 (a b c : List Nat) : List (Nat × Nat × Nat) := a.zip (b.zip c)

/-- A fused form: ±(a × b) ± d with one rounding, or modulo 2^w. -/
def State.vfused (s : State) (sm : Bool) (d a b : Fin 16) (m : Fin 8) (negP negC : Bool) :
    Host.Outcome State Fault Refusal :=
  s.issue sm fun s => do
    let va ← s.rdV a
    let vb ← s.rdV b
    let vd ← s.rdV d
    let mk ← s.rdM m
    require (va.tag == vb.tag && vb.tag == vd.tag && (isInt va.tag || (arithFmt va.tag).isSome)) (flt cFMT 0)
    s.dIf (va.tag == .f64) fun s =>
      let rnd := arithRnd s.me.fmode
      let f := fun (p : Nat × Nat × Nat) => match arithFmt va.tag with
        | some q => q.fma rnd negP negC p.1 p.2.1 p.2.2
        | none =>
          let w := tagWidth va.tag
          let t : Int := (p.1 * p.2.1 : Nat)
          let t := if negP then -t else t
          (modPow w (if negC then t - (p.2.2 : Nat) else t + (p.2.2 : Nat)), 0)
      done (s.putLanes d va.tag 0 (activeOnly mk ((zip3 va.lanes vb.lanes vd.lanes).map f)))

def execVfma (sm : Bool) (d a b : Fin 16) (m : Fin 8) (s : State) := s.vfused sm d a b m false false
def execVfms (sm : Bool) (d a b : Fin 16) (m : Fin 8) (s : State) := s.vfused sm d a b m false true
def execVfnma (sm : Bool) (d a b : Fin 16) (m : Fin 8) (s : State) := s.vfused sm d a b m true false
def execVfnms (sm : Bool) (d a b : Fin 16) (m : Fin 8) (s : State) := s.vfused sm d a b m true true

/-- `vdfma` is a form of the FPD group: it runs on a core with D whatever the tags are, and its operands are FP64. -/
def execVdfma (sm : Bool) (d a b : Fin 16) (m : Fin 8) (s : State) : Host.Outcome State Fault Refusal :=
  s.issue sm fun s => s.withD fun s => do
    let va ← s.rdV a
    let vb ← s.rdV b
    let vd ← s.rdV d
    let mk ← s.rdM m
    require (va.tag == .f64 && vb.tag == .f64 && vd.tag == .f64) (flt cFMT 0)
    let rnd := arithRnd s.me.fmode
    let ls := (zip3 va.lanes vb.lanes vd.lanes).map fun p => fp64.fma rnd false false p.1 p.2.1 p.2.2
    done (s.putLanes d .f64 0 (activeOnly mk ls))

/-- Groups of `k` adjacent elements. -/
def groupsOf (k : Nat) : Nat → List Nat → List (List Nat)
  | 0, _ => []
  | n + 1, l => l.take k :: groupsOf k n (l.drop k)

/-- One result lane of a dot product over floating-point elements: the exact sum rounded once. -/
def dotFloat (rnd : Rnd) (f g : FFmt) (xs ys : List Nat) (d : Nat) : Nat × Nat :=
  let ps := (xs.zip ys).map fun p => (Num.mul (f.decode p.1) (g.decode p.2)).1
  fp32.round rnd (sumNum rnd (ps ++ [fp32.decode d]))

/-- One result lane over integer elements. -/
def dotInt (w : Nat) (sx sy : Bool) (xs ys : List Nat) (d : Nat) : Nat × Nat :=
  (modPow 32 ((xs.zip ys).foldl (fun a p => a + intVal w sx p.1 * intVal w sy p.2) (d : Int)), 0)

/-- The lane function of a dot product for the tags that R185 lists. -/
def dotOp (k : Nat) (ta tb td : Tag) (rnd : Rnd) : Option (List Nat → List Nat → Nat → Nat × Nat) :=
  let okF := fun (t : Tag) => if k = 2 then t = .bf16 ∨ t = .f16 else t = .e4m3 ∨ t = .e5m2
  match td, fmtOfTag ta, fmtOfTag tb, ta, tb with
  | .f32, some f, some g, _, _ => if okF ta ∧ okF tb then some (dotFloat rnd f g) else none
  | .i32, _, _, .i16, .i16 => if k = 2 then some (dotInt 16 true true) else none
  | .i32, _, _, .i8, .i8 => if k = 4 then some (dotInt 8 true true) else none
  | .i32, _, _, .i8, .u8 => if k = 4 then some (dotInt 8 true false) else none
  | .i32, _, _, .u8, .i8 => if k = 4 then some (dotInt 8 false true) else none
  | .i32, _, _, .u8, .u8 => if k = 4 then some (dotInt 8 false false) else none
  | _, _, _, _, _ => none

def State.vdot (s : State) (sm : Bool) (k : Nat) (d a b : Fin 16) (m : Fin 8) : Host.Outcome State Fault Refusal :=
  s.issue sm fun s => do
    let va ← s.rdV a
    let vb ← s.rdV b
    let vd ← s.rdV d
    let mk ← s.rdM m
    let f ← orFmt (dotOp k va.tag vb.tag vd.tag (arithRnd s.me.fmode))
    let gs := (groupsOf k 16 va.lanes).zip ((groupsOf k 16 vb.lanes).zip vd.lanes)
    done (s.putLanes d vd.tag 0 (activeOnly mk (gs.map fun p => f p.1 p.2.1 p.2.2)))

def execVdot2 (sm : Bool) (d a b : Fin 16) (m : Fin 8) (s : State) := s.vdot sm 2 d a b m
def execVdot4 (sm : Bool) (d a b : Fin 16) (m : Fin 8) (s : State) := s.vdot sm 4 d a b m

/-! ## Compares and masks (R186 to R189) -/

/-- A condition on integer lanes (R55, R186): UINT8 compares unsigned under every code. -/
def intCond (c : Cond) (w : Nat) (sg : Bool) (x y : Nat) : Bool :=
  let p := intVal w sg x
  let q := intVal w sg y
  match c with
  | .eq => p == q
  | .ne => p != q
  | .lt => decide (p < q)
  | .ge => decide (q ≤ p)
  | .le => decide (p ≤ q)
  | .gt => decide (q < p)
  | .ltu => decide (x % 2 ^ w < y % 2 ^ w)
  | .geu => decide (y % 2 ^ w ≤ x % 2 ^ w)

/-- A condition on lanes of a tag. -/
def condLane (c : Cond) (t : Tag) : Option (Nat → Nat → Bool × Nat) :=
  match intOfTag t, fmtOfTag t with
  | some (w, sg), _ => some fun x y => (intCond c w sg x y, 0)
  | none, some f => some fun x y => fpCond c (f.decode x) (f.decode y)
  | none, none => none

/-- A mask from the lanes that are active and hold. -/
def maskOf (ls : List (Option Bool)) : Word :=
  word (ls.zipIdx.foldl (fun a p => match p.1 with
    | some true => a + 2 ^ p.2
    | _ => a) 0)

def execVcmp (sm : Bool) (d : Fin 8) (a b : Fin 16) (m : Fin 8) (x : Bool) (c : Cond) (s : State) :
    Host.Outcome State Fault Refusal :=
  s.issue sm fun s => do
    let va ← s.rdV a
    let vb ← s.rdVb va b x
    let mk ← s.rdM m
    let f ← orFmt (condLane c va.tag)
    require (vb.tag == va.tag) (flt cFMT 0)
    s.dIf (va.tag == .f64) fun s => do
      let ys ← s.secondLanes va.tag b x
      let ls := activeOnly mk ((va.lanes.zip ys).map fun p => f p.1 p.2)
      let fl := ls.foldl (fun a l => a ||| (l.map (·.2)).getD 0) 0
      done ((s.addFlags fl).wrM d (maskOf (ls.map fun l => l.map (·.1))))

/-- An encoding lies in a class (R187). -/
def inClass (k : VClass) (f : FFmt) (c : Nat) : Bool :=
  let n := f.decode c
  let normal := match n with
    | .fin _ m _ => decide (2 ^ f.man ≤ m)
    | _ => false
  let sub := match n with
    | .fin _ m _ => decide (0 < m) && decide (m < 2 ^ f.man)
    | _ => false
  match k with
  | .nan => n.isNan
  | .negInf => n.isInf && n.neg
  | .posInf => n.isInf && !n.neg
  | .negNormal => normal && n.neg
  | .posNormal => normal && !n.neg
  | .negSub => sub && n.neg
  | .posSub => sub && !n.neg
  | .negZero => n.isZero && n.neg
  | .posZero => n.isZero && !n.neg
  | .sNan => n.isSnan
  | .inf => n.isInf
  | .zero => n.isZero
  | .signBit => decide (f.signBit ≤ c % 2 ^ f.width)

def execVclass (sm : Bool) (d : Fin 8) (a : Fin 16) (m : Fin 8) (k : VClass) (s : State) :
    Host.Outcome State Fault Refusal :=
  s.issue sm fun s => do
    let va ← s.rdV a
    let mk ← s.rdM m
    let f ← orFmt (fmtOfTag va.tag)
    s.dIf (va.tag == .f64) fun s => done (s.wrM d (maskOf (activeOnly mk (va.lanes.map (inClass k f)))))

def execVsel (sm : Bool) (d a b : Fin 16) (k : Fin 8) (s : State) : Host.Outcome State Fault Refusal :=
  s.issue sm fun s => do
    let va ← s.rdV a
    let vb ← s.rdV b
    let mk ← s.rdM k
    require (va.tag == vb.tag && !isBlock va.tag) (flt cFMT 0)
    s.dIf (va.tag == .f64) fun s =>
      let ls := (va.lanes.zip vb.lanes).zipIdx.map fun p => if bitAt mk p.2 then p.1.1 else p.1.2
      done (s.wrV d ⟨va.tag, BitVec.ofNat 512 (ofLanes (tagWidth va.tag) ls), va.side⟩)

/-- A form on two masks. -/
def State.mask2 (s : State) (sm : Bool) (d a b : Fin 8) (f : Word → Word → Word) : Host.Outcome State Fault Refusal :=
  s.issue sm fun s => do
    let x ← s.rdM a
    let y ← s.rdM b
    done (s.wrM d (f x y))

def execMand (sm : Bool) (d a b : Fin 8) (s : State) := s.mask2 sm d a b (· &&& ·)
def execMor (sm : Bool) (d a b : Fin 8) (s : State) := s.mask2 sm d a b (· ||| ·)
def execMnot (sm : Bool) (d a : Fin 8) (s : State) : Host.Outcome State Fault Refusal :=
  s.issue sm fun s => do
    let x ← s.rdM a
    done (s.wrM d (~~~x))
def execMcount (sm : Bool) (d : Fin 16) (a : Fin 8) (s : State) : Host.Outcome State Fault Refusal :=
  s.issue sm fun s => do
    let x ← s.rdM a
    done (s.wrS d (word (popLane 64 x.toNat)))
def execMfirst (sm : Bool) (d : Fin 16) (a : Fin 8) (s : State) : Host.Outcome State Fault Refusal :=
  s.issue sm fun s => do
    let x ← s.rdM a
    done (s.wrS d (word (((List.range 64).find? fun i => bitAt x i).getD 64)))

/-! ## Permutes (R190 to R192) -/

def execVbcast (sm : Bool) (d a : Fin 16) (m : Fin 8) (t : Tag) (s : State) : Host.Outcome State Fault Refusal :=
  s.issue sm fun s => do
    require (!isBlock t && t != .inv) (flt cILL 0)
    let mk ← s.rdM m
    let x ← s.rdS a
    done (s.putLanes d t 0 (activeOnly mk (List.replicate (tagLanes t) (x.toNat % 2 ^ tagWidth t, 0))))

def execVins (sm : Bool) (d a b : Fin 16) (s : State) : Host.Outcome State Fault Refusal :=
  s.issue sm fun s => do
    let vd ← s.rdV d
    require (!isBlock vd.tag) (flt cFMT 0)
    s.dIf (vd.tag == .f64) fun s => do
      let x ← s.rdS a
      let j ← s.rdS b
      let ls := vd.lanes.zipIdx.map fun p => if p.2 = j.toNat then x.toNat % 2 ^ tagWidth vd.tag else p.1
      done (s.wrV d ⟨vd.tag, BitVec.ofNat 512 (ofLanes (tagWidth vd.tag) ls), vd.side⟩)

/-- A lane as an s register holds it: sign-extended for the signed integer tags (R190). -/
def laneWord (t : Tag) (v : Nat) : Word :=
  match intOfTag t with
  | some (w, true) => sextNat w v
  | _ => word v

def execVext (sm : Bool) (d a b : Fin 16) (s : State) : Host.Outcome State Fault Refusal :=
  s.issue sm fun s => do
    let va ← s.rdV a
    require (!isBlock va.tag) (flt cFMT 0)
    s.dIf (va.tag == .f64) fun s => do
      let j ← s.rdS b
      done (s.wrS d (match va.lanes[j.toNat]? with
        | some v => laneWord va.tag v
        | none => 0))

def execVperm (sm : Bool) (d a b : Fin 16) (m : Fin 8) (s : State) : Host.Outcome State Fault Refusal :=
  s.issue sm fun s => do
    let va ← s.rdV a
    let vb ← s.rdV b
    let mk ← s.rdM m
    require (!isBlock va.tag && isInt vb.tag && tagWidth vb.tag == tagWidth va.tag) (flt cFMT 0)
    s.dIf (va.tag == .f64) fun s =>
      let xs := va.lanes
      let ls := vb.lanes.map fun i => (xs.getD (i % tagLanes va.tag) 0, 0)
      done (s.putLanes d va.tag va.side (activeOnly mk ls))

/-- The lanes that a selector takes, in ascending order. -/
def selected (m : Word) (xs : List Nat) : List Nat :=
  xs.zipIdx.filterMap fun p => if bitAt m p.2 then some p.1 else none

/-- Spread lanes into the places that a selector names. -/
def spread (m : Word) : Nat → Nat → List Nat → List Nat
  | 0, _, _ => []
  | n + 1, i, xs => if bitAt m i then xs.headD 0 :: spread m n (i + 1) xs.tail else 0 :: spread m n (i + 1) xs

/-- A permute under a selector: the result has the tag and side field of VA. -/
def State.vselect (s : State) (sm : Bool) (d a : Fin 16) (m : Fin 8) (f : Word → List Nat → List Nat) :
    Host.Outcome State Fault Refusal :=
  s.issue sm fun s => do
    let va ← s.rdV a
    let mk ← s.rdM m
    require (!isBlock va.tag) (flt cFMT 0)
    s.dIf (va.tag == .f64) fun s =>
      done (s.wrV d ⟨va.tag, BitVec.ofNat 512 (ofLanes (tagWidth va.tag) (f mk va.lanes)), va.side⟩)

def execVcompress (sm : Bool) (d a : Fin 16) (m : Fin 8) (s : State) := s.vselect sm d a m selected
def execVexpand (sm : Bool) (d a : Fin 16) (m : Fin 8) (s : State) :=
  s.vselect sm d a m fun mk xs => spread mk xs.length 0 xs

/-! ## Reductions and scans (R193, R194, R460) -/

/-- A reduction of the active lanes into an s register. -/
def State.vreduce (s : State) (sm : Bool) (d a : Fin 16) (m : Fin 8)
    (fi : Nat → Bool → List Nat → Int) (ff : FFmt → Rnd → List Nat → Nat × Nat) : Host.Outcome State Fault Refusal :=
  s.issue sm fun s => do
    let va ← s.rdV a
    let mk ← s.rdM m
    require (isInt va.tag || (arithFmt va.tag).isSome) (flt cFMT 0)
    s.dIf (va.tag == .f64) fun s =>
      let xs := selected mk va.lanes
      match intOfTag va.tag, arithFmt va.tag with
      | some (w, sg), _ => done (s.wrS d (BitVec.ofInt 64 (fi w sg xs)))
      | none, some f => done (s.wrF d (ff f (arithRnd s.me.fmode) xs))
      | none, none => done s

/-- The exact sum of floating-point lanes, rounded once. -/
def FFmt.sum (f : FFmt) (rnd : Rnd) (xs : List Nat) : Nat × Nat := f.round rnd (sumNum rnd (xs.map f.decode))

/-- The largest or smallest of floating-point lanes; the canonical NaN when there is no number. -/
def FFmt.pickAll (f : FFmt) (larger : Bool) (xs : List Nat) : Nat × Nat :=
  let fl := flagIf (xs.any fun x => (f.decode x).isSnan) fNV
  match xs.filter fun x => !(f.decode x).isNan with
  | [] => (f.nan, fl)
  | x :: r => (r.foldl (fun a y => (f.pick larger a y).1) x, fl)

def execVredadd (sm : Bool) (d a : Fin 16) (m : Fin 8) (s : State) :=
  s.vreduce sm d a m (fun w sg xs => xs.foldl (fun t x => t + intVal w sg x) 0) FFmt.sum
def execVredmax (sm : Bool) (d a : Fin 16) (m : Fin 8) (s : State) :=
  s.vreduce sm d a m (fun w sg xs => xs.foldl (fun t x => Max.max t (intVal w sg x)) (intLo w sg))
    fun f _ xs => f.pickAll true xs
def execVredmin (sm : Bool) (d a : Fin 16) (m : Fin 8) (s : State) :=
  s.vreduce sm d a m (fun w sg xs => xs.foldl (fun t x => Min.min t (intVal w sg x)) (intHi w sg))
    fun f _ xs => f.pickAll false xs

/-- The scan over active lanes: each gets the sum of the active lanes up to it, or of those before it. -/
def scanLanes (ex : Bool) (f : List Nat → Nat × Nat) : List (Option Nat) → List Nat → List (Option (Nat × Nat))
  | [], _ => []
  | none :: ls, seen => none :: scanLanes ex f ls seen
  | some x :: ls, seen => some (f (if ex then seen else seen ++ [x])) :: scanLanes ex f ls (seen ++ [x])

def execVscan (sm : Bool) (d a : Fin 16) (m : Fin 8) (x : Bool) (s : State) : Host.Outcome State Fault Refusal :=
  s.issue sm fun s => do
    let va ← s.rdV a
    let mk ← s.rdM m
    require (isInt va.tag || (arithFmt va.tag).isSome) (flt cFMT 0)
    s.dIf (va.tag == .f64) fun s =>
      let f := fun (xs : List Nat) => match arithFmt va.tag with
        | some q => q.sum (arithRnd s.me.fmode) xs
        | none => (xs.foldl (· + ·) 0 % 2 ^ tagWidth va.tag, 0)
      done (s.putLanes d va.tag 0 (scanLanes x f (activeOnly mk va.lanes) []))

/-! ## Conversions (R195 to R199) -/

/-- The source element of each destination lane (R195). -/
def convertSource (ns nd part i : Nat) : Option Nat :=
  if ns < nd then if part * ns ≤ i ∧ i < (part + 1) * ns then some (i - part * ns) else none
  else some (part * nd + i)

def execVcvt (sm : Bool) (d a : Fin 16) (p m : Fin 8) (f : Tag) (s : State) : Host.Outcome State Fault Refusal :=
  s.issue sm fun s => do
    require (isInt f || (fmtOfTag f).isSome) (flt cILL 0)
    let va ← s.rdV a
    let mk ← s.rdM m
    require (isInt va.tag || (fmtOfTag va.tag).isSome) (flt cFMT 0)
    let ns := tagLanes va.tag
    let nd := tagLanes f
    s.dIf (va.tag == .f64 || f == .f64) fun s => do
      require (decide (p.val < Max.max ns nd / Min.min ns nd)) (flt cFMT 0)
      let xs := va.lanes
      let src := (List.range nd).map fun i =>
        if bitAt mk i then (convertSource ns nd p.val i).map fun j => xs.getD j 0 else none
      let r := convertLanes s.me.fmode (!(isInt va.tag && isInt f)) (convertLane va.tag f) src s.me.srseed
      done ((s.modMe fun h => { h with srseed := r.2 }).putLanes d f 0 r.1)

/-- The 32 values that `vquant` reads: two FP32 registers, or one of a 16-bit format (R196). -/
def State.quantSource (s : State) (a : Fin 16) : Except Stop (List Num) := do
  let va ← s.rdV a
  match va.tag with
  | .bf16 => .ok (va.lanes.map bf16.decode)
  | .f16 => .ok (va.lanes.map fp16.decode)
  | .f32 =>
    require (decide (a.val < 15)) (flt cFMT 0)
    let vb ← s.rdV (succ16 a)
    require (vb.tag == .f32) (flt cFMT 0)
    .ok ((va.lanes ++ vb.lanes).map fp32.decode)
  | _ => fault (flt cFMT 0)

/-- Bytes of scale and spare of a block within the side field (R17). -/
def sidePlace (t : Tag) (part : Nat) : Nat := if t = .e2m1x then 16 * part else 8 * part

/-- Replace `n` bits of a number from bit `lo` on. -/
def setBits (x lo n v : Nat) : Nat := x % 2 ^ lo + v % 2 ^ n * 2 ^ lo + x / 2 ^ (lo + n) * 2 ^ (lo + n)

/-- The body and side field with one block replaced. -/
def putBlock (t : Tag) (body side part : Nat) (b : Block) : Nat × Nat :=
  let w := tagWidth t
  (setBits body (32 * w * part) (32 * w) (ofLanes w b.codes),
    if t = .e2m1x then setBits side (16 * part) 16 (b.scale + 256 * b.spare) else setBits side (8 * part) 8 b.scale)

/-- What the destination of `vquant` holds beside the block: its own blocks, or zero elements with scale 2^0; side
bytes 2 to 7 of a B8 register hold no scale and are zero (R17, R196). -/
def State.quantOld (s : State) (d : Fin 16) (t : Tag) : Nat × Nat :=
  let v := s.vreg d
  if v.tag = t then (v.body.toNat, if t = .b8 then v.side.toNat % 2 ^ 16 else v.side.toNat)
  else (0, if t = .e2m1x then 0x007F007F007F007F else 0x7F7F)

def execVquant (sm : Bool) (d a : Fin 16) (p : Fin 4) (f : Bool) (s : State) : Host.Outcome State Fault Refusal :=
  s.issue sm fun s => do
    let t : Tag := if f then .b8 else .e2m1x
    let xs ← s.quantSource a
    require (!f || decide (p.val < 2)) (flt cFMT 0)
    let r := cvtRnds s.me.fmode 32 s.me.srseed
    let q := quantise t (bitAt s.me.fmode 8) xs r.1
    let old := s.quantOld d t
    let b := putBlock t old.1 old.2 p.val q
    done (((s.modMe fun h => { h with srseed := r.2 }).addFlags q.flags).wrV d ⟨t, BitVec.ofNat 512 b.1, word b.2⟩)

/-- The full value of an element of a block register (R100). -/
def VReg.element (v : VReg) (e : Nat) : Num :=
  let c := v.body.toNat / 2 ^ (tagWidth v.tag * e) % 2 ^ tagWidth v.tag
  let lo := sidePlace v.tag (e / 32)
  blockNum v.tag c (bitsOf v.side lo 8) (bitsOf v.side (lo + 8) 8)

def execVdequant (sm : Bool) (d a : Fin 16) (p m : Fin 8) (f : Tag) (s : State) : Host.Outcome State Fault Refusal :=
  s.issue sm fun s => do
    let q ← match arithFmt f with
      | some q => if f = .f64 then fault (flt cILL 0) else .ok q
      | none => fault (flt cILL 0)
    let va ← s.rdV a
    let mk ← s.rdM m
    require (isBlock va.tag) (flt cFMT 0)
    let nd := tagLanes f
    require (decide (p.val < tagLanes va.tag / nd)) (flt cFMT 0)
    let src := (List.range nd).map fun i => if bitAt mk i then some (p.val * nd + i) else none
    let r := convertLanes s.me.fmode true (fun rnd e => q.round rnd (va.element e)) src s.me.srseed
    done ((s.modMe fun h => { h with srseed := r.2 }).putLanes d f 0 r.1)

def execVtag (sm : Bool) (d a : Fin 16) (t : Tag) (s : State) : Host.Outcome State Fault Refusal :=
  s.issue sm fun s => do
    let va ← s.rdV a
    s.dIf (va.tag == .f64) fun s => done (s.wrV d { va with tag := t })

/-- Numbers of the generator for the active lanes, in ascending order (R199). -/
def seedLanes : List Bool → Word → List (Option (Nat × Nat)) × Word
  | [], seed => ([], seed)
  | false :: ls, seed =>
    let r := seedLanes ls seed
    (none :: r.1, r.2)
  | true :: ls, seed =>
    let q := srNext seed
    let r := seedLanes ls q.1
    (some (q.2, 0) :: r.1, r.2)

def execVseed (sm : Bool) (d : Fin 16) (m : Fin 8) (s : State) : Host.Outcome State Fault Refusal :=
  s.issue sm fun s => do
    let mk ← s.rdM m
    let r := seedLanes ((List.range 16).map fun i => bitAt mk i) s.me.srseed
    done ((s.modMe fun h => { h with srseed := r.2 }).putLanes d .i32 0 r.1)

end Sys2Proof.Machine
end

