-- ==== Sys2Proof/Machine/Window.lean ====
section
/-! DEFINITION. Writes to the Stratus control window as steps of their own, and what the exporting sectors answer (R337,
R355, R356, R358). -/

namespace Sys2Proof.Machine

def execNpoolPush (x : Sec) (v : BitVec 64) (s : State) : Host.Outcome State Fault Refusal :=
  event (s.npoolPush x v.toNat)

def execNpoolPop (x : Sec) (s : State) : Host.Outcome State Fault Refusal := event (s.npoolPop x).2

def execFpoolPush (x : Sec) (v : BitVec 64) (s : State) : Host.Outcome State Fault Refusal :=
  event (s.fpoolPush x v.toNat)

def execFpoolPop (x : Sec) (s : State) : Host.Outcome State Fault Refusal := event (s.fpoolPop x).2

def execExportOpen (x : Sec) (e : Fin 4096) (s : State) : Host.Outcome State Fault Refusal :=
  event (s.exportOpen x e.val)

def execExportRevoke (x : Sec) (e : Fin 4096) (bump : Bool) (s : State) : Host.Outcome State Fault Refusal :=
  event (s.exportRevoke x e.val bump)

/-- A request is checked and performed at the exporting home in one step, so none that passed the check is under way. -/
def execRevocationDrained (x : Sec) (e : Fin 4096) (s : State) : Host.Outcome State Fault Refusal :=
  event (if (s.export_ x e.val).busy then s.modExport x e.val fun en => { en with busy := false } else s)

def execImportHandleWrite (x : Sec) (slot : Fin 256) (v : BitVec 64) (s : State) : Host.Outcome State Fault Refusal :=
  event (s.importHandleWrite x slot.val v)

def execImportQuery (x : Sec) (slot : Fin 256) (s : State) : Host.Outcome State Fault Refusal :=
  event (s.importQuery x slot.val)

/-- The window is written in aligned words of 8 bytes. -/
def execControlWindowWrite (x : Sec) (off : BitVec 24) (v : BitVec 64) (s : State) : Host.Outcome State Fault Refusal :=
  event (if off.toNat % 8 = 0 then s.controlWrite x off.toNat v else s)

end Sys2Proof.Machine
end

