-- ==== Sys2Proof/Machine/Dispatch.lean ====
section
/-! DEFINITION. The dispatcher: one arm per instruction, each a call of the instruction's meaning. -/

namespace Sys2Proof.Machine

def exec (i : Instr) (s : State) : Host.Outcome State Fault Refusal :=
  match i with
  | .add sm d a b => Sys2Proof.Machine.execAdd sm d a b s
  | .sub sm d a b => Sys2Proof.Machine.execSub sm d a b s
  | .addw sm d a b => Sys2Proof.Machine.execAddw sm d a b s
  | .subw sm d a b => Sys2Proof.Machine.execSubw sm d a b s
  | .and sm d a b => Sys2Proof.Machine.execAnd sm d a b s
  | .or sm d a b => Sys2Proof.Machine.execOr sm d a b s
  | .xor sm d a b => Sys2Proof.Machine.execXor sm d a b s
  | .andn sm d a b => Sys2Proof.Machine.execAndn sm d a b s
  | .shl sm d a b => Sys2Proof.Machine.execShl sm d a b s
  | .shr sm d a b => Sys2Proof.Machine.execShr sm d a b s
  | .sar sm d a b => Sys2Proof.Machine.execSar sm d a b s
  | .min sm d a b => Sys2Proof.Machine.execMin sm d a b s
  | .max sm d a b => Sys2Proof.Machine.execMax sm d a b s
  | .minu sm d a b => Sys2Proof.Machine.execMinu sm d a b s
  | .maxu sm d a b => Sys2Proof.Machine.execMaxu sm d a b s
  | .abs sm d a => Sys2Proof.Machine.execAbs sm d a s
  | .neg sm d a => Sys2Proof.Machine.execNeg sm d a s
  | .mov sm d a => Sys2Proof.Machine.execMov sm d a s
  | .sh1add sm d a b => Sys2Proof.Machine.execSh1add sm d a b s
  | .sh2add sm d a b => Sys2Proof.Machine.execSh2add sm d a b s
  | .sh3add sm d a b => Sys2Proof.Machine.execSh3add sm d a b s
  | .addi sm d a i0 => Sys2Proof.Machine.execAddi sm d a i0 s
  | .andi sm d a i0 => Sys2Proof.Machine.execAndi sm d a i0 s
  | .ori sm d a i0 => Sys2Proof.Machine.execOri sm d a i0 s
  | .xori sm d a i0 => Sys2Proof.Machine.execXori sm d a i0 s
  | .ldi sm d i0 => Sys2Proof.Machine.execLdi sm d i0 s
  | .shli sm d a n => Sys2Proof.Machine.execShli sm d a n s
  | .shri sm d a n => Sys2Proof.Machine.execShri sm d a n s
  | .sari sm d a n => Sys2Proof.Machine.execSari sm d a n s
  | .cmpi sm p c a i0 => Sys2Proof.Machine.execCmpi sm p c a i0 s
  | .mul sm d a b => Sys2Proof.Machine.execMul sm d a b s
  | .mulh sm d a b => Sys2Proof.Machine.execMulh sm d a b s
  | .mulhu sm d a b => Sys2Proof.Machine.execMulhu sm d a b s
  | .mulw sm d a b => Sys2Proof.Machine.execMulw sm d a b s
  | .div sm d a b => Sys2Proof.Machine.execDiv sm d a b s
  | .divu sm d a b => Sys2Proof.Machine.execDivu sm d a b s
  | .rem sm d a b => Sys2Proof.Machine.execRem sm d a b s
  | .remu sm d a b => Sys2Proof.Machine.execRemu sm d a b s
  | .clz sm d a => Sys2Proof.Machine.execClz sm d a s
  | .ctz sm d a => Sys2Proof.Machine.execCtz sm d a s
  | .popc sm d a => Sys2Proof.Machine.execPopc sm d a s
  | .bswap sm d a => Sys2Proof.Machine.execBswap sm d a s
  | .bfx sm d a b => Sys2Proof.Machine.execBfx sm d a b s
  | .bfxu sm d a b => Sys2Proof.Machine.execBfxu sm d a b s
  | .bfi sm d a b => Sys2Proof.Machine.execBfi sm d a b s
  | .cmp sm d a b c => Sys2Proof.Machine.execCmp sm d a b c s
  | .test sm d a b c => Sys2Proof.Machine.execTest sm d a b c s
  | .sel sm d a b k => Sys2Proof.Machine.execSel sm d a b k s
  | .pand sm d a b => Sys2Proof.Machine.execPand sm d a b s
  | .por sm d a b => Sys2Proof.Machine.execPor sm d a b s
  | .pxor sm d a b => Sys2Proof.Machine.execPxor sm d a b s
  | .pnot sm d a => Sys2Proof.Machine.execPnot sm d a s
  | .pget sm d => Sys2Proof.Machine.execPget sm d s
  | .pset sm a => Sys2Proof.Machine.execPset sm a s
  | .ld sm d a z x o f => Sys2Proof.Machine.execLd sm d a z x o f s
  | .st sm d a z o f => Sys2Proof.Machine.execSt sm d a z o f s
  | .aadd sm d a b c o z => Sys2Proof.Machine.execAadd sm d a b c o z s
  | .aand sm d a b c o z => Sys2Proof.Machine.execAand sm d a b c o z s
  | .aor sm d a b c o z => Sys2Proof.Machine.execAor sm d a b c o z s
  | .axor sm d a b c o z => Sys2Proof.Machine.execAxor sm d a b c o z s
  | .amin sm d a b c o z => Sys2Proof.Machine.execAmin sm d a b c o z s
  | .amax sm d a b c o z => Sys2Proof.Machine.execAmax sm d a b c o z s
  | .aminu sm d a b c o z => Sys2Proof.Machine.execAminu sm d a b c o z s
  | .amaxu sm d a b c o z => Sys2Proof.Machine.execAmaxu sm d a b c o z s
  | .aswp sm d a b c o z => Sys2Proof.Machine.execAswp sm d a b c o z s
  | .acas sm d a b c o z => Sys2Proof.Machine.execAcas sm d a b c o z s
  | .aincb sm d a b c o z => Sys2Proof.Machine.execAincb sm d a b c o z s
  | .afadd sm d a b c o => Sys2Proof.Machine.execAfadd sm d a b c o s
  | .afmax sm d a b c o => Sys2Proof.Machine.execAfmax sm d a b c o s
  | .ldfe sm d a => Sys2Proof.Machine.execLdfe sm d a s
  | .ldff sm d a => Sys2Proof.Machine.execLdff sm d a s
  | .stfe sm d a => Sys2Proof.Machine.execStfe sm d a s
  | .stef sm d a => Sys2Proof.Machine.execStef sm d a s
  | .fen sm a b => Sys2Proof.Machine.execFen sm a b s
  | .fstat sm d a => Sys2Proof.Machine.execFstat sm d a s
  | .remp sm d => Sys2Proof.Machine.execRemp sm d s
  | .bp sm p f => Sys2Proof.Machine.execBp sm p f s
  | .bnp sm p f => Sys2Proof.Machine.execBnp sm p f s
  | .bz sm k f => Sys2Proof.Machine.execBz sm k f s
  | .bnz sm k f => Sys2Proof.Machine.execBnz sm k f s
  | .dbnz sm k f => Sys2Proof.Machine.execDbnz sm k f s
  | .j sm f => Sys2Proof.Machine.execJ sm f s
  | .jal sm f => Sys2Proof.Machine.execJal sm f s
  | .jr sm a => Sys2Proof.Machine.execJr sm a s
  | .jalr sm a => Sys2Proof.Machine.execJalr sm a s
  | .spawn sm d a => Sys2Proof.Machine.execSpawn sm d a s
  | .spawnn sm d a => Sys2Proof.Machine.execSpawnn sm d a s
  | .join sm d a => Sys2Proof.Machine.execJoin sm d a s
  | .jtest sm d a => Sys2Proof.Machine.execJtest sm d a s
  | .spabort sm a => Sys2Proof.Machine.execSpabort sm a s
  | .tres sm d a b k => Sys2Proof.Machine.execTres sm d a b k s
  | .psm sm d a z o => Sys2Proof.Machine.execPsm sm d a z o s
  | .psmb sm d a z k o => Sys2Proof.Machine.execPsmb sm d a z k o s
  | .zset sm a z o => Sys2Proof.Machine.execZset sm a z o s
  | .zget sm d z o => Sys2Proof.Machine.execZget sm d z o s
  | .done sm => Sys2Proof.Machine.execDone sm s
  | .yield sm => Sys2Proof.Machine.execYield sm s
  | .go sm a => Sys2Proof.Machine.execGo sm a s
  | .goh sm a => Sys2Proof.Machine.execGoh sm a s
  | .gohome sm => Sys2Proof.Machine.execGohome sm s
  | .sleep sm a b => Sys2Proof.Machine.execSleep sm a b s
  | .fence sm c o => Sys2Proof.Machine.execFence sm c o s
  | .fpush sm => Sys2Proof.Machine.execFpush sm s
  | .fwait sm => Sys2Proof.Machine.execFwait sm s
  | .xbeg sm d => Sys2Proof.Machine.execXbeg sm d s
  | .xcom sm => Sys2Proof.Machine.execXcom sm s
  | .xabt sm a => Sys2Proof.Machine.execXabt sm a s
  | .vadd sm d a b m x => Sys2Proof.Machine.execVadd sm d a b m x s
  | .vsub sm d a b m x => Sys2Proof.Machine.execVsub sm d a b m x s
  | .vmul sm d a b m x => Sys2Proof.Machine.execVmul sm d a b m x s
  | .vmulh sm d a b m x => Sys2Proof.Machine.execVmulh sm d a b m x s
  | .vmin sm d a b m x => Sys2Proof.Machine.execVmin sm d a b m x s
  | .vmax sm d a b m x => Sys2Proof.Machine.execVmax sm d a b m x s
  | .vabs sm d a m => Sys2Proof.Machine.execVabs sm d a m s
  | .vneg sm d a m => Sys2Proof.Machine.execVneg sm d a m s
  | .vaddsat sm d a b m x => Sys2Proof.Machine.execVaddsat sm d a b m x s
  | .vsubsat sm d a b m x => Sys2Proof.Machine.execVsubsat sm d a b m x s
  | .vsqrt sm d a m => Sys2Proof.Machine.execVsqrt sm d a m s
  | .vrcp sm d a m => Sys2Proof.Machine.execVrcp sm d a m s
  | .vrsq sm d a m => Sys2Proof.Machine.execVrsq sm d a m s
  | .vexp2 sm d a m => Sys2Proof.Machine.execVexp2 sm d a m s
  | .vand sm d a b m x => Sys2Proof.Machine.execVand sm d a b m x s
  | .vor sm d a b m x => Sys2Proof.Machine.execVor sm d a b m x s
  | .vxor sm d a b m x => Sys2Proof.Machine.execVxor sm d a b m x s
  | .vandn sm d a b m x => Sys2Proof.Machine.execVandn sm d a b m x s
  | .vshl sm d a b m x => Sys2Proof.Machine.execVshl sm d a b m x s
  | .vshr sm d a b m x => Sys2Proof.Machine.execVshr sm d a b m x s
  | .vsar sm d a b m x => Sys2Proof.Machine.execVsar sm d a b m x s
  | .vclz sm d a m => Sys2Proof.Machine.execVclz sm d a m s
  | .vpopc sm d a m => Sys2Proof.Machine.execVpopc sm d a m s
  | .vfma sm d a b m => Sys2Proof.Machine.execVfma sm d a b m s
  | .vfms sm d a b m => Sys2Proof.Machine.execVfms sm d a b m s
  | .vfnma sm d a b m => Sys2Proof.Machine.execVfnma sm d a b m s
  | .vfnms sm d a b m => Sys2Proof.Machine.execVfnms sm d a b m s
  | .vdot2 sm d a b m => Sys2Proof.Machine.execVdot2 sm d a b m s
  | .vdot4 sm d a b m => Sys2Proof.Machine.execVdot4 sm d a b m s
  | .vcmp sm d a b m x c => Sys2Proof.Machine.execVcmp sm d a b m x c s
  | .vclass sm d a m k => Sys2Proof.Machine.execVclass sm d a m k s
  | .vsel sm d a b k => Sys2Proof.Machine.execVsel sm d a b k s
  | .mand sm d a b => Sys2Proof.Machine.execMand sm d a b s
  | .mor sm d a b => Sys2Proof.Machine.execMor sm d a b s
  | .mnot sm d a => Sys2Proof.Machine.execMnot sm d a s
  | .mcount sm d a => Sys2Proof.Machine.execMcount sm d a s
  | .mfirst sm d a => Sys2Proof.Machine.execMfirst sm d a s
  | .vbcast sm d a m t => Sys2Proof.Machine.execVbcast sm d a m t s
  | .vins sm d a b => Sys2Proof.Machine.execVins sm d a b s
  | .vext sm d a b => Sys2Proof.Machine.execVext sm d a b s
  | .vperm sm d a b m => Sys2Proof.Machine.execVperm sm d a b m s
  | .vcompress sm d a m => Sys2Proof.Machine.execVcompress sm d a m s
  | .vexpand sm d a m => Sys2Proof.Machine.execVexpand sm d a m s
  | .vredadd sm d a m => Sys2Proof.Machine.execVredadd sm d a m s
  | .vredmax sm d a m => Sys2Proof.Machine.execVredmax sm d a m s
  | .vredmin sm d a m => Sys2Proof.Machine.execVredmin sm d a m s
  | .vscan sm d a m x => Sys2Proof.Machine.execVscan sm d a m x s
  | .vcvt sm d a p m f => Sys2Proof.Machine.execVcvt sm d a p m f s
  | .vquant sm d a p f => Sys2Proof.Machine.execVquant sm d a p f s
  | .vdequant sm d a p m f => Sys2Proof.Machine.execVdequant sm d a p m f s
  | .vtag sm d a t => Sys2Proof.Machine.execVtag sm d a t s
  | .vseed sm d m => Sys2Proof.Machine.execVseed sm d m s
  | .vld sm d a m f o => Sys2Proof.Machine.execVld sm d a m f o s
  | .vst sm d a m f o => Sys2Proof.Machine.execVst sm d a m f o s
  | .vldbc sm d a m f o => Sys2Proof.Machine.execVldbc sm d a m f o s
  | .vlds sm d a m f o => Sys2Proof.Machine.execVlds sm d a m f o s
  | .vsts sm d a m f o => Sys2Proof.Machine.execVsts sm d a m f o s
  | .vgat sm d a b m t => Sys2Proof.Machine.execVgat sm d a b m t s
  | .vsct sm d a b m => Sys2Proof.Machine.execVsct sm d a b m s
  | .vsctadd sm d a b m => Sys2Proof.Machine.execVsctadd sm d a b m s
  | .hsift sm d a b k => Sys2Proof.Machine.execHsift sm d a b k s
  | .tstep sm d a b p => Sys2Proof.Machine.execTstep sm d a b p s
  | .dgi sm d a r => Sys2Proof.Machine.execDgi sm d a r s
  | .dga sm a n => Sys2Proof.Machine.execDga sm a n s
  | .dgo sm d r => Sys2Proof.Machine.execDgo sm d r s
  | .dglog sm a b => Sys2Proof.Machine.execDglog sm a b s
  | .mxcfg sm a x => Sys2Proof.Machine.execMxcfg sm a x s
  | .mxzero sm d n => Sys2Proof.Machine.execMxzero sm d n s
  | .mxrel sm => Sys2Proof.Machine.execMxrel sm s
  | .mxsave sm d a n => Sys2Proof.Machine.execMxsave sm d a n s
  | .mxrest sm d a n => Sys2Proof.Machine.execMxrest sm d a n s
  | .mxmm sm d a b q p z n => Sys2Proof.Machine.execMxmm sm d a b q p z n s
  | .mxmmg sm d a b q p z n => Sys2Proof.Machine.execMxmmg sm d a b q p z n s
  | .mxmms sm d a b q p z n => Sys2Proof.Machine.execMxmms sm d a b q p z n s
  | .mxmmgs sm d a b q p z n => Sys2Proof.Machine.execMxmmgs sm d a b q p z n s
  | .mxst sm d a f q p n => Sys2Proof.Machine.execMxst sm d a f q p n s
  | .mxstq sm d a f q p n => Sys2Proof.Machine.execMxstq sm d a f q p n s
  | .mxscale sm d a q p n => Sys2Proof.Machine.execMxscale sm d a q p n s
  | .qset sm d a => Sys2Proof.Machine.execQset sm d a s
  | .qclr sm d a => Sys2Proof.Machine.execQclr sm d a s
  | .qld sm d a => Sys2Proof.Machine.execQld sm d a s
  | .qst sm d a => Sys2Proof.Machine.execQst sm d a s
  | .qtest sm d a b => Sys2Proof.Machine.execQtest sm d a b s
  | .pgld sm d a b r => Sys2Proof.Machine.execPgld sm d a b r s
  | .pgset sm a b => Sys2Proof.Machine.execPgset sm a b s
  | .pgrun sm d a b => Sys2Proof.Machine.execPgrun sm d a b s
  | .pgrel sm => Sys2Proof.Machine.execPgrel sm s
  | .pginv sm d a => Sys2Proof.Machine.execPginv sm d a s
  | .csetReg d a => Sys2Proof.Machine.execCsetReg d a s
  | .csetImm d i0 => Sys2Proof.Machine.execCsetImm d i0 s
  | .caddReg d a n b => Sys2Proof.Machine.execCaddReg d a n b s
  | .caddImm d a n i0 => Sys2Proof.Machine.execCaddImm d a n i0 s
  | .cmulReg d a b => Sys2Proof.Machine.execCmulReg d a b s
  | .cmulImm d a i0 => Sys2Proof.Machine.execCmulImm d a i0 s
  | .cdivReg d a b => Sys2Proof.Machine.execCdivReg d a b s
  | .cdivImm d a i0 => Sys2Proof.Machine.execCdivImm d a i0 s
  | .cmodReg d a b => Sys2Proof.Machine.execCmodReg d a b s
  | .cmodImm d a i0 => Sys2Proof.Machine.execCmodImm d a i0 s
  | .chashReg d a b => Sys2Proof.Machine.execChashReg d a b s
  | .chashImm d a i0 => Sys2Proof.Machine.execChashImm d a i0 s
  | .cbr c a b f => Sys2Proof.Machine.execCbr c a b f s
  | .cloop d a f => Sys2Proof.Machine.execCloop d a f s
  | .cnextReg d a b => Sys2Proof.Machine.execCnextReg d a b s
  | .cnextImm d a i0 => Sys2Proof.Machine.execCnextImm d a i0 s
  | .cemitReg d a => Sys2Proof.Machine.execCemitReg d a s
  | .cemitImm d i0 => Sys2Proof.Machine.execCemitImm d i0 s
  | .crunReg d a b => Sys2Proof.Machine.execCrunReg d a b s
  | .crunImm d a i0 => Sys2Proof.Machine.execCrunImm d a i0 s
  | .ckronReg d a b => Sys2Proof.Machine.execCkronReg d a b s
  | .ckronImm d a i0 => Sys2Proof.Machine.execCkronImm d a i0 s
  | .cinv => Sys2Proof.Machine.execCinv s
  | .cstop => Sys2Proof.Machine.execCstop s
  | .send sm d a b k => Sys2Proof.Machine.execSend sm d a b k s
  | .sendm sm d a b k => Sys2Proof.Machine.execSendm sm d a b k s
  | .fetch sm d a b => Sys2Proof.Machine.execFetch sm d a b s
  | .flush sm d a b k => Sys2Proof.Machine.execFlush sm d a b k s
  | .sendg sm d a b k => Sys2Proof.Machine.execSendg sm d a b k s
  | .wmset sm a b => Sys2Proof.Machine.execWmset sm a b s
  | .wmget sm d a => Sys2Proof.Machine.execWmget sm d a s
  | .xgat sm d a b w z => Sys2Proof.Machine.execXgat sm d a b w z s
  | .xsct sm d a b w z => Sys2Proof.Machine.execXsct sm d a b w z s
  | .xsctadd sm d a b w f z => Sys2Proof.Machine.execXsctadd sm d a b w f z s
  | .jwait sm d a => Sys2Proof.Machine.execJwait sm d a s
  | .jpoll sm d a => Sys2Proof.Machine.execJpoll sm d a s
  | .lease sm d a => Sys2Proof.Machine.execLease sm d a s
  | .unlease sm d a => Sys2Proof.Machine.execUnlease sm d a s
  | .pf sm a => Sys2Proof.Machine.execPf sm a s
  | .llcwb sm d a => Sys2Proof.Machine.execLlcwb sm d a s
  | .pmig sm d a x => Sys2Proof.Machine.execPmig sm d a x s
  | .nsend sm d a => Sys2Proof.Machine.execNsend sm d a s
  | .npoll sm d a => Sys2Proof.Machine.execNpoll sm d a s
  | .mfs sm d n => Sys2Proof.Machine.execMfs sm d n s
  | .mts sm a n => Sys2Proof.Machine.execMts sm a n s
  | .ptbrWrite x asid v => Sys2Proof.Machine.execPtbrWrite x asid v s
  | .sysctlPmWrite x tsel pm all => Sys2Proof.Machine.execSysctlPmWrite x tsel pm all s
  | .progressModeApply x cl co => Sys2Proof.Machine.execProgressModeApply x cl co s
  | .hxmboxLockRequest x horizonToo => Sys2Proof.Machine.execHxmboxLockRequest x horizonToo s
  | .hxmboxLockRelease x => Sys2Proof.Machine.execHxmboxLockRelease x s
  | .hxmboxDbiClear x => Sys2Proof.Machine.execHxmboxDbiClear x s
  | .trap sm n => Sys2Proof.Machine.execTrap sm n s
  | .eret sm => Sys2Proof.Machine.execEret sm s
  | .wfi sm => Sys2Proof.Machine.execWfi sm s
  | .brk sm n => Sys2Proof.Machine.execBrk sm n s
  | .tlbi sm a b => Sys2Proof.Machine.execTlbi sm a b s
  | .tlbiAll sm a => Sys2Proof.Machine.execTlbiAll sm a s
  | .tlbsync sm => Sys2Proof.Machine.execTlbsync sm s
  | .seal sm d a => Sys2Proof.Machine.execSeal sm d a s
  | .ipi sm a b => Sys2Proof.Machine.execIpi sm a b s
  | .dadd sm d a b => Sys2Proof.Machine.execDadd sm d a b s
  | .dsub sm d a b => Sys2Proof.Machine.execDsub sm d a b s
  | .dmul sm d a b => Sys2Proof.Machine.execDmul sm d a b s
  | .ddiv sm d a b => Sys2Proof.Machine.execDdiv sm d a b s
  | .dfma sm d a b => Sys2Proof.Machine.execDfma sm d a b s
  | .dsqrt sm d a => Sys2Proof.Machine.execDsqrt sm d a s
  | .dcmp sm d a b c => Sys2Proof.Machine.execDcmp sm d a b c s
  | .dcvt sm d a k => Sys2Proof.Machine.execDcvt sm d a k s
  | .vdfma sm d a b m => Sys2Proof.Machine.execVdfma sm d a b m s
  | .fadd sm d a b => Sys2Proof.Machine.execFadd sm d a b s
  | .fsub sm d a b => Sys2Proof.Machine.execFsub sm d a b s
  | .fmul sm d a b => Sys2Proof.Machine.execFmul sm d a b s
  | .fdiv sm d a b => Sys2Proof.Machine.execFdiv sm d a b s
  | .ffma sm d a b => Sys2Proof.Machine.execFfma sm d a b s
  | .fmin sm d a b => Sys2Proof.Machine.execFmin sm d a b s
  | .fmax sm d a b => Sys2Proof.Machine.execFmax sm d a b s
  | .fabs sm d a => Sys2Proof.Machine.execFabs sm d a s
  | .fneg sm d a => Sys2Proof.Machine.execFneg sm d a s
  | .fsqrt sm d a => Sys2Proof.Machine.execFsqrt sm d a s
  | .fcmp sm d a b c => Sys2Proof.Machine.execFcmp sm d a b c s
  | .fcvt sm d a k => Sys2Proof.Machine.execFcvt sm d a k s
  | .himm i0 => Sys2Proof.Machine.execHimm i0 s
  | .hloc r c x => Sys2Proof.Machine.execHloc r c x s
  | .hbr h x => Sys2Proof.Machine.execHbr h x s
  | .hpri x c => Sys2Proof.Machine.execHpri x c s
  | .hmu k a => Sys2Proof.Machine.execHmu k a s
  | .hintReserved k x => Sys2Proof.Machine.execHintReserved k x s
  | .interruptTaken x n => Sys2Proof.Machine.execInterruptTaken x n s
  | .watchdogExpire x cl co => Sys2Proof.Machine.execWatchdogExpire x cl co s
  | .registerFillWake g => Sys2Proof.Machine.execRegisterFillWake g s
  | .feWordWake x cl word => Sys2Proof.Machine.execFeWordWake x cl word s
  | .watermarkWake x cl => Sys2Proof.Machine.execWatermarkWake x cl s
  | .sleepWake g => Sys2Proof.Machine.execSleepWake g s
  | .joinComplete g => Sys2Proof.Machine.execJoinComplete g s
  | .jwaitComplete g => Sys2Proof.Machine.execJwaitComplete g s
  | .queueEntryFree g => Sys2Proof.Machine.execQueueEntryFree g s
  | .poolEntryFree x => Sys2Proof.Machine.execPoolEntryFree x s
  | .dSlotFree x cl => Sys2Proof.Machine.execDSlotFree x cl s
  | .depositArrive id => Sys2Proof.Machine.execDepositArrive id s
  | .depositLand id => Sys2Proof.Machine.execDepositLand id s
  | .pushAccept id => Sys2Proof.Machine.execPushAccept id s
  | .bankRead id => Sys2Proof.Machine.execBankRead id s
  | .bankWrite id => Sys2Proof.Machine.execBankWrite id s
  | .bankAtomic id => Sys2Proof.Machine.execBankAtomic id s
  | .peerRequest id => Sys2Proof.Machine.execPeerRequest id s
  | .zenithCycle x uid z order => Sys2Proof.Machine.execZenithCycle x uid z order s
  | .drawRequest g => Sys2Proof.Machine.execDrawRequest g s
  | .vtStart g => Sys2Proof.Machine.execVtStart g s
  | .indexAssign x => Sys2Proof.Machine.execIndexAssign x s
  | .leaseResidencyCheck x uid => Sys2Proof.Machine.execLeaseResidencyCheck x uid s
  | .readyBroadcast x uid => Sys2Proof.Machine.execReadyBroadcast x uid s
  | .contextChoose g => Sys2Proof.Machine.execContextChoose g s
  | .residencyProbe x uid => Sys2Proof.Machine.execResidencyProbe x uid s
  | .instanceEnd x uid => Sys2Proof.Machine.execInstanceEnd x uid s
  | .engineStep x cl => Sys2Proof.Machine.execEngineStep x cl s
  | .matrixCommandComplete x cl co => Sys2Proof.Machine.execMatrixCommandComplete x cl co s
  | .accumulatorClaim x home slot => Sys2Proof.Machine.execAccumulatorClaim x home slot s
  | .copyCommandStart x cl => Sys2Proof.Machine.execCopyCommandStart x cl s
  | .copyComplete x cl id => Sys2Proof.Machine.execCopyComplete x cl id s
  | .xgComplete x id => Sys2Proof.Machine.execXgComplete x id s
  | .jobComplete x id => Sys2Proof.Machine.execJobComplete x id s
  | .detachedJobEnd x id => Sys2Proof.Machine.execDetachedJobEnd x id s
  | .ringReservation x cl id => Sys2Proof.Machine.execRingReservation x cl id s
  | .tlbiComplete x id => Sys2Proof.Machine.execTlbiComplete x id s
  | .migrationGroupMove x asid va far => Sys2Proof.Machine.execMigrationGroupMove x asid va far s
  | .migrationMessageArrive id => Sys2Proof.Machine.execMigrationMessageArrive id s
  | .migrationAdmit x cl => Sys2Proof.Machine.execMigrationAdmit x cl s
  | .inboxOverflow x cl id => Sys2Proof.Machine.execInboxOverflow x cl id s
  | .heapReplay x cl => Sys2Proof.Machine.execHeapReplay x cl s
  | .backpressureRetry id => Sys2Proof.Machine.execBackpressureRetry id s
  | .probeToken id => Sys2Proof.Machine.execProbeToken id s
  | .preempt x cl co issuer => Sys2Proof.Machine.execPreempt x cl co issuer s
  | .preemptImagesSaved x cl co => Sys2Proof.Machine.execPreemptImagesSaved x cl co s
  | .coreRelease x cl co => Sys2Proof.Machine.execCoreRelease x cl co s
  | .imageRestore x idx => Sys2Proof.Machine.execImageRestore x idx s
  | .spillQueueAppend id => Sys2Proof.Machine.execSpillQueueAppend id s
  | .npoolPush x v => Sys2Proof.Machine.execNpoolPush x v s
  | .npoolPop x => Sys2Proof.Machine.execNpoolPop x s
  | .fpoolPush x v => Sys2Proof.Machine.execFpoolPush x v s
  | .fpoolPop x => Sys2Proof.Machine.execFpoolPop x s
  | .exportOpen x e => Sys2Proof.Machine.execExportOpen x e s
  | .exportRevoke x e bump => Sys2Proof.Machine.execExportRevoke x e bump s
  | .revocationDrained x e => Sys2Proof.Machine.execRevocationDrained x e s
  | .importHandleWrite x slot v => Sys2Proof.Machine.execImportHandleWrite x slot v s
  | .importQuery x slot => Sys2Proof.Machine.execImportQuery x slot s
  | .controlWindowWrite x off v => Sys2Proof.Machine.execControlWindowWrite x off v s
  | .eccEvent site retry => Sys2Proof.Machine.execEccEvent site retry s
  | .linkCrcError l again => Sys2Proof.Machine.execLinkCrcError l again s
  | .bridgeFence b => Sys2Proof.Machine.execBridgeFence b s
  | .chipletFence x ch => Sys2Proof.Machine.execChipletFence x ch s
  | .chipletAdmit x ch entry => Sys2Proof.Machine.execChipletAdmit x ch entry s
  | .modulePowerOn => Sys2Proof.Machine.execModulePowerOn s
  | .sectorRelease x => Sys2Proof.Machine.execSectorRelease x s
  | .sectorResetOrderly x => Sys2Proof.Machine.execSectorResetOrderly x s
  | .sectorResetForced x => Sys2Proof.Machine.execSectorResetForced x s
  | .quiesceRequest x n => Sys2Proof.Machine.execQuiesceRequest x n s
  | .quiesceDone x n => Sys2Proof.Machine.execQuiesceDone x n s
  | .quiesceTimeout x n => Sys2Proof.Machine.execQuiesceTimeout x n s
  | .hxQuote x => Sys2Proof.Machine.execHxQuote x s
  | .hxReadlog x => Sys2Proof.Machine.execHxReadlog x s
  | .hxTelem x => Sys2Proof.Machine.execHxTelem x s
  | .hxFence x => Sys2Proof.Machine.execHxFence x s
  | .hxAdmit x => Sys2Proof.Machine.execHxAdmit x s
  | .hxSreset x => Sys2Proof.Machine.execHxSreset x s
  | .hxNetcfg x => Sys2Proof.Machine.execHxNetcfg x s
  | .hxPciecfg x => Sys2Proof.Machine.execHxPciecfg x s
  | .hxPcap x => Sys2Proof.Machine.execHxPcap x s
  | .horizonResponse x => Sys2Proof.Machine.execHorizonResponse x s
  | .mgmtTelemetry => Sys2Proof.Machine.execMgmtTelemetry s
  | .mgmtFirmware r => Sys2Proof.Machine.execMgmtFirmware r s
  | .mgmtBootReset x reset forced scrub => Sys2Proof.Machine.execMgmtBootReset x reset forced scrub s
  | .mgmtFence r => Sys2Proof.Machine.execMgmtFence r s
  | .mgmtPower x cap => Sys2Proof.Machine.execMgmtPower x cap s
  | .mgmtAttestation x nonce => Sys2Proof.Machine.execMgmtAttestation x nonce s
  | .clockStep x up => Sys2Proof.Machine.execClockStep x up s
  | .thermalTrip x => Sys2Proof.Machine.execThermalTrip x s
  | .railFault sectors => Sys2Proof.Machine.execRailFault sectors s
  | .rdmaWriteIn x r => Sys2Proof.Machine.execRdmaWriteIn x r s
  | .rdmaReadIn x r => Sys2Proof.Machine.execRdmaReadIn x r s
  | .rdmaSendIn x r => Sys2Proof.Machine.execRdmaSendIn x r s
  | .pcieDescriptorRing x => Sys2Proof.Machine.execPcieDescriptorRing x s
  | .pcieDma x r => Sys2Proof.Machine.execPcieDma x r s
  | .pcieMessageWrite x v => Sys2Proof.Machine.execPcieMessageWrite x v s
  | .scratchpadFlitArrive x cl id => Sys2Proof.Machine.execScratchpadFlitArrive x cl id s
  | .pcieCompletion x slot status data => Sys2Proof.Machine.execPcieCompletion x slot status data s
  | .receiverNotReadyNak x id => Sys2Proof.Machine.execReceiverNotReadyNak x id s

end Sys2Proof.Machine
end

