-- ==== Sys2Proof/Machine/Sources.lean ====
section
/-! DEFINITION. What an agent does to issue its next instruction: the fetch, the first read of a deposited value as an
acquire (R308, R325), and the state in which the instruction executes. -/

namespace Sys2Proof.Machine

/-! ## The s registers that an instruction reads -/

/-- The registers that `spawn` captures (R152). -/
def captured : List (Fin 16) := [0, 1, 2, 3, 4, 5, 6, 7, 8, 9, 10, 11]

/-- A predicated matrix form reads the index of its predicate, and its other registers only if the predicate holds
(R232). -/
def State.outReads (s : State) (d : Fin 16) (q : Fin 4) (p : Bool) (rest : List (Fin 16)) : List (Fin 16) :=
  (if p then [d] else []) ++ match s.mxPred d q p with
    | .ok true => rest
    | _ => []

/-- A multiply form reads the second register of a pair only when it uses it (R221, R231). -/
def State.mulReads (s : State) (gather sparse : Bool) (d a b : Fin 16) (q : Fin 4) (p : Bool) : List (Fin 16) :=
  let cfg := match s.cur with
    | .thread x i => (s.ctx x i.val).mxcfg.map mxShape
    | .master _ _ => none
  s.outReads d q p ([a, b] ++ match cfg with
    | some h => (if gather || blockTag h.af then [succ16 a] else []) ++
      (if sparse || blockTag h.bf then [succ16 b] else [])
    | none => if gather then [succ16 a] else [])

/-- The s registers whose values an instruction reads. -/
def State.reads (s : State) (i : Instr) : List (Fin 16) :=
  match i with
  | .add _ _ a b => [a, b]
  | .sub _ _ a b => [a, b]
  | .addw _ _ a b => [a, b]
  | .subw _ _ a b => [a, b]
  | .and _ _ a b => [a, b]
  | .or _ _ a b => [a, b]
  | .xor _ _ a b => [a, b]
  | .andn _ _ a b => [a, b]
  | .shl _ _ a b => [a, b]
  | .shr _ _ a b => [a, b]
  | .sar _ _ a b => [a, b]
  | .min _ _ a b => [a, b]
  | .max _ _ a b => [a, b]
  | .minu _ _ a b => [a, b]
  | .maxu _ _ a b => [a, b]
  | .abs _ _ a => [a]
  | .neg _ _ a => [a]
  | .mov _ _ a => [a]
  | .sh1add _ _ a b => [a, b]
  | .sh2add _ _ a b => [a, b]
  | .sh3add _ _ a b => [a, b]
  | .addi _ _ a _ => [a]
  | .andi _ _ a _ => [a]
  | .ori _ _ a _ => [a]
  | .xori _ _ a _ => [a]
  | .shli _ _ a _ => [a]
  | .shri _ _ a _ => [a]
  | .sari _ _ a _ => [a]
  | .cmpi _ _ _ a _ => [a]
  | .mul _ _ a b => [a, b]
  | .mulh _ _ a b => [a, b]
  | .mulhu _ _ a b => [a, b]
  | .mulw _ _ a b => [a, b]
  | .div _ _ a b => [a, b]
  | .divu _ _ a b => [a, b]
  | .rem _ _ a b => [a, b]
  | .remu _ _ a b => [a, b]
  | .clz _ _ a => [a]
  | .ctz _ _ a => [a]
  | .popc _ _ a => [a]
  | .bswap _ _ a => [a]
  | .bfx _ _ a b => [a, b]
  | .bfxu _ _ a b => [a, b]
  | .bfi _ d a b => [d, a, b]
  | .cmp _ _ a b _ => [a, b]
  | .test _ _ a b _ => [a, b]
  | .sel _ _ a b _ => [a, b]
  | .pset _ a => [a]
  | .ld _ _ a _ _ _ _ => [a]
  | .st _ d a _ _ _ => [d, a]
  | .aadd _ _ a b _ _ _ => [a, b]
  | .aand _ _ a b _ _ _ => [a, b]
  | .aor _ _ a b _ _ _ => [a, b]
  | .axor _ _ a b _ _ _ => [a, b]
  | .amin _ _ a b _ _ _ => [a, b]
  | .amax _ _ a b _ _ _ => [a, b]
  | .aminu _ _ a b _ _ _ => [a, b]
  | .amaxu _ _ a b _ _ _ => [a, b]
  | .aswp _ _ a b _ _ _ => [a, b]
  | .acas _ _ a b _ _ _ => [a, b, succ16 b]
  | .aincb _ _ a b _ _ _ => [a, b]
  | .afadd _ _ a b _ _ => [a, b]
  | .afmax _ _ a b _ _ => [a, b]
  | .ldfe _ _ a => [a]
  | .ldff _ _ a => [a]
  | .stfe _ d a => [d, a]
  | .stef _ d a => [d, a]
  | .fen _ a b => [a, b]
  | .fstat _ _ a => [a]
  | .bz _ k _ => [k]
  | .bnz _ k _ => [k]
  | .dbnz _ k _ => [k]
  | .jr _ a => [a]
  | .jalr _ a => [a]
  | .spawn _ _ a => a :: captured
  | .spawnn _ _ a => a :: captured
  | .join _ _ a => [a]
  | .jtest _ _ a => [a]
  | .spabort _ a => [a]
  | .tres _ _ a b _ => [a, b]
  | .psm _ _ a _ _ => [a]
  | .psmb _ _ a _ _ _ => [a, succ16 a]
  | .zset _ a _ _ => [a]
  | .go _ a => [a]
  | .goh _ a => [a]
  | .sleep _ a b => [a, b]
  | .xabt _ a => [a]
  | .vbcast _ _ a _ _ => [a]
  | .vins _ _ a b => [a, b]
  | .vext _ _ _ b => [b]
  | .vld _ _ a _ _ _ => [a]
  | .vst _ _ a _ _ _ => [a]
  | .vldbc _ _ a _ _ _ => [a]
  | .vlds _ _ a _ _ _ => [a]
  | .vsts _ _ a _ _ _ => [a]
  | .vgat _ _ a _ _ _ => [a]
  | .vsct _ _ a _ _ => [a]
  | .vsctadd _ _ a _ _ => [a]
  | .hsift _ _ a b _ => [a, b]
  | .tstep _ d a b _ => [d, a, b]
  | .dgi _ _ a _ => [a]
  | .dga _ a _ => [a]
  | .dglog _ _ b => [b]
  | .mxcfg _ a _ => [a, succ16 a]
  | .mxsave _ _ a _ => [a]
  | .mxrest _ _ a _ => [a]
  | .mxmm _ d a b q p _ _ => s.mulReads false false d a b q p
  | .mxmmg _ d a b q p _ _ => s.mulReads true false d a b q p
  | .mxmms _ d a b q p _ _ => s.mulReads false true d a b q p
  | .mxmmgs _ d a b q p _ _ => s.mulReads true true d a b q p
  | .mxst _ d a _ q p _ => s.outReads d q p [a, succ16 a]
  | .mxstq _ d a _ q p _ => s.outReads d q p [a, succ16 a]
  | .mxscale _ d a q p _ => s.outReads d q p [a]
  | .qset _ _ a => [a]
  | .qclr _ _ a => [a]
  | .qld _ _ a => [a]
  | .qst _ _ a => [a]
  | .qtest _ _ _ b => [b]
  | .pgld _ _ a b r => b :: if r then [] else [a]
  | .pgset _ a b => [a, b]
  | .pgrun _ _ a b => [a, succ16 a, b, succ16 b]
  | .pginv _ _ a => [a]
  | .send _ _ a b _ => [a, b, succ16 b]
  | .sendm _ _ a b _ => [a, succ16 a, b, succ16 b]
  | .fetch _ _ a b => [a, b, succ16 b]
  | .flush _ _ a b _ => [a, b, succ16 b]
  | .sendg _ _ a b _ => [a, b, succ16 b]
  | .wmset _ a b => [a, b, succ16 b]
  | .wmget _ _ a => [a]
  | .xgat _ _ a b _ _ => [a, succ16 a, b, succ16 b]
  | .xsct _ _ a b _ _ => [a, succ16 a, b, succ16 b]
  | .xsctadd _ _ a b _ _ _ => [a, succ16 a, b, succ16 b]
  | .jwait _ _ a => [a]
  | .jpoll _ _ a => [a]
  | .lease _ _ a => [a, succ16 a]
  | .unlease _ _ a => [a, succ16 a]
  | .pf _ a => [a, succ16 a]
  | .llcwb _ _ a => [a, succ16 a]
  | .pmig _ _ a _ => [a, succ16 a]
  | .nsend _ _ a => [a]
  | .npoll _ _ a => [a]
  | .mts _ a _ => [a]
  | .tlbi _ a b => [a, succ16 a, b]
  | .tlbiAll _ a => [a, succ16 a]
  | .seal _ _ a => [a, succ16 a]
  | .ipi _ a b => [a, b]
  | .dadd _ _ a b => [a, b]
  | .dsub _ _ a b => [a, b]
  | .dmul _ _ a b => [a, b]
  | .ddiv _ _ a b => [a, b]
  | .dfma _ d a b => [d, a, b]
  | .dsqrt _ _ a => [a]
  | .dcmp _ _ a b _ => [a, b]
  | .dcvt _ _ a _ => [a]
  | .fadd _ _ a b => [a, b]
  | .fsub _ _ a b => [a, b]
  | .fmul _ _ a b => [a, b]
  | .fdiv _ _ a b => [a, b]
  | .ffma _ d a b => [d, a, b]
  | .fmin _ _ a b => [a, b]
  | .fmax _ _ a b => [a, b]
  | .fabs _ _ a => [a]
  | .fneg _ _ a => [a]
  | .fsqrt _ _ a => [a]
  | .fcmp _ _ a b _ => [a, b]
  | .fcvt _ _ a _ => [a]
  | _ => []

/-- The first read of a deposited value is an acquire (R308, R325): it waits until the agent's earlier releases
have been accepted, and it begins a new interval of the read-only path. Absent while it must wait. -/
def State.observe (s : State) (i : Instr) : Option State :=
  let rs := s.reads i
  if rs.all (fun r => (s.me.s.get r).full) && rs.any (fun r => s.me.unread.contains r) then
    if s.releaseOpen s.cur then none
    else some (s.acquired.modMe fun h => { h with unread := h.unread.filter fun r => !rs.contains r })
  else some s

/-! ## Issuing -/

/-- What becomes of an agent whose turn it is: an instruction to execute in a state, or only a next state (the fault of
a fetch, or a wait). -/
inductive Issue where
  | run (i : Instr) (s : State)
  | only (s : State)
  deriving DecidableEq, Repr

/-- An agent issues: its instruction is fetched, its operands are observed, or the fault of the fetch is taken. -/
noncomputable def State.issueAgent (s : State) (g : Agent) : Issue :=
  let t := s.begin_ g
  match t.fetch g with
  | .fault f w u => .only ({ u with curWord := w }.raise f)
  | .wait => .only t
  | .got w i u =>
    let u := { u with curWord := w }
    match u.observe i with
    | some v => .run i v
    | none => .only (u.waitMe .releases)

end Sys2Proof.Machine
end

