-- ==== Sys2Proof/Machine/Step.lean ====
section
/-! DEFINITION. One step of the module, and the placing of an instruction for it. -/

namespace Sys2Proof.Machine

/-- An agent issues, and its instruction executes. -/
noncomputable def stepAgent (s : State) (g : Agent) : Host.Outcome State Fault Refusal :=
  match s.issueAgent g with
  | .run i t => exec i t
  | .only t => .next t

/-- One step behind the roles: the input tape says what happens next; without it the due steps come first, then the
agents in turn. -/
noncomputable def stepNext (s : State) : Host.Outcome State Fault Refusal :=
  match s.tape with
  | .due k :: t => match s.agenda[k]? with
    | some d => exec d.toInstr { s with tape := t, agenda := s.agenda.eraseIdx k }
    | none => .next { s with tape := t }
  | .agent g :: t =>
    if s.canIssue g then stepAgent { s with tape := t } g else .next { s with tape := t }
  | .event i :: t => if wordSpace i = .event then exec i { s with tape := t } else .next { s with tape := t }
  | [] => match s.agenda with
    | d :: ds => exec d.toInstr { s with agenda := ds }
    | [] => match s.turns.find? s.canIssue with
      | some g => stepAgent s g
      | none => .fault .nothingDue

/-- One step: the roles of cores in mode Y settle (R371), and then one thing happens. -/
noncomputable def step (s : State) : Host.Outcome State Fault Refusal := stepNext s.grantRoles

/-- The state in which the next step fetches and runs an instruction given as the opcode table numbers its bits. -/
def State.withFetchWord (s : State) (nbits w : Nat) : State := s.placeWord nbits w

end Sys2Proof.Machine
end

