-- ==== Sys2Proof/Laws/Sparse.lean ====
section
/-! SUPPORT. The laws of sparse maps: a key reads what was put there, every other key reads as before, and every change
keeps the canonical form. -/

namespace Sys2Proof.Laws

open Sys2Proof.Machine

variable {α : Type}

/-! ## Reading after writing -/

theorem find_insert_same (m : List (Nat × α)) (k : Nat) (v : α) : Sparse.find (Sparse.insert m k v) k = some v := by
  induction m with
  | nil => simp [Sparse.insert, Sparse.find]
  | cons e m ih =>
    obtain ⟨j, w⟩ := e
    simp only [Sparse.insert]
    split
    · simp [Sparse.find]
    · split
      · simp [Sparse.find]
      · rw [Sparse.find, if_neg ‹_›]; exact ih

theorem find_insert_ne (m : List (Nat × α)) {k i : Nat} (v : α) (h : i ≠ k) :
    Sparse.find (Sparse.insert m k v) i = Sparse.find m i := by
  induction m with
  | nil => simp [Sparse.insert, Sparse.find, h]
  | cons e m ih =>
    obtain ⟨j, w⟩ := e
    simp only [Sparse.insert]
    split
    · subst_vars; simp [Sparse.find, h]
    · split
      · simp [Sparse.find, h]
      · simp only [Sparse.find, ih]

theorem find_erase_same (m : List (Nat × α)) (k : Nat) : Sparse.find (Sparse.erase m k) k = none := by
  induction m with
  | nil => rfl
  | cons e m ih =>
    obtain ⟨j, w⟩ := e
    simp only [Sparse.erase]
    split
    · exact ih
    · rw [Sparse.find, if_neg ‹_›]; exact ih

theorem find_erase_ne (m : List (Nat × α)) {k i : Nat} (h : i ≠ k) :
    Sparse.find (Sparse.erase m k) i = Sparse.find m i := by
  induction m with
  | nil => rfl
  | cons e m ih =>
    obtain ⟨j, w⟩ := e
    simp only [Sparse.erase]
    split
    · rename_i e
      subst e
      rw [ih, Sparse.find, if_neg h]
    · simp only [Sparse.find, ih]

/-- A key reads what was put there. -/
@[simp] theorem get_put_same [DecidableEq α] (d : α) (m : List (Nat × α)) (k : Nat) (v : α) :
    Sparse.get d (Sparse.put d m k v) k = v := by
  unfold Sparse.get Sparse.put
  split
  · rw [find_erase_same]; exact (‹v = d›).symm
  · rw [find_insert_same]; rfl

/-- Every other key reads as before. -/
theorem get_put_ne [DecidableEq α] (d d' : α) (m : List (Nat × α)) {k i : Nat} (v : α) (h : i ≠ k) :
    Sparse.get d' (Sparse.put d m k v) i = Sparse.get d' m i := by
  unfold Sparse.get Sparse.put
  split
  · rw [find_erase_ne m h]
  · rw [find_insert_ne m v h]

/-- Reading any key after a write. -/
theorem get_put [DecidableEq α] (d : α) (m : List (Nat × α)) (k i : Nat) (v : α) :
    Sparse.get d (Sparse.put d m k v) i = if i = k then v else Sparse.get d m i := by
  split
  · subst_vars; simp
  · exact get_put_ne d d m v ‹_›

/-! ## The canonical form -/

variable [DecidableEq α] {d : Nat → α}

/-- The canonical form above a key is one above every lower key. -/
theorem wfFrom_mono {k j : Nat} {m : List (Nat × α)} (h : Sparse.wfFrom d j m = true) (hk : k ≤ j) :
    Sparse.wfFrom d k m = true := by
  cases m with
  | nil => rfl
  | cons e m =>
    simp only [Sparse.wfFrom, Bool.and_eq_true, decide_eq_true_eq] at h ⊢
    exact ⟨⟨Nat.le_trans hk h.1.1, h.1.2⟩, h.2⟩

theorem wfFrom_insert {m : List (Nat × α)} {b k : Nat} {v : α} (hm : Sparse.wfFrom d b m = true) (hb : b ≤ k)
    (hv : v ≠ d k) : Sparse.wfFrom d b (Sparse.insert m k v) = true := by
  induction m generalizing b with
  | nil => simp [Sparse.insert, Sparse.wfFrom, hb, hv]
  | cons e m ih =>
    obtain ⟨j, w⟩ := e
    simp only [Sparse.wfFrom, Bool.and_eq_true, decide_eq_true_eq] at hm
    simp only [Sparse.insert]
    split
    · subst_vars
      simp [Sparse.wfFrom, hb, hv, hm.2]
    · split
      · simp only [Sparse.wfFrom, Bool.and_eq_true, decide_eq_true_eq]
        exact ⟨⟨hb, by simpa using hv⟩, ⟨by omega, hm.1.2⟩, hm.2⟩
      · simp only [Sparse.wfFrom, Bool.and_eq_true, decide_eq_true_eq]
        exact ⟨hm.1, ih hm.2 (by omega)⟩

/-- Any part of a map that is in canonical form is. -/
theorem wfFrom_filter (p : Nat × α → Bool) {m : List (Nat × α)} {b : Nat} (hm : Sparse.wfFrom d b m = true) :
    Sparse.wfFrom d b (m.filter p) = true := by
  induction m generalizing b with
  | nil => rfl
  | cons e m ih =>
    obtain ⟨j, w⟩ := e
    simp only [Sparse.wfFrom, Bool.and_eq_true, decide_eq_true_eq] at hm
    by_cases h : p (j, w)
    · rw [List.filter_cons_of_pos h]
      simp only [Sparse.wfFrom, Bool.and_eq_true, decide_eq_true_eq]
      exact ⟨hm.1, ih hm.2⟩
    · rw [List.filter_cons_of_neg h]
      exact ih (wfFrom_mono hm.2 (by omega))

omit [DecidableEq α] in
theorem erase_eq_filter (m : List (Nat × α)) (k : Nat) : Sparse.erase m k = m.filter fun e => decide (k ≠ e.1) := by
  induction m with
  | nil => rfl
  | cons e m ih =>
    obtain ⟨j, w⟩ := e
    simp only [Sparse.erase]
    split
    · subst_vars
      rw [List.filter_cons_of_neg (by simp)]
      exact ih
    · rw [List.filter_cons_of_pos (by simpa using ‹¬k = j›), ih]

/-- A write keeps the canonical form. -/
theorem wf_put {m : List (Nat × α)} {k : Nat} {v : α} (hm : Sparse.wf d m = true) :
    Sparse.wf d (Sparse.put (d k) m k v) = true := by
  unfold Sparse.put
  split
  · rw [erase_eq_filter]; exact wfFrom_filter _ hm
  · exact wfFrom_insert hm (Nat.zero_le k) ‹_›

/-- Leaving out a range keeps the canonical form. -/
theorem wf_outside {m : List (Nat × α)} {lo hi : Nat} (hm : Sparse.wf d m = true) :
    Sparse.wf d (Sparse.outside m lo hi) = true := wfFrom_filter _ hm

/-- Two maps in canonical form, one below the other, join in canonical form. -/
theorem wfFrom_append {m n : List (Nat × α)} {b c : Nat} (hm : Sparse.wfFrom d b m = true)
    (hn : Sparse.wfFrom d c n = true) (hb : b ≤ c) (hlt : ∀ e ∈ m, e.1 < c) :
    Sparse.wfFrom d b (m ++ n) = true := by
  induction m generalizing b with
  | nil => exact wfFrom_mono hn hb
  | cons e m ih =>
    obtain ⟨j, w⟩ := e
    simp only [Sparse.wfFrom, Bool.and_eq_true, decide_eq_true_eq, List.cons_append] at hm ⊢
    have hj := hlt (j, w) (List.mem_cons_self ..)
    exact ⟨hm.1, ih hm.2 hj fun e he => hlt e (List.mem_cons_of_mem _ he)⟩

/-- The entries at or above a key, as a map above it. -/
theorem wfFrom_above {m : List (Nat × α)} {b c : Nat} (hm : Sparse.wfFrom d b m = true) (hc : ∀ e ∈ m, c ≤ e.1) :
    Sparse.wfFrom d c m = true := by
  cases m with
  | nil => rfl
  | cons e m =>
    obtain ⟨j, w⟩ := e
    simp only [Sparse.wfFrom, Bool.and_eq_true, decide_eq_true_eq] at hm ⊢
    exact ⟨⟨hc (j, w) (List.mem_cons_self ..), hm.1.2⟩, hm.2⟩

/-- Keys moved from one base to another keep the canonical form of a map with one default. -/
theorem wfFrom_move {z : α} {m : List (Nat × α)} {b src dst : Nat} (hm : Sparse.wfFrom (fun _ => z) b m = true)
    (hb : src ≤ b) : Sparse.wfFrom (fun _ => z) (b - src + dst) (m.map fun e => (e.1 - src + dst, e.2)) = true := by
  induction m generalizing b with
  | nil => rfl
  | cons e m ih =>
    obtain ⟨j, w⟩ := e
    simp only [Sparse.wfFrom, Bool.and_eq_true, decide_eq_true_eq, List.map_cons] at hm ⊢
    refine ⟨⟨by omega, hm.1.2⟩, ?_⟩
    have h := ih hm.2 (by omega)
    rwa [show j + 1 - src + dst = j - src + dst + 1 by omega] at h

/-- The copy of a frame keeps the canonical form. -/
theorem wf_copyFrame {m : Sparse Byte} {src dst n : Nat} (hm : Sparse.wf (fun _ => 0) m = true) :
    Sparse.wf (fun _ => 0) (copyFrame m src dst n) = true := by
  unfold copyFrame Sparse.wf
  have hmid : Sparse.wfFrom (fun _ => 0) src
      (m.filter fun e => decide (src ≤ e.1) && decide (e.1 < src + n)) = true :=
    wfFrom_above (wfFrom_filter _ hm) fun e he => by simp at he; omega
  have hmoved := wfFrom_move (dst := dst) hmid (Nat.le_refl src)
  rw [Nat.sub_self, Nat.zero_add] at hmoved
  have hhigh : Sparse.wfFrom (fun _ => 0) (dst + n) (m.filter fun e => decide (dst + n ≤ e.1)) = true :=
    wfFrom_above (wfFrom_filter _ hm) fun e he => by simp at he; omega
  rw [List.append_assoc]
  refine wfFrom_append (wfFrom_filter _ hm) (wfFrom_append hmoved hhigh (Nat.le_add_right ..) ?_) (Nat.zero_le _)
    fun e he => by simp at he; omega
  intro e he
  obtain ⟨f, hf, rfl⟩ := List.mem_map.mp he
  simp at hf ⊢
  omega

end Sys2Proof.Laws
end

