-- ==== Sys2Proof/Safety.lean ====
section
/-! DEFINITION. What counts as a sound state and a sound run, in the terms that the claims use. -/

namespace Sys2Proof.Machine

/-- The canonical form of physical memory: addresses strictly rising, and no byte listed that an unlisted address reads
as (0, log entry 4). -/
def Memory.wf (m : Sparse Byte) : Bool := Sparse.wf (fun _ => 0) m

/-- Physical memory, the scratchpads and their full bits are in canonical form. -/
def State.canonical (s : State) : Bool :=
  Memory.wf s.mem && Memory.wf s.spad && Sparse.wf (fun _ => false) s.spadEmpty

/-- Nothing of the module but one agent's registers differs between two states. -/
def onlyHart (g : Agent) (s t : State) : Prop :=
  { t with harts := s.harts } = s ∧ ∀ g', g' ≠ g → t.hart g' = s.hart g'

/-- An instruction has completed (R26): the executing agent has counted it, and it is not parked. -/
def completed (s t : State) : Prop := t.me.instret = s.me.instret + 1 ∧ t.me.park = none

/-! ## When an access goes through -/

/-- The executing agent's access to `n` bytes at an address is one to its own scratchpad that nothing stops: naturally
aligned, below no watermark (R24), without a lasting error (R408), and, inside an open channel, with no earlier release
of the agent outstanding (R311, R324). -/
def State.ownSpad (s : State) (ea : Word) (n : Nat) (cl : Fin 96) (off : Nat) : Prop :=
  placeOf s.cur ea.toNat n = .ok (.spad cl off) ∧ ea.toNat % n = 0 ∧ clusterOfAgent s.cur = some cl ∧
    s.belowMark (secOf s.cur) cl off n = false ∧ s.spadBad (secOf s.cur) cl off n = false ∧
    (s.inOpen (secOf s.cur) cl off n && s.releaseOpen s.cur) = false

/-- The line of an address of application space for the executing agent. -/
def State.myLine (s : State) (ea : Word) : Nat := lineKey (secOf s.cur) (s.asidOf s.cur) ea.toNat

/-- The executing agent's access to `n` bytes at an address is one to application space that the LLC serves from a line
it holds, or a master core from its own copy of the line, and that nothing stops: naturally aligned, inside a lease
(R347), permitted by the bits held with the line and with the copy (R343), not poisoned (R408), outside a transaction
and without another agent's transaction at the line (R174), not sealed (R302), and not checked for races (R320). -/
def State.heldLine (s : State) (ea : Word) (n : Nat) (kind : AccKind) (plain : Bool) (l : Line) : Prop :=
  ea.toNat + n ≤ 2 ^ 56 ∧ 0 < n ∧ n ≤ 8 ∧ 128 % n = 0 ∧ ea.toNat % n = 0 ∧ s.me.tx = none ∧
    s.leaseCheck s.cur ea.toNat n = .ok () ∧ s.line (s.myLine ea) = some l ∧
    (s.acc s.cur kind plain).permits l.perm = true ∧ (s.acc s.cur kind plain).race = none ∧ l.poison = false ∧
    (s.marksOf (s.myLine ea)).writer = none ∧ (s.marksOf (s.myLine ea)).readers = [] ∧
    s.sealAt (secOf s.cur) (s.asidOf s.cur) ea.toNat = none ∧
    s.copyCheck s.cur (s.myLine ea) (s.acc s.cur kind plain) ea.toNat = .ok ()

/-- The executing agent's access to `n` bytes at an address of application space finds its line neither in the LLC nor
in a master core's own caches, fills it (`u` is the state with the line, `l` the line), and nothing stops it. -/
def State.missedLine (s : State) (ea : Word) (n : Nat) (kind : AccKind) (plain : Bool) (l : Line) (u : State) : Prop :=
  ea.toNat + n ≤ 2 ^ 56 ∧ 0 < n ∧ 128 % n = 0 ∧ ea.toNat % n = 0 ∧ s.me.tx = none ∧
    s.leaseCheck s.cur ea.toNat n = .ok () ∧ s.controlAt s.cur ea.toNat = none ∧ s.ownCopy s.cur (s.myLine ea) = none ∧
    s.locate (secOf s.cur) (s.asidOf s.cur) ea.toNat (s.acc s.cur kind plain) false = .ok (.line (s.myLine ea), u) ∧
    s.line (s.myLine ea) = none ∧ u.line (s.myLine ea) = some l ∧ (s.acc s.cur kind plain).race = none ∧
    l.poison = false ∧ (s.marksOf (s.myLine ea)).writer = none ∧ (s.marksOf (s.myLine ea)).readers = []

/-- The bytes of a held line as the executing agent reads them: those of its own copy, or the line's (R334). -/
def State.seenLine (s : State) (k : Nat) (l : Line) : List Byte :=
  match s.ownCopy s.cur k with
  | some c => c.data
  | none => l.data

/-- What the executing agent's read of a held line leaves: a read of its own copy does not reach the line; a read of the
line makes the line the most recently used, and leaves a copy with a master core (R330, R334). -/
def State.afterRead (s : State) (k : Nat) : State :=
  (if (s.ownCopy s.cur k).isSome then s else s.touch k).cached s.cur k false

/-- What the executing agent's write into a held line leaves: the line written, and the agent's own copy brought up to
date (R334). -/
def State.afterWrite (s : State) (ea : Word) (bs : List Byte) : State :=
  ((s.touch (s.myLine ea)).putBytes (secOf s.cur) (s.asidOf s.cur) ea.toNat (.line (s.myLine ea)) bs).keepCopy
    (s.myLine ea) (s.ownCopy s.cur (s.myLine ea))

/-- The executing agent can run D-extension instructions where it is (R66, R68): a master core, or a context of a D core
that is not fused off. -/
def State.onDCore (s : State) : Prop :=
  match s.cur with
  | .master _ _ => True
  | .thread x i => (s.cluster x (clusterOf i.val)).dFused = false ∧ 6 ≤ (coreOf i.val).val

/-- Fewer than 64 job records stand for the executing agent: a new job needs no other's place (R267). -/
def State.jobSpace (s : State) : Prop := (s.jobsOf (secOf s.cur) (s.jobOwner s.cur)).length < 64

/-- Job `id` of the executing agent stands in `t`, accepted and running, and register d holds its identifier (R266). -/
def State.startedJob (s t : State) (d : Fin 16) (id : Nat) : Prop :=
  t.me.s.get d = ⟨word id, true, false⟩ ∧
    ∃ j, t.job (secOf s.cur) (s.jobOwner s.cur) id = some j ∧ j.running = true ∧ j.queued = true ∧ j.vt = s.vtOf s.cur

/-- From `s` to `t` the executing context has completed an instruction that puts a command at the end of its core's
matrix queue, binds the accumulators, and answers the command's job in register d (R215, R266). -/
def State.queuedMx (s t : State) (x : Sec) (i : Fin 6144) (d : Fin 16) (c : MxCmd) : Prop :=
  completed s t ∧ s.startedJob t d c.actor.job ∧
    (t.cluster x (clusterOf i.val)).mx.get (coreOf i.val) =
      (s.cluster x (clusterOf i.val)).mx.get (coreOf i.val) ++ [c] ∧
    .engineStep x (clusterOf i.val) ∈ t.agenda

/-- From `s` to `t` the executing context has completed an instruction that puts a command at the end of its core's copy
queue, and answers the command's job in register d (R266, R273). -/
def State.queuedCopy (s t : State) (x : Sec) (i : Fin 6144) (d : Fin 16) (c : CpCmd) : Prop :=
  completed s t ∧ s.startedJob t d c.actor.job ∧
    (t.cluster x (clusterOf i.val)).cp.get (coreOf i.val) =
      (s.cluster x (clusterOf i.val)).cp.get (coreOf i.val) ++ [c] ∧
    .copyCommandStart x (clusterOf i.val) ∈ t.agenda

/-- From `s` to `t` the executing agent has completed an instruction that gives Stratus a job, and answers the job in
register d (R266, R267). -/
def State.startedAsync (s t : State) (d : Fin 16) (a : Async) (due : Due) : Prop :=
  completed s t ∧ s.startedJob t d a.actor.job ∧ (t.sec (secOf s.cur)).asyncs = (s.sec (secOf s.cur)).asyncs ++ [a] ∧
    due ∈ t.agenda

/-! ## Immediates, rounding -/

/-- An instruction that a pending chain may precede: the immediate-bearing ones, and another prefix (R61). -/
def takesChain : Instr → Bool
  | .himm _ | .addi _ _ _ _ | .andi _ _ _ _ | .ori _ _ _ _ | .xori _ _ _ _ | .ldi _ _ _ | .cmpi _ _ _ _ _
  | .ld _ _ _ _ _ _ _ | .st _ _ _ _ _ _ | .bp _ _ _ | .bnp _ _ _ | .bz _ _ _ | .bnz _ _ _ | .dbnz _ _ _
  | .j _ _ | .jal _ _ => true
  | _ => false

/-- A finite number as a multiple of 2^h, for an exponent that is no larger than its own. -/
def Num.units (n : Num) (h : Int) : Option Int :=
  match n with
  | .fin neg m e => if h ≤ e then some ((if neg then -1 else 1) * m * 2 ^ (e - h).toNat) else none
  | _ => none

/-- An encoding and flags are the one rounding of the exact value ±n × 2^e / d, where they report no overflow (R93, R94,
R98): the nearest value of the format, with an even encoding on a tie; the largest below in magnitude; the smallest
above; the largest below; or a neighbour of the value. NX says that the encoding's value differs from the exact one. -/
def FFmt.Rounds (f : FFmt) (mode : Rm) (neg : Bool) (n : Nat) (e : Int) (d : Nat) (r : Nat × Nat) : Prop :=
  let h := min e f.qmin
  let x : Int := (if neg then -1 else 1) * n * 2 ^ (e - h).toNat
  r.2 / 4 % 2 = 1 ∨ ∃ y, (f.decode r.1).units h = some y ∧ (r.2 % 2 = 0 ↔ y * d = x) ∧
    ∀ c z, (f.decode c).units h = some z →
      match mode with
      | .rne => (y * d - x).natAbs ≤ (z * d - x).natAbs ∧
          ((y * d - x).natAbs = (z * d - x).natAbs → z ≠ y → r.1 % 2 = 0)
      | .rtz => (y * d).natAbs ≤ x.natAbs ∧ ((z * d).natAbs ≤ x.natAbs → z.natAbs ≤ y.natAbs)
      | .rup => x ≤ y * d ∧ (x ≤ z * d → y ≤ z)
      | .rdn => y * d ≤ x ∧ (z * d ≤ x → z ≤ y)
      | .sr => (z * d = x → z = y) ∧ ¬(x < z * d ∧ z * d < y * d) ∧ ¬(y * d < z * d ∧ z * d < x)

/-! ## Homes, waiting messages, ended jobs -/

/-- Bytes of one line at their home, which the LLC holds, and whose access nothing stops: permitted by the line (R343),
no race check (R320), not poisoned (R408), no transaction at the line (R174), not sealed (R302). -/
def State.homeLine (s : State) (y : Sec) (asid : BitVec 16) (va n : Nat) (a : Acc) (l : Line) : Prop :=
  0 < n ∧ va % 128 + n ≤ 128 ∧ s.line (lineKey y asid va) = some l ∧ a.permits l.perm = true ∧ a.race = none ∧
    l.poison = false ∧ (s.marksOf (lineKey y asid va)).writer = none ∧ (s.marksOf (lineKey y asid va)).readers = [] ∧
    s.sealAt y asid va = none

/-- The line of an address holds, after a write there, the given bytes in place of the old ones. -/
def State.lineHas (t : State) (y : Sec) (asid : BitVec 16) (va : Nat) (l : Line) (bs : List Byte) : Prop :=
  ∃ l', t.line (lineKey y asid va) = some l' ∧ l'.data = splice l.data (va % 128) bs ∧ l'.dirty = true ∧ l'.perm = l.perm

/-- The deposit with a number that waits in an inbox or reserve buffer (R14, R377). -/
def State.waitingFlight (s : State) (id : Nat) : Option Flight :=
  firstSome (fun (e : Nat × Cluster) => (e.2.recvInbox ++ e.2.reserveBuf).find? fun f => f.id == id) s.clusters

/-- An actor's job has ended with a status and the bits above it, and its record is held (R267, R268). -/
def State.endedJob (t : State) (x : Sec) (a : Actor) (j : Job) (status info : Nat) : Prop :=
  t.job x a.home a.job =
    some { j with running := false, queued := false, status := status, info := info, flt := none }

/-- An IRQ subcause that was not pending at a master core of a chiplet in service is pending there now (R392, R394). -/
def State.pends (t : State) (x : Sec) (n : Fin 16) (sub : Nat) (addr : Word) : Prop :=
  Sparse.get none (t.master x n).irqs sub = some addr ∧ .interruptTaken x n ∈ t.agenda

/-- A master core can be sent an IRQ that it has not pending. -/
def State.quiet (s : State) (x : Sec) (n : Fin 16) (sub : Nat) : Prop :=
  s.isFenced x (chipletOfAgent (.master x n)) = false ∧ Sparse.get none (s.master x n).irqs sub = none

/-! ## What a computing instruction may write -/

/-- The registers that an instruction may write, and whether it may raise floating-point flags and advance the state of
stochastic rounding. -/
structure Writes where
  s : List (Fin 16)
  p : List (Fin 8)
  v : List (Fin 16)
  m : List (Fin 8)
  flags : Bool
  seed : Bool
  deriving DecidableEq, Repr

/-- Its only destination is an s register, a predicate, a v register or a mask. -/
def toS (d : Fin 16) (flags seed : Bool) : Option Writes := some ⟨[d], [], [], [], flags, seed⟩
def toP (d : Fin 8) (flags : Bool) : Option Writes := some ⟨[], [d], [], [], flags, false⟩
def toV (d : Fin 16) (flags seed : Bool) : Option Writes := some ⟨[], [], [d], [], flags, seed⟩
def toM (d : Fin 8) (flags : Bool) : Option Writes := some ⟨[], [], [], [d], flags, false⟩

/-- The destinations of the instructions that compute on registers alone; none for any other instruction. -/
def writesOf : Instr → Option Writes
  | .add _ d _ _ => toS d false false
  | .sub _ d _ _ => toS d false false
  | .addw _ d _ _ => toS d false false
  | .subw _ d _ _ => toS d false false
  | .and _ d _ _ => toS d false false
  | .or _ d _ _ => toS d false false
  | .xor _ d _ _ => toS d false false
  | .andn _ d _ _ => toS d false false
  | .shl _ d _ _ => toS d false false
  | .shr _ d _ _ => toS d false false
  | .sar _ d _ _ => toS d false false
  | .min _ d _ _ => toS d false false
  | .max _ d _ _ => toS d false false
  | .minu _ d _ _ => toS d false false
  | .maxu _ d _ _ => toS d false false
  | .sh1add _ d _ _ => toS d false false
  | .sh2add _ d _ _ => toS d false false
  | .sh3add _ d _ _ => toS d false false
  | .mul _ d _ _ => toS d false false
  | .mulh _ d _ _ => toS d false false
  | .mulhu _ d _ _ => toS d false false
  | .mulw _ d _ _ => toS d false false
  | .div _ d _ _ => toS d false false
  | .divu _ d _ _ => toS d false false
  | .rem _ d _ _ => toS d false false
  | .remu _ d _ _ => toS d false false
  | .bfx _ d _ _ => toS d false false
  | .bfxu _ d _ _ => toS d false false
  | .bfi _ d _ _ => toS d false false
  | .abs _ d _ => toS d false false
  | .neg _ d _ => toS d false false
  | .mov _ d _ => toS d false false
  | .clz _ d _ => toS d false false
  | .ctz _ d _ => toS d false false
  | .popc _ d _ => toS d false false
  | .bswap _ d _ => toS d false false
  | .addi _ d _ _ => toS d false false
  | .andi _ d _ _ => toS d false false
  | .ori _ d _ _ => toS d false false
  | .xori _ d _ _ => toS d false false
  | .shli _ d _ _ => toS d false false
  | .shri _ d _ _ => toS d false false
  | .sari _ d _ _ => toS d false false
  | .ldi _ d _ => toS d false false
  | .cmpi _ d _ _ _ => toP d false
  | .cmp _ d _ _ _ => toP d false
  | .test _ d _ _ _ => toP d false
  | .sel _ d _ _ _ => toS d false false
  | .pand _ d _ _ => toP d false
  | .por _ d _ _ => toP d false
  | .pxor _ d _ _ => toP d false
  | .pnot _ d _ => toP d false
  | .pget _ d => toS d false false
  | .pset _ _ => some ⟨[], [1, 2, 3, 4, 5, 6, 7], [], [], false, false⟩
  | .fadd _ d _ _ => toS d true false
  | .fsub _ d _ _ => toS d true false
  | .fmul _ d _ _ => toS d true false
  | .fdiv _ d _ _ => toS d true false
  | .ffma _ d _ _ => toS d true false
  | .fmin _ d _ _ => toS d true false
  | .fmax _ d _ _ => toS d true false
  | .dadd _ d _ _ => toS d true false
  | .dsub _ d _ _ => toS d true false
  | .dmul _ d _ _ => toS d true false
  | .ddiv _ d _ _ => toS d true false
  | .dfma _ d _ _ => toS d true false
  | .fabs _ d _ => toS d false false
  | .fneg _ d _ => toS d false false
  | .fsqrt _ d _ => toS d true false
  | .dsqrt _ d _ => toS d true false
  | .fcvt _ d _ _ => toS d true true
  | .dcvt _ d _ _ => toS d true true
  | .fcmp _ d _ _ _ => toP d true
  | .dcmp _ d _ _ _ => toP d true
  | .vadd _ d _ _ _ _ => toV d true false
  | .vsub _ d _ _ _ _ => toV d true false
  | .vmul _ d _ _ _ _ => toV d true false
  | .vmin _ d _ _ _ _ => toV d true false
  | .vmax _ d _ _ _ _ => toV d true false
  | .vmulh _ d _ _ _ _ => toV d false false
  | .vaddsat _ d _ _ _ _ => toV d false false
  | .vsubsat _ d _ _ _ _ => toV d false false
  | .vand _ d _ _ _ _ => toV d false false
  | .vor _ d _ _ _ _ => toV d false false
  | .vxor _ d _ _ _ _ => toV d false false
  | .vandn _ d _ _ _ _ => toV d false false
  | .vshl _ d _ _ _ _ => toV d false false
  | .vshr _ d _ _ _ _ => toV d false false
  | .vsar _ d _ _ _ _ => toV d false false
  | .vabs _ d _ _ => toV d false false
  | .vneg _ d _ _ => toV d false false
  | .vclz _ d _ _ => toV d false false
  | .vpopc _ d _ _ => toV d false false
  | .vsqrt _ d _ _ => toV d true false
  | .vrcp _ d _ _ => toV d true false
  | .vrsq _ d _ _ => toV d true false
  | .vexp2 _ d _ _ => toV d true false
  | .vfma _ d _ _ _ => toV d true false
  | .vfms _ d _ _ _ => toV d true false
  | .vfnma _ d _ _ _ => toV d true false
  | .vfnms _ d _ _ _ => toV d true false
  | .vdfma _ d _ _ _ => toV d true false
  | .vdot2 _ d _ _ _ => toV d true false
  | .vdot4 _ d _ _ _ => toV d true false
  | .vcmp _ d _ _ _ _ _ => toM d true
  | .vclass _ d _ _ _ => toM d false
  | .vsel _ d _ _ _ => toV d false false
  | .mand _ d _ _ => toM d false
  | .mor _ d _ _ => toM d false
  | .mnot _ d _ => toM d false
  | .mcount _ d _ => toS d false false
  | .mfirst _ d _ => toS d false false
  | .vbcast _ d _ _ _ => toV d false false
  | .vperm _ d _ _ _ => toV d false false
  | .vins _ d _ _ => toV d false false
  | .vext _ d _ _ => toS d false false
  | .vcompress _ d _ _ => toV d false false
  | .vexpand _ d _ _ => toV d false false
  | .vredadd _ d _ _ => toS d true false
  | .vredmax _ d _ _ => toS d true false
  | .vredmin _ d _ _ => toS d true false
  | .vscan _ d _ _ _ => toV d true false
  | .vcvt _ d _ _ _ _ => toV d true true
  | .vdequant _ d _ _ _ _ => toV d true true
  | .vquant _ d _ _ _ => toV d true true
  | .vtag _ d _ _ => toV d false false
  | .vseed _ d _ => toV d false true
  | _ => none

end Sys2Proof.Machine
end

