-- ==== Sys2Proof/Laws/State.lean ====
section
/-! SUPPORT. One lemma per field per update of the state, and what the accessors read after an update: no later proof
unfolds a record update. -/

namespace Sys2Proof.Machine

/-! ## Fields that an update leaves -/

variable (s : State)

@[simp] theorem cur_setHart (g : Agent) (h : Hart) : (s.setHart g h).cur = s.cur := rfl
@[simp] theorem curWord_setHart (g : Agent) (h : Hart) : (s.setHart g h).curWord = s.curWord := rfl
@[simp] theorem turns_setHart (g : Agent) (h : Hart) : (s.setHart g h).turns = s.turns := rfl
@[simp] theorem agenda_setHart (g : Agent) (h : Hart) : (s.setHart g h).agenda = s.agenda := rfl
@[simp] theorem tape_setHart (g : Agent) (h : Hart) : (s.setHart g h).tape = s.tape := rfl
@[simp] theorem freeCtr_setHart (g : Agent) (h : Hart) : (s.setHart g h).freeCtr = s.freeCtr := rfl
@[simp] theorem nextId_setHart (g : Agent) (h : Hart) : (s.setHart g h).nextId = s.nextId := rfl
@[simp] theorem wseq_setHart (g : Agent) (h : Hart) : (s.setHart g h).wseq = s.wseq := rfl
@[simp] theorem masters_setHart (g : Agent) (h : Hart) : (s.setHart g h).masters = s.masters := rfl
@[simp] theorem ctxs_setHart (g : Agent) (h : Hart) : (s.setHart g h).ctxs = s.ctxs := rfl
@[simp] theorem clusters_setHart (g : Agent) (h : Hart) : (s.setHart g h).clusters = s.clusters := rfl
@[simp] theorem sectors_setHart (g : Agent) (h : Hart) : (s.setHart g h).sectors = s.sectors := rfl
@[simp] theorem spad_setHart (g : Agent) (h : Hart) : (s.setHart g h).spad = s.spad := rfl
@[simp] theorem spadEmpty_setHart (g : Agent) (h : Hart) : (s.setHart g h).spadEmpty = s.spadEmpty := rfl
@[simp] theorem spadMarks_setHart (g : Agent) (h : Hart) : (s.setHart g h).spadMarks = s.spadMarks := rfl
@[simp] theorem accs_setHart (g : Agent) (h : Hart) : (s.setHart g h).accs = s.accs := rfl
@[simp] theorem mem_setHart (g : Agent) (h : Hart) : (s.setHart g h).mem = s.mem := rfl
@[simp] theorem llc_setHart (g : Agent) (h : Hart) : (s.setHart g h).llc = s.llc := rfl
@[simp] theorem copies_setHart (g : Agent) (h : Hart) : (s.setHart g h).copies = s.copies := rfl
@[simp] theorem marks_setHart (g : Agent) (h : Hart) : (s.setHart g h).marks = s.marks := rfl
@[simp] theorem flight_setHart (g : Agent) (h : Hart) : (s.setHart g h).flight = s.flight := rfl
@[simp] theorem tokens_setHart (g : Agent) (h : Hart) : (s.setHart g h).tokens = s.tokens := rfl
@[simp] theorem bankq_setHart (g : Agent) (h : Hart) : (s.setHart g h).bankq = s.bankq := rfl
@[simp] theorem zreqs_setHart (g : Agent) (h : Hart) : (s.setHart g h).zreqs = s.zreqs := rfl
@[simp] theorem gen_setHart (g : Agent) (h : Hart) : (s.setHart g h).gen = s.gen := rfl
@[simp] theorem bridges_setHart (g : Agent) (h : Hart) : (s.setHart g h).bridges = s.bridges := rfl
@[simp] theorem hz_setHart (g : Agent) (h : Hart) : (s.setHart g h).hz = s.hz := rfl

@[simp] theorem cur_setMaster (x : Sec) (n : Fin 16) (m : Master) : (s.setMaster x n m).cur = s.cur := rfl
@[simp] theorem curWord_setMaster (x : Sec) (n : Fin 16) (m : Master) : (s.setMaster x n m).curWord = s.curWord := rfl
@[simp] theorem turns_setMaster (x : Sec) (n : Fin 16) (m : Master) : (s.setMaster x n m).turns = s.turns := rfl
@[simp] theorem agenda_setMaster (x : Sec) (n : Fin 16) (m : Master) : (s.setMaster x n m).agenda = s.agenda := rfl
@[simp] theorem tape_setMaster (x : Sec) (n : Fin 16) (m : Master) : (s.setMaster x n m).tape = s.tape := rfl
@[simp] theorem freeCtr_setMaster (x : Sec) (n : Fin 16) (m : Master) : (s.setMaster x n m).freeCtr = s.freeCtr := rfl
@[simp] theorem nextId_setMaster (x : Sec) (n : Fin 16) (m : Master) : (s.setMaster x n m).nextId = s.nextId := rfl
@[simp] theorem wseq_setMaster (x : Sec) (n : Fin 16) (m : Master) : (s.setMaster x n m).wseq = s.wseq := rfl
@[simp] theorem harts_setMaster (x : Sec) (n : Fin 16) (m : Master) : (s.setMaster x n m).harts = s.harts := rfl
@[simp] theorem ctxs_setMaster (x : Sec) (n : Fin 16) (m : Master) : (s.setMaster x n m).ctxs = s.ctxs := rfl
@[simp] theorem clusters_setMaster (x : Sec) (n : Fin 16) (m : Master) : (s.setMaster x n m).clusters = s.clusters := rfl
@[simp] theorem sectors_setMaster (x : Sec) (n : Fin 16) (m : Master) : (s.setMaster x n m).sectors = s.sectors := rfl
@[simp] theorem spad_setMaster (x : Sec) (n : Fin 16) (m : Master) : (s.setMaster x n m).spad = s.spad := rfl
@[simp] theorem spadEmpty_setMaster (x : Sec) (n : Fin 16) (m : Master) : (s.setMaster x n m).spadEmpty = s.spadEmpty := rfl
@[simp] theorem spadMarks_setMaster (x : Sec) (n : Fin 16) (m : Master) : (s.setMaster x n m).spadMarks = s.spadMarks := rfl
@[simp] theorem accs_setMaster (x : Sec) (n : Fin 16) (m : Master) : (s.setMaster x n m).accs = s.accs := rfl
@[simp] theorem mem_setMaster (x : Sec) (n : Fin 16) (m : Master) : (s.setMaster x n m).mem = s.mem := rfl
@[simp] theorem llc_setMaster (x : Sec) (n : Fin 16) (m : Master) : (s.setMaster x n m).llc = s.llc := rfl
@[simp] theorem copies_setMaster (x : Sec) (n : Fin 16) (m : Master) : (s.setMaster x n m).copies = s.copies := rfl
@[simp] theorem marks_setMaster (x : Sec) (n : Fin 16) (m : Master) : (s.setMaster x n m).marks = s.marks := rfl
@[simp] theorem flight_setMaster (x : Sec) (n : Fin 16) (m : Master) : (s.setMaster x n m).flight = s.flight := rfl
@[simp] theorem tokens_setMaster (x : Sec) (n : Fin 16) (m : Master) : (s.setMaster x n m).tokens = s.tokens := rfl
@[simp] theorem bankq_setMaster (x : Sec) (n : Fin 16) (m : Master) : (s.setMaster x n m).bankq = s.bankq := rfl
@[simp] theorem zreqs_setMaster (x : Sec) (n : Fin 16) (m : Master) : (s.setMaster x n m).zreqs = s.zreqs := rfl
@[simp] theorem gen_setMaster (x : Sec) (n : Fin 16) (m : Master) : (s.setMaster x n m).gen = s.gen := rfl
@[simp] theorem bridges_setMaster (x : Sec) (n : Fin 16) (m : Master) : (s.setMaster x n m).bridges = s.bridges := rfl
@[simp] theorem hz_setMaster (x : Sec) (n : Fin 16) (m : Master) : (s.setMaster x n m).hz = s.hz := rfl

@[simp] theorem cur_setCtx (x : Sec) (i : Nat) (c : Ctx) : (s.setCtx x i c).cur = s.cur := rfl
@[simp] theorem curWord_setCtx (x : Sec) (i : Nat) (c : Ctx) : (s.setCtx x i c).curWord = s.curWord := rfl
@[simp] theorem turns_setCtx (x : Sec) (i : Nat) (c : Ctx) : (s.setCtx x i c).turns = s.turns := rfl
@[simp] theorem agenda_setCtx (x : Sec) (i : Nat) (c : Ctx) : (s.setCtx x i c).agenda = s.agenda := rfl
@[simp] theorem tape_setCtx (x : Sec) (i : Nat) (c : Ctx) : (s.setCtx x i c).tape = s.tape := rfl
@[simp] theorem freeCtr_setCtx (x : Sec) (i : Nat) (c : Ctx) : (s.setCtx x i c).freeCtr = s.freeCtr := rfl
@[simp] theorem nextId_setCtx (x : Sec) (i : Nat) (c : Ctx) : (s.setCtx x i c).nextId = s.nextId := rfl
@[simp] theorem wseq_setCtx (x : Sec) (i : Nat) (c : Ctx) : (s.setCtx x i c).wseq = s.wseq := rfl
@[simp] theorem harts_setCtx (x : Sec) (i : Nat) (c : Ctx) : (s.setCtx x i c).harts = s.harts := rfl
@[simp] theorem masters_setCtx (x : Sec) (i : Nat) (c : Ctx) : (s.setCtx x i c).masters = s.masters := rfl
@[simp] theorem clusters_setCtx (x : Sec) (i : Nat) (c : Ctx) : (s.setCtx x i c).clusters = s.clusters := rfl
@[simp] theorem sectors_setCtx (x : Sec) (i : Nat) (c : Ctx) : (s.setCtx x i c).sectors = s.sectors := rfl
@[simp] theorem spad_setCtx (x : Sec) (i : Nat) (c : Ctx) : (s.setCtx x i c).spad = s.spad := rfl
@[simp] theorem spadEmpty_setCtx (x : Sec) (i : Nat) (c : Ctx) : (s.setCtx x i c).spadEmpty = s.spadEmpty := rfl
@[simp] theorem spadMarks_setCtx (x : Sec) (i : Nat) (c : Ctx) : (s.setCtx x i c).spadMarks = s.spadMarks := rfl
@[simp] theorem accs_setCtx (x : Sec) (i : Nat) (c : Ctx) : (s.setCtx x i c).accs = s.accs := rfl
@[simp] theorem mem_setCtx (x : Sec) (i : Nat) (c : Ctx) : (s.setCtx x i c).mem = s.mem := rfl
@[simp] theorem llc_setCtx (x : Sec) (i : Nat) (c : Ctx) : (s.setCtx x i c).llc = s.llc := rfl
@[simp] theorem copies_setCtx (x : Sec) (i : Nat) (c : Ctx) : (s.setCtx x i c).copies = s.copies := rfl
@[simp] theorem marks_setCtx (x : Sec) (i : Nat) (c : Ctx) : (s.setCtx x i c).marks = s.marks := rfl
@[simp] theorem flight_setCtx (x : Sec) (i : Nat) (c : Ctx) : (s.setCtx x i c).flight = s.flight := rfl
@[simp] theorem tokens_setCtx (x : Sec) (i : Nat) (c : Ctx) : (s.setCtx x i c).tokens = s.tokens := rfl
@[simp] theorem bankq_setCtx (x : Sec) (i : Nat) (c : Ctx) : (s.setCtx x i c).bankq = s.bankq := rfl
@[simp] theorem zreqs_setCtx (x : Sec) (i : Nat) (c : Ctx) : (s.setCtx x i c).zreqs = s.zreqs := rfl
@[simp] theorem gen_setCtx (x : Sec) (i : Nat) (c : Ctx) : (s.setCtx x i c).gen = s.gen := rfl
@[simp] theorem bridges_setCtx (x : Sec) (i : Nat) (c : Ctx) : (s.setCtx x i c).bridges = s.bridges := rfl
@[simp] theorem hz_setCtx (x : Sec) (i : Nat) (c : Ctx) : (s.setCtx x i c).hz = s.hz := rfl

@[simp] theorem cur_setCluster (x : Sec) (cl : Fin 96) (c : Cluster) : (s.setCluster x cl c).cur = s.cur := rfl
@[simp] theorem curWord_setCluster (x : Sec) (cl : Fin 96) (c : Cluster) : (s.setCluster x cl c).curWord = s.curWord := rfl
@[simp] theorem turns_setCluster (x : Sec) (cl : Fin 96) (c : Cluster) : (s.setCluster x cl c).turns = s.turns := rfl
@[simp] theorem agenda_setCluster (x : Sec) (cl : Fin 96) (c : Cluster) : (s.setCluster x cl c).agenda = s.agenda := rfl
@[simp] theorem tape_setCluster (x : Sec) (cl : Fin 96) (c : Cluster) : (s.setCluster x cl c).tape = s.tape := rfl
@[simp] theorem freeCtr_setCluster (x : Sec) (cl : Fin 96) (c : Cluster) : (s.setCluster x cl c).freeCtr = s.freeCtr := rfl
@[simp] theorem nextId_setCluster (x : Sec) (cl : Fin 96) (c : Cluster) : (s.setCluster x cl c).nextId = s.nextId := rfl
@[simp] theorem wseq_setCluster (x : Sec) (cl : Fin 96) (c : Cluster) : (s.setCluster x cl c).wseq = s.wseq := rfl
@[simp] theorem harts_setCluster (x : Sec) (cl : Fin 96) (c : Cluster) : (s.setCluster x cl c).harts = s.harts := rfl
@[simp] theorem masters_setCluster (x : Sec) (cl : Fin 96) (c : Cluster) : (s.setCluster x cl c).masters = s.masters := rfl
@[simp] theorem ctxs_setCluster (x : Sec) (cl : Fin 96) (c : Cluster) : (s.setCluster x cl c).ctxs = s.ctxs := rfl
@[simp] theorem sectors_setCluster (x : Sec) (cl : Fin 96) (c : Cluster) : (s.setCluster x cl c).sectors = s.sectors := rfl
@[simp] theorem spad_setCluster (x : Sec) (cl : Fin 96) (c : Cluster) : (s.setCluster x cl c).spad = s.spad := rfl
@[simp] theorem spadEmpty_setCluster (x : Sec) (cl : Fin 96) (c : Cluster) : (s.setCluster x cl c).spadEmpty = s.spadEmpty := rfl
@[simp] theorem spadMarks_setCluster (x : Sec) (cl : Fin 96) (c : Cluster) : (s.setCluster x cl c).spadMarks = s.spadMarks := rfl
@[simp] theorem accs_setCluster (x : Sec) (cl : Fin 96) (c : Cluster) : (s.setCluster x cl c).accs = s.accs := rfl
@[simp] theorem mem_setCluster (x : Sec) (cl : Fin 96) (c : Cluster) : (s.setCluster x cl c).mem = s.mem := rfl
@[simp] theorem llc_setCluster (x : Sec) (cl : Fin 96) (c : Cluster) : (s.setCluster x cl c).llc = s.llc := rfl
@[simp] theorem copies_setCluster (x : Sec) (cl : Fin 96) (c : Cluster) : (s.setCluster x cl c).copies = s.copies := rfl
@[simp] theorem marks_setCluster (x : Sec) (cl : Fin 96) (c : Cluster) : (s.setCluster x cl c).marks = s.marks := rfl
@[simp] theorem flight_setCluster (x : Sec) (cl : Fin 96) (c : Cluster) : (s.setCluster x cl c).flight = s.flight := rfl
@[simp] theorem tokens_setCluster (x : Sec) (cl : Fin 96) (c : Cluster) : (s.setCluster x cl c).tokens = s.tokens := rfl
@[simp] theorem bankq_setCluster (x : Sec) (cl : Fin 96) (c : Cluster) : (s.setCluster x cl c).bankq = s.bankq := rfl
@[simp] theorem zreqs_setCluster (x : Sec) (cl : Fin 96) (c : Cluster) : (s.setCluster x cl c).zreqs = s.zreqs := rfl
@[simp] theorem gen_setCluster (x : Sec) (cl : Fin 96) (c : Cluster) : (s.setCluster x cl c).gen = s.gen := rfl
@[simp] theorem bridges_setCluster (x : Sec) (cl : Fin 96) (c : Cluster) : (s.setCluster x cl c).bridges = s.bridges := rfl
@[simp] theorem hz_setCluster (x : Sec) (cl : Fin 96) (c : Cluster) : (s.setCluster x cl c).hz = s.hz := rfl

@[simp] theorem cur_setSec (x : Sec) (c : Sector) : (s.setSec x c).cur = s.cur := rfl
@[simp] theorem curWord_setSec (x : Sec) (c : Sector) : (s.setSec x c).curWord = s.curWord := rfl
@[simp] theorem turns_setSec (x : Sec) (c : Sector) : (s.setSec x c).turns = s.turns := rfl
@[simp] theorem agenda_setSec (x : Sec) (c : Sector) : (s.setSec x c).agenda = s.agenda := rfl
@[simp] theorem tape_setSec (x : Sec) (c : Sector) : (s.setSec x c).tape = s.tape := rfl
@[simp] theorem freeCtr_setSec (x : Sec) (c : Sector) : (s.setSec x c).freeCtr = s.freeCtr := rfl
@[simp] theorem nextId_setSec (x : Sec) (c : Sector) : (s.setSec x c).nextId = s.nextId := rfl
@[simp] theorem wseq_setSec (x : Sec) (c : Sector) : (s.setSec x c).wseq = s.wseq := rfl
@[simp] theorem harts_setSec (x : Sec) (c : Sector) : (s.setSec x c).harts = s.harts := rfl
@[simp] theorem masters_setSec (x : Sec) (c : Sector) : (s.setSec x c).masters = s.masters := rfl
@[simp] theorem ctxs_setSec (x : Sec) (c : Sector) : (s.setSec x c).ctxs = s.ctxs := rfl
@[simp] theorem clusters_setSec (x : Sec) (c : Sector) : (s.setSec x c).clusters = s.clusters := rfl
@[simp] theorem spad_setSec (x : Sec) (c : Sector) : (s.setSec x c).spad = s.spad := rfl
@[simp] theorem spadEmpty_setSec (x : Sec) (c : Sector) : (s.setSec x c).spadEmpty = s.spadEmpty := rfl
@[simp] theorem spadMarks_setSec (x : Sec) (c : Sector) : (s.setSec x c).spadMarks = s.spadMarks := rfl
@[simp] theorem accs_setSec (x : Sec) (c : Sector) : (s.setSec x c).accs = s.accs := rfl
@[simp] theorem mem_setSec (x : Sec) (c : Sector) : (s.setSec x c).mem = s.mem := rfl
@[simp] theorem llc_setSec (x : Sec) (c : Sector) : (s.setSec x c).llc = s.llc := rfl
@[simp] theorem copies_setSec (x : Sec) (c : Sector) : (s.setSec x c).copies = s.copies := rfl
@[simp] theorem marks_setSec (x : Sec) (c : Sector) : (s.setSec x c).marks = s.marks := rfl
@[simp] theorem flight_setSec (x : Sec) (c : Sector) : (s.setSec x c).flight = s.flight := rfl
@[simp] theorem tokens_setSec (x : Sec) (c : Sector) : (s.setSec x c).tokens = s.tokens := rfl
@[simp] theorem bankq_setSec (x : Sec) (c : Sector) : (s.setSec x c).bankq = s.bankq := rfl
@[simp] theorem zreqs_setSec (x : Sec) (c : Sector) : (s.setSec x c).zreqs = s.zreqs := rfl
@[simp] theorem gen_setSec (x : Sec) (c : Sector) : (s.setSec x c).gen = s.gen := rfl
@[simp] theorem bridges_setSec (x : Sec) (c : Sector) : (s.setSec x c).bridges = s.bridges := rfl
@[simp] theorem hz_setSec (x : Sec) (c : Sector) : (s.setSec x c).hz = s.hz := rfl

@[simp] theorem cur_modHart (g : Agent) (f : Hart → Hart) : (s.modHart g f).cur = s.cur := rfl
@[simp] theorem curWord_modHart (g : Agent) (f : Hart → Hart) : (s.modHart g f).curWord = s.curWord := rfl
@[simp] theorem turns_modHart (g : Agent) (f : Hart → Hart) : (s.modHart g f).turns = s.turns := rfl
@[simp] theorem agenda_modHart (g : Agent) (f : Hart → Hart) : (s.modHart g f).agenda = s.agenda := rfl
@[simp] theorem tape_modHart (g : Agent) (f : Hart → Hart) : (s.modHart g f).tape = s.tape := rfl
@[simp] theorem freeCtr_modHart (g : Agent) (f : Hart → Hart) : (s.modHart g f).freeCtr = s.freeCtr := rfl
@[simp] theorem nextId_modHart (g : Agent) (f : Hart → Hart) : (s.modHart g f).nextId = s.nextId := rfl
@[simp] theorem wseq_modHart (g : Agent) (f : Hart → Hart) : (s.modHart g f).wseq = s.wseq := rfl
@[simp] theorem masters_modHart (g : Agent) (f : Hart → Hart) : (s.modHart g f).masters = s.masters := rfl
@[simp] theorem ctxs_modHart (g : Agent) (f : Hart → Hart) : (s.modHart g f).ctxs = s.ctxs := rfl
@[simp] theorem clusters_modHart (g : Agent) (f : Hart → Hart) : (s.modHart g f).clusters = s.clusters := rfl
@[simp] theorem sectors_modHart (g : Agent) (f : Hart → Hart) : (s.modHart g f).sectors = s.sectors := rfl
@[simp] theorem spad_modHart (g : Agent) (f : Hart → Hart) : (s.modHart g f).spad = s.spad := rfl
@[simp] theorem spadEmpty_modHart (g : Agent) (f : Hart → Hart) : (s.modHart g f).spadEmpty = s.spadEmpty := rfl
@[simp] theorem spadMarks_modHart (g : Agent) (f : Hart → Hart) : (s.modHart g f).spadMarks = s.spadMarks := rfl
@[simp] theorem accs_modHart (g : Agent) (f : Hart → Hart) : (s.modHart g f).accs = s.accs := rfl
@[simp] theorem mem_modHart (g : Agent) (f : Hart → Hart) : (s.modHart g f).mem = s.mem := rfl
@[simp] theorem llc_modHart (g : Agent) (f : Hart → Hart) : (s.modHart g f).llc = s.llc := rfl
@[simp] theorem copies_modHart (g : Agent) (f : Hart → Hart) : (s.modHart g f).copies = s.copies := rfl
@[simp] theorem marks_modHart (g : Agent) (f : Hart → Hart) : (s.modHart g f).marks = s.marks := rfl
@[simp] theorem flight_modHart (g : Agent) (f : Hart → Hart) : (s.modHart g f).flight = s.flight := rfl
@[simp] theorem tokens_modHart (g : Agent) (f : Hart → Hart) : (s.modHart g f).tokens = s.tokens := rfl
@[simp] theorem bankq_modHart (g : Agent) (f : Hart → Hart) : (s.modHart g f).bankq = s.bankq := rfl
@[simp] theorem zreqs_modHart (g : Agent) (f : Hart → Hart) : (s.modHart g f).zreqs = s.zreqs := rfl
@[simp] theorem gen_modHart (g : Agent) (f : Hart → Hart) : (s.modHart g f).gen = s.gen := rfl
@[simp] theorem bridges_modHart (g : Agent) (f : Hart → Hart) : (s.modHart g f).bridges = s.bridges := rfl
@[simp] theorem hz_modHart (g : Agent) (f : Hart → Hart) : (s.modHart g f).hz = s.hz := rfl

@[simp] theorem cur_modMe (f : Hart → Hart) : (s.modMe f).cur = s.cur := rfl
@[simp] theorem curWord_modMe (f : Hart → Hart) : (s.modMe f).curWord = s.curWord := rfl
@[simp] theorem turns_modMe (f : Hart → Hart) : (s.modMe f).turns = s.turns := rfl
@[simp] theorem agenda_modMe (f : Hart → Hart) : (s.modMe f).agenda = s.agenda := rfl
@[simp] theorem tape_modMe (f : Hart → Hart) : (s.modMe f).tape = s.tape := rfl
@[simp] theorem freeCtr_modMe (f : Hart → Hart) : (s.modMe f).freeCtr = s.freeCtr := rfl
@[simp] theorem nextId_modMe (f : Hart → Hart) : (s.modMe f).nextId = s.nextId := rfl
@[simp] theorem wseq_modMe (f : Hart → Hart) : (s.modMe f).wseq = s.wseq := rfl
@[simp] theorem masters_modMe (f : Hart → Hart) : (s.modMe f).masters = s.masters := rfl
@[simp] theorem ctxs_modMe (f : Hart → Hart) : (s.modMe f).ctxs = s.ctxs := rfl
@[simp] theorem clusters_modMe (f : Hart → Hart) : (s.modMe f).clusters = s.clusters := rfl
@[simp] theorem sectors_modMe (f : Hart → Hart) : (s.modMe f).sectors = s.sectors := rfl
@[simp] theorem spad_modMe (f : Hart → Hart) : (s.modMe f).spad = s.spad := rfl
@[simp] theorem spadEmpty_modMe (f : Hart → Hart) : (s.modMe f).spadEmpty = s.spadEmpty := rfl
@[simp] theorem spadMarks_modMe (f : Hart → Hart) : (s.modMe f).spadMarks = s.spadMarks := rfl
@[simp] theorem accs_modMe (f : Hart → Hart) : (s.modMe f).accs = s.accs := rfl
@[simp] theorem mem_modMe (f : Hart → Hart) : (s.modMe f).mem = s.mem := rfl
@[simp] theorem llc_modMe (f : Hart → Hart) : (s.modMe f).llc = s.llc := rfl
@[simp] theorem copies_modMe (f : Hart → Hart) : (s.modMe f).copies = s.copies := rfl
@[simp] theorem marks_modMe (f : Hart → Hart) : (s.modMe f).marks = s.marks := rfl
@[simp] theorem flight_modMe (f : Hart → Hart) : (s.modMe f).flight = s.flight := rfl
@[simp] theorem tokens_modMe (f : Hart → Hart) : (s.modMe f).tokens = s.tokens := rfl
@[simp] theorem bankq_modMe (f : Hart → Hart) : (s.modMe f).bankq = s.bankq := rfl
@[simp] theorem zreqs_modMe (f : Hart → Hart) : (s.modMe f).zreqs = s.zreqs := rfl
@[simp] theorem gen_modMe (f : Hart → Hart) : (s.modMe f).gen = s.gen := rfl
@[simp] theorem bridges_modMe (f : Hart → Hart) : (s.modMe f).bridges = s.bridges := rfl
@[simp] theorem hz_modMe (f : Hart → Hart) : (s.modMe f).hz = s.hz := rfl

@[simp] theorem cur_modMaster (x : Sec) (n : Fin 16) (f : Master → Master) : (s.modMaster x n f).cur = s.cur := rfl
@[simp] theorem curWord_modMaster (x : Sec) (n : Fin 16) (f : Master → Master) : (s.modMaster x n f).curWord = s.curWord := rfl
@[simp] theorem turns_modMaster (x : Sec) (n : Fin 16) (f : Master → Master) : (s.modMaster x n f).turns = s.turns := rfl
@[simp] theorem agenda_modMaster (x : Sec) (n : Fin 16) (f : Master → Master) : (s.modMaster x n f).agenda = s.agenda := rfl
@[simp] theorem tape_modMaster (x : Sec) (n : Fin 16) (f : Master → Master) : (s.modMaster x n f).tape = s.tape := rfl
@[simp] theorem freeCtr_modMaster (x : Sec) (n : Fin 16) (f : Master → Master) : (s.modMaster x n f).freeCtr = s.freeCtr := rfl
@[simp] theorem nextId_modMaster (x : Sec) (n : Fin 16) (f : Master → Master) : (s.modMaster x n f).nextId = s.nextId := rfl
@[simp] theorem wseq_modMaster (x : Sec) (n : Fin 16) (f : Master → Master) : (s.modMaster x n f).wseq = s.wseq := rfl
@[simp] theorem harts_modMaster (x : Sec) (n : Fin 16) (f : Master → Master) : (s.modMaster x n f).harts = s.harts := rfl
@[simp] theorem ctxs_modMaster (x : Sec) (n : Fin 16) (f : Master → Master) : (s.modMaster x n f).ctxs = s.ctxs := rfl
@[simp] theorem clusters_modMaster (x : Sec) (n : Fin 16) (f : Master → Master) : (s.modMaster x n f).clusters = s.clusters := rfl
@[simp] theorem sectors_modMaster (x : Sec) (n : Fin 16) (f : Master → Master) : (s.modMaster x n f).sectors = s.sectors := rfl
@[simp] theorem spad_modMaster (x : Sec) (n : Fin 16) (f : Master → Master) : (s.modMaster x n f).spad = s.spad := rfl
@[simp] theorem spadEmpty_modMaster (x : Sec) (n : Fin 16) (f : Master → Master) : (s.modMaster x n f).spadEmpty = s.spadEmpty := rfl
@[simp] theorem spadMarks_modMaster (x : Sec) (n : Fin 16) (f : Master → Master) : (s.modMaster x n f).spadMarks = s.spadMarks := rfl
@[simp] theorem accs_modMaster (x : Sec) (n : Fin 16) (f : Master → Master) : (s.modMaster x n f).accs = s.accs := rfl
@[simp] theorem mem_modMaster (x : Sec) (n : Fin 16) (f : Master → Master) : (s.modMaster x n f).mem = s.mem := rfl
@[simp] theorem llc_modMaster (x : Sec) (n : Fin 16) (f : Master → Master) : (s.modMaster x n f).llc = s.llc := rfl
@[simp] theorem copies_modMaster (x : Sec) (n : Fin 16) (f : Master → Master) : (s.modMaster x n f).copies = s.copies := rfl
@[simp] theorem marks_modMaster (x : Sec) (n : Fin 16) (f : Master → Master) : (s.modMaster x n f).marks = s.marks := rfl
@[simp] theorem flight_modMaster (x : Sec) (n : Fin 16) (f : Master → Master) : (s.modMaster x n f).flight = s.flight := rfl
@[simp] theorem tokens_modMaster (x : Sec) (n : Fin 16) (f : Master → Master) : (s.modMaster x n f).tokens = s.tokens := rfl
@[simp] theorem bankq_modMaster (x : Sec) (n : Fin 16) (f : Master → Master) : (s.modMaster x n f).bankq = s.bankq := rfl
@[simp] theorem zreqs_modMaster (x : Sec) (n : Fin 16) (f : Master → Master) : (s.modMaster x n f).zreqs = s.zreqs := rfl
@[simp] theorem gen_modMaster (x : Sec) (n : Fin 16) (f : Master → Master) : (s.modMaster x n f).gen = s.gen := rfl
@[simp] theorem bridges_modMaster (x : Sec) (n : Fin 16) (f : Master → Master) : (s.modMaster x n f).bridges = s.bridges := rfl
@[simp] theorem hz_modMaster (x : Sec) (n : Fin 16) (f : Master → Master) : (s.modMaster x n f).hz = s.hz := rfl

@[simp] theorem cur_modCtx (x : Sec) (i : Nat) (f : Ctx → Ctx) : (s.modCtx x i f).cur = s.cur := rfl
@[simp] theorem curWord_modCtx (x : Sec) (i : Nat) (f : Ctx → Ctx) : (s.modCtx x i f).curWord = s.curWord := rfl
@[simp] theorem turns_modCtx (x : Sec) (i : Nat) (f : Ctx → Ctx) : (s.modCtx x i f).turns = s.turns := rfl
@[simp] theorem agenda_modCtx (x : Sec) (i : Nat) (f : Ctx → Ctx) : (s.modCtx x i f).agenda = s.agenda := rfl
@[simp] theorem tape_modCtx (x : Sec) (i : Nat) (f : Ctx → Ctx) : (s.modCtx x i f).tape = s.tape := rfl
@[simp] theorem freeCtr_modCtx (x : Sec) (i : Nat) (f : Ctx → Ctx) : (s.modCtx x i f).freeCtr = s.freeCtr := rfl
@[simp] theorem nextId_modCtx (x : Sec) (i : Nat) (f : Ctx → Ctx) : (s.modCtx x i f).nextId = s.nextId := rfl
@[simp] theorem wseq_modCtx (x : Sec) (i : Nat) (f : Ctx → Ctx) : (s.modCtx x i f).wseq = s.wseq := rfl
@[simp] theorem harts_modCtx (x : Sec) (i : Nat) (f : Ctx → Ctx) : (s.modCtx x i f).harts = s.harts := rfl
@[simp] theorem masters_modCtx (x : Sec) (i : Nat) (f : Ctx → Ctx) : (s.modCtx x i f).masters = s.masters := rfl
@[simp] theorem clusters_modCtx (x : Sec) (i : Nat) (f : Ctx → Ctx) : (s.modCtx x i f).clusters = s.clusters := rfl
@[simp] theorem sectors_modCtx (x : Sec) (i : Nat) (f : Ctx → Ctx) : (s.modCtx x i f).sectors = s.sectors := rfl
@[simp] theorem spad_modCtx (x : Sec) (i : Nat) (f : Ctx → Ctx) : (s.modCtx x i f).spad = s.spad := rfl
@[simp] theorem spadEmpty_modCtx (x : Sec) (i : Nat) (f : Ctx → Ctx) : (s.modCtx x i f).spadEmpty = s.spadEmpty := rfl
@[simp] theorem spadMarks_modCtx (x : Sec) (i : Nat) (f : Ctx → Ctx) : (s.modCtx x i f).spadMarks = s.spadMarks := rfl
@[simp] theorem accs_modCtx (x : Sec) (i : Nat) (f : Ctx → Ctx) : (s.modCtx x i f).accs = s.accs := rfl
@[simp] theorem mem_modCtx (x : Sec) (i : Nat) (f : Ctx → Ctx) : (s.modCtx x i f).mem = s.mem := rfl
@[simp] theorem llc_modCtx (x : Sec) (i : Nat) (f : Ctx → Ctx) : (s.modCtx x i f).llc = s.llc := rfl
@[simp] theorem copies_modCtx (x : Sec) (i : Nat) (f : Ctx → Ctx) : (s.modCtx x i f).copies = s.copies := rfl
@[simp] theorem marks_modCtx (x : Sec) (i : Nat) (f : Ctx → Ctx) : (s.modCtx x i f).marks = s.marks := rfl
@[simp] theorem flight_modCtx (x : Sec) (i : Nat) (f : Ctx → Ctx) : (s.modCtx x i f).flight = s.flight := rfl
@[simp] theorem tokens_modCtx (x : Sec) (i : Nat) (f : Ctx → Ctx) : (s.modCtx x i f).tokens = s.tokens := rfl
@[simp] theorem bankq_modCtx (x : Sec) (i : Nat) (f : Ctx → Ctx) : (s.modCtx x i f).bankq = s.bankq := rfl
@[simp] theorem zreqs_modCtx (x : Sec) (i : Nat) (f : Ctx → Ctx) : (s.modCtx x i f).zreqs = s.zreqs := rfl
@[simp] theorem gen_modCtx (x : Sec) (i : Nat) (f : Ctx → Ctx) : (s.modCtx x i f).gen = s.gen := rfl
@[simp] theorem bridges_modCtx (x : Sec) (i : Nat) (f : Ctx → Ctx) : (s.modCtx x i f).bridges = s.bridges := rfl
@[simp] theorem hz_modCtx (x : Sec) (i : Nat) (f : Ctx → Ctx) : (s.modCtx x i f).hz = s.hz := rfl

@[simp] theorem cur_modCluster (x : Sec) (cl : Fin 96) (f : Cluster → Cluster) : (s.modCluster x cl f).cur = s.cur := rfl
@[simp] theorem curWord_modCluster (x : Sec) (cl : Fin 96) (f : Cluster → Cluster) : (s.modCluster x cl f).curWord = s.curWord := rfl
@[simp] theorem turns_modCluster (x : Sec) (cl : Fin 96) (f : Cluster → Cluster) : (s.modCluster x cl f).turns = s.turns := rfl
@[simp] theorem agenda_modCluster (x : Sec) (cl : Fin 96) (f : Cluster → Cluster) : (s.modCluster x cl f).agenda = s.agenda := rfl
@[simp] theorem tape_modCluster (x : Sec) (cl : Fin 96) (f : Cluster → Cluster) : (s.modCluster x cl f).tape = s.tape := rfl
@[simp] theorem freeCtr_modCluster (x : Sec) (cl : Fin 96) (f : Cluster → Cluster) : (s.modCluster x cl f).freeCtr = s.freeCtr := rfl
@[simp] theorem nextId_modCluster (x : Sec) (cl : Fin 96) (f : Cluster → Cluster) : (s.modCluster x cl f).nextId = s.nextId := rfl
@[simp] theorem wseq_modCluster (x : Sec) (cl : Fin 96) (f : Cluster → Cluster) : (s.modCluster x cl f).wseq = s.wseq := rfl
@[simp] theorem harts_modCluster (x : Sec) (cl : Fin 96) (f : Cluster → Cluster) : (s.modCluster x cl f).harts = s.harts := rfl
@[simp] theorem masters_modCluster (x : Sec) (cl : Fin 96) (f : Cluster → Cluster) : (s.modCluster x cl f).masters = s.masters := rfl
@[simp] theorem ctxs_modCluster (x : Sec) (cl : Fin 96) (f : Cluster → Cluster) : (s.modCluster x cl f).ctxs = s.ctxs := rfl
@[simp] theorem sectors_modCluster (x : Sec) (cl : Fin 96) (f : Cluster → Cluster) : (s.modCluster x cl f).sectors = s.sectors := rfl
@[simp] theorem spad_modCluster (x : Sec) (cl : Fin 96) (f : Cluster → Cluster) : (s.modCluster x cl f).spad = s.spad := rfl
@[simp] theorem spadEmpty_modCluster (x : Sec) (cl : Fin 96) (f : Cluster → Cluster) : (s.modCluster x cl f).spadEmpty = s.spadEmpty := rfl
@[simp] theorem spadMarks_modCluster (x : Sec) (cl : Fin 96) (f : Cluster → Cluster) : (s.modCluster x cl f).spadMarks = s.spadMarks := rfl
@[simp] theorem accs_modCluster (x : Sec) (cl : Fin 96) (f : Cluster → Cluster) : (s.modCluster x cl f).accs = s.accs := rfl
@[simp] theorem mem_modCluster (x : Sec) (cl : Fin 96) (f : Cluster → Cluster) : (s.modCluster x cl f).mem = s.mem := rfl
@[simp] theorem llc_modCluster (x : Sec) (cl : Fin 96) (f : Cluster → Cluster) : (s.modCluster x cl f).llc = s.llc := rfl
@[simp] theorem copies_modCluster (x : Sec) (cl : Fin 96) (f : Cluster → Cluster) : (s.modCluster x cl f).copies = s.copies := rfl
@[simp] theorem marks_modCluster (x : Sec) (cl : Fin 96) (f : Cluster → Cluster) : (s.modCluster x cl f).marks = s.marks := rfl
@[simp] theorem flight_modCluster (x : Sec) (cl : Fin 96) (f : Cluster → Cluster) : (s.modCluster x cl f).flight = s.flight := rfl
@[simp] theorem tokens_modCluster (x : Sec) (cl : Fin 96) (f : Cluster → Cluster) : (s.modCluster x cl f).tokens = s.tokens := rfl
@[simp] theorem bankq_modCluster (x : Sec) (cl : Fin 96) (f : Cluster → Cluster) : (s.modCluster x cl f).bankq = s.bankq := rfl
@[simp] theorem zreqs_modCluster (x : Sec) (cl : Fin 96) (f : Cluster → Cluster) : (s.modCluster x cl f).zreqs = s.zreqs := rfl
@[simp] theorem gen_modCluster (x : Sec) (cl : Fin 96) (f : Cluster → Cluster) : (s.modCluster x cl f).gen = s.gen := rfl
@[simp] theorem bridges_modCluster (x : Sec) (cl : Fin 96) (f : Cluster → Cluster) : (s.modCluster x cl f).bridges = s.bridges := rfl
@[simp] theorem hz_modCluster (x : Sec) (cl : Fin 96) (f : Cluster → Cluster) : (s.modCluster x cl f).hz = s.hz := rfl

@[simp] theorem cur_modCore (x : Sec) (cl : Fin 96) (co : Fin 8) (f : CoreSt → CoreSt) : (s.modCore x cl co f).cur = s.cur := rfl
@[simp] theorem curWord_modCore (x : Sec) (cl : Fin 96) (co : Fin 8) (f : CoreSt → CoreSt) : (s.modCore x cl co f).curWord = s.curWord := rfl
@[simp] theorem turns_modCore (x : Sec) (cl : Fin 96) (co : Fin 8) (f : CoreSt → CoreSt) : (s.modCore x cl co f).turns = s.turns := rfl
@[simp] theorem agenda_modCore (x : Sec) (cl : Fin 96) (co : Fin 8) (f : CoreSt → CoreSt) : (s.modCore x cl co f).agenda = s.agenda := rfl
@[simp] theorem tape_modCore (x : Sec) (cl : Fin 96) (co : Fin 8) (f : CoreSt → CoreSt) : (s.modCore x cl co f).tape = s.tape := rfl
@[simp] theorem freeCtr_modCore (x : Sec) (cl : Fin 96) (co : Fin 8) (f : CoreSt → CoreSt) : (s.modCore x cl co f).freeCtr = s.freeCtr := rfl
@[simp] theorem nextId_modCore (x : Sec) (cl : Fin 96) (co : Fin 8) (f : CoreSt → CoreSt) : (s.modCore x cl co f).nextId = s.nextId := rfl
@[simp] theorem wseq_modCore (x : Sec) (cl : Fin 96) (co : Fin 8) (f : CoreSt → CoreSt) : (s.modCore x cl co f).wseq = s.wseq := rfl
@[simp] theorem harts_modCore (x : Sec) (cl : Fin 96) (co : Fin 8) (f : CoreSt → CoreSt) : (s.modCore x cl co f).harts = s.harts := rfl
@[simp] theorem masters_modCore (x : Sec) (cl : Fin 96) (co : Fin 8) (f : CoreSt → CoreSt) : (s.modCore x cl co f).masters = s.masters := rfl
@[simp] theorem ctxs_modCore (x : Sec) (cl : Fin 96) (co : Fin 8) (f : CoreSt → CoreSt) : (s.modCore x cl co f).ctxs = s.ctxs := rfl
@[simp] theorem sectors_modCore (x : Sec) (cl : Fin 96) (co : Fin 8) (f : CoreSt → CoreSt) : (s.modCore x cl co f).sectors = s.sectors := rfl
@[simp] theorem spad_modCore (x : Sec) (cl : Fin 96) (co : Fin 8) (f : CoreSt → CoreSt) : (s.modCore x cl co f).spad = s.spad := rfl
@[simp] theorem spadEmpty_modCore (x : Sec) (cl : Fin 96) (co : Fin 8) (f : CoreSt → CoreSt) : (s.modCore x cl co f).spadEmpty = s.spadEmpty := rfl
@[simp] theorem spadMarks_modCore (x : Sec) (cl : Fin 96) (co : Fin 8) (f : CoreSt → CoreSt) : (s.modCore x cl co f).spadMarks = s.spadMarks := rfl
@[simp] theorem accs_modCore (x : Sec) (cl : Fin 96) (co : Fin 8) (f : CoreSt → CoreSt) : (s.modCore x cl co f).accs = s.accs := rfl
@[simp] theorem mem_modCore (x : Sec) (cl : Fin 96) (co : Fin 8) (f : CoreSt → CoreSt) : (s.modCore x cl co f).mem = s.mem := rfl
@[simp] theorem llc_modCore (x : Sec) (cl : Fin 96) (co : Fin 8) (f : CoreSt → CoreSt) : (s.modCore x cl co f).llc = s.llc := rfl
@[simp] theorem copies_modCore (x : Sec) (cl : Fin 96) (co : Fin 8) (f : CoreSt → CoreSt) : (s.modCore x cl co f).copies = s.copies := rfl
@[simp] theorem marks_modCore (x : Sec) (cl : Fin 96) (co : Fin 8) (f : CoreSt → CoreSt) : (s.modCore x cl co f).marks = s.marks := rfl
@[simp] theorem flight_modCore (x : Sec) (cl : Fin 96) (co : Fin 8) (f : CoreSt → CoreSt) : (s.modCore x cl co f).flight = s.flight := rfl
@[simp] theorem tokens_modCore (x : Sec) (cl : Fin 96) (co : Fin 8) (f : CoreSt → CoreSt) : (s.modCore x cl co f).tokens = s.tokens := rfl
@[simp] theorem bankq_modCore (x : Sec) (cl : Fin 96) (co : Fin 8) (f : CoreSt → CoreSt) : (s.modCore x cl co f).bankq = s.bankq := rfl
@[simp] theorem zreqs_modCore (x : Sec) (cl : Fin 96) (co : Fin 8) (f : CoreSt → CoreSt) : (s.modCore x cl co f).zreqs = s.zreqs := rfl
@[simp] theorem gen_modCore (x : Sec) (cl : Fin 96) (co : Fin 8) (f : CoreSt → CoreSt) : (s.modCore x cl co f).gen = s.gen := rfl
@[simp] theorem bridges_modCore (x : Sec) (cl : Fin 96) (co : Fin 8) (f : CoreSt → CoreSt) : (s.modCore x cl co f).bridges = s.bridges := rfl
@[simp] theorem hz_modCore (x : Sec) (cl : Fin 96) (co : Fin 8) (f : CoreSt → CoreSt) : (s.modCore x cl co f).hz = s.hz := rfl

@[simp] theorem cur_modSec (x : Sec) (f : Sector → Sector) : (s.modSec x f).cur = s.cur := rfl
@[simp] theorem curWord_modSec (x : Sec) (f : Sector → Sector) : (s.modSec x f).curWord = s.curWord := rfl
@[simp] theorem turns_modSec (x : Sec) (f : Sector → Sector) : (s.modSec x f).turns = s.turns := rfl
@[simp] theorem agenda_modSec (x : Sec) (f : Sector → Sector) : (s.modSec x f).agenda = s.agenda := rfl
@[simp] theorem tape_modSec (x : Sec) (f : Sector → Sector) : (s.modSec x f).tape = s.tape := rfl
@[simp] theorem freeCtr_modSec (x : Sec) (f : Sector → Sector) : (s.modSec x f).freeCtr = s.freeCtr := rfl
@[simp] theorem nextId_modSec (x : Sec) (f : Sector → Sector) : (s.modSec x f).nextId = s.nextId := rfl
@[simp] theorem wseq_modSec (x : Sec) (f : Sector → Sector) : (s.modSec x f).wseq = s.wseq := rfl
@[simp] theorem harts_modSec (x : Sec) (f : Sector → Sector) : (s.modSec x f).harts = s.harts := rfl
@[simp] theorem masters_modSec (x : Sec) (f : Sector → Sector) : (s.modSec x f).masters = s.masters := rfl
@[simp] theorem ctxs_modSec (x : Sec) (f : Sector → Sector) : (s.modSec x f).ctxs = s.ctxs := rfl
@[simp] theorem clusters_modSec (x : Sec) (f : Sector → Sector) : (s.modSec x f).clusters = s.clusters := rfl
@[simp] theorem spad_modSec (x : Sec) (f : Sector → Sector) : (s.modSec x f).spad = s.spad := rfl
@[simp] theorem spadEmpty_modSec (x : Sec) (f : Sector → Sector) : (s.modSec x f).spadEmpty = s.spadEmpty := rfl
@[simp] theorem spadMarks_modSec (x : Sec) (f : Sector → Sector) : (s.modSec x f).spadMarks = s.spadMarks := rfl
@[simp] theorem accs_modSec (x : Sec) (f : Sector → Sector) : (s.modSec x f).accs = s.accs := rfl
@[simp] theorem mem_modSec (x : Sec) (f : Sector → Sector) : (s.modSec x f).mem = s.mem := rfl
@[simp] theorem llc_modSec (x : Sec) (f : Sector → Sector) : (s.modSec x f).llc = s.llc := rfl
@[simp] theorem copies_modSec (x : Sec) (f : Sector → Sector) : (s.modSec x f).copies = s.copies := rfl
@[simp] theorem marks_modSec (x : Sec) (f : Sector → Sector) : (s.modSec x f).marks = s.marks := rfl
@[simp] theorem flight_modSec (x : Sec) (f : Sector → Sector) : (s.modSec x f).flight = s.flight := rfl
@[simp] theorem tokens_modSec (x : Sec) (f : Sector → Sector) : (s.modSec x f).tokens = s.tokens := rfl
@[simp] theorem bankq_modSec (x : Sec) (f : Sector → Sector) : (s.modSec x f).bankq = s.bankq := rfl
@[simp] theorem zreqs_modSec (x : Sec) (f : Sector → Sector) : (s.modSec x f).zreqs = s.zreqs := rfl
@[simp] theorem gen_modSec (x : Sec) (f : Sector → Sector) : (s.modSec x f).gen = s.gen := rfl
@[simp] theorem bridges_modSec (x : Sec) (f : Sector → Sector) : (s.modSec x f).bridges = s.bridges := rfl
@[simp] theorem hz_modSec (x : Sec) (f : Sector → Sector) : (s.modSec x f).hz = s.hz := rfl

@[simp] theorem cur_modInst (x : Sec) (u : Nat) (f : Inst → Inst) : (s.modInst x u f).cur = s.cur := rfl
@[simp] theorem curWord_modInst (x : Sec) (u : Nat) (f : Inst → Inst) : (s.modInst x u f).curWord = s.curWord := rfl
@[simp] theorem turns_modInst (x : Sec) (u : Nat) (f : Inst → Inst) : (s.modInst x u f).turns = s.turns := rfl
@[simp] theorem agenda_modInst (x : Sec) (u : Nat) (f : Inst → Inst) : (s.modInst x u f).agenda = s.agenda := rfl
@[simp] theorem tape_modInst (x : Sec) (u : Nat) (f : Inst → Inst) : (s.modInst x u f).tape = s.tape := rfl
@[simp] theorem freeCtr_modInst (x : Sec) (u : Nat) (f : Inst → Inst) : (s.modInst x u f).freeCtr = s.freeCtr := rfl
@[simp] theorem nextId_modInst (x : Sec) (u : Nat) (f : Inst → Inst) : (s.modInst x u f).nextId = s.nextId := rfl
@[simp] theorem wseq_modInst (x : Sec) (u : Nat) (f : Inst → Inst) : (s.modInst x u f).wseq = s.wseq := rfl
@[simp] theorem harts_modInst (x : Sec) (u : Nat) (f : Inst → Inst) : (s.modInst x u f).harts = s.harts := rfl
@[simp] theorem masters_modInst (x : Sec) (u : Nat) (f : Inst → Inst) : (s.modInst x u f).masters = s.masters := rfl
@[simp] theorem ctxs_modInst (x : Sec) (u : Nat) (f : Inst → Inst) : (s.modInst x u f).ctxs = s.ctxs := rfl
@[simp] theorem clusters_modInst (x : Sec) (u : Nat) (f : Inst → Inst) : (s.modInst x u f).clusters = s.clusters := rfl
@[simp] theorem spad_modInst (x : Sec) (u : Nat) (f : Inst → Inst) : (s.modInst x u f).spad = s.spad := rfl
@[simp] theorem spadEmpty_modInst (x : Sec) (u : Nat) (f : Inst → Inst) : (s.modInst x u f).spadEmpty = s.spadEmpty := rfl
@[simp] theorem spadMarks_modInst (x : Sec) (u : Nat) (f : Inst → Inst) : (s.modInst x u f).spadMarks = s.spadMarks := rfl
@[simp] theorem accs_modInst (x : Sec) (u : Nat) (f : Inst → Inst) : (s.modInst x u f).accs = s.accs := rfl
@[simp] theorem mem_modInst (x : Sec) (u : Nat) (f : Inst → Inst) : (s.modInst x u f).mem = s.mem := rfl
@[simp] theorem llc_modInst (x : Sec) (u : Nat) (f : Inst → Inst) : (s.modInst x u f).llc = s.llc := rfl
@[simp] theorem copies_modInst (x : Sec) (u : Nat) (f : Inst → Inst) : (s.modInst x u f).copies = s.copies := rfl
@[simp] theorem marks_modInst (x : Sec) (u : Nat) (f : Inst → Inst) : (s.modInst x u f).marks = s.marks := rfl
@[simp] theorem flight_modInst (x : Sec) (u : Nat) (f : Inst → Inst) : (s.modInst x u f).flight = s.flight := rfl
@[simp] theorem tokens_modInst (x : Sec) (u : Nat) (f : Inst → Inst) : (s.modInst x u f).tokens = s.tokens := rfl
@[simp] theorem bankq_modInst (x : Sec) (u : Nat) (f : Inst → Inst) : (s.modInst x u f).bankq = s.bankq := rfl
@[simp] theorem zreqs_modInst (x : Sec) (u : Nat) (f : Inst → Inst) : (s.modInst x u f).zreqs = s.zreqs := rfl
@[simp] theorem gen_modInst (x : Sec) (u : Nat) (f : Inst → Inst) : (s.modInst x u f).gen = s.gen := rfl
@[simp] theorem bridges_modInst (x : Sec) (u : Nat) (f : Inst → Inst) : (s.modInst x u f).bridges = s.bridges := rfl
@[simp] theorem hz_modInst (x : Sec) (u : Nat) (f : Inst → Inst) : (s.modInst x u f).hz = s.hz := rfl

@[simp] theorem cur_fresh : (s.fresh).cur = s.cur := rfl
@[simp] theorem curWord_fresh : (s.fresh).curWord = s.curWord := rfl
@[simp] theorem turns_fresh : (s.fresh).turns = s.turns := rfl
@[simp] theorem agenda_fresh : (s.fresh).agenda = s.agenda := rfl
@[simp] theorem tape_fresh : (s.fresh).tape = s.tape := rfl
@[simp] theorem freeCtr_fresh : (s.fresh).freeCtr = s.freeCtr := rfl
@[simp] theorem wseq_fresh : (s.fresh).wseq = s.wseq := rfl
@[simp] theorem harts_fresh : (s.fresh).harts = s.harts := rfl
@[simp] theorem masters_fresh : (s.fresh).masters = s.masters := rfl
@[simp] theorem ctxs_fresh : (s.fresh).ctxs = s.ctxs := rfl
@[simp] theorem clusters_fresh : (s.fresh).clusters = s.clusters := rfl
@[simp] theorem sectors_fresh : (s.fresh).sectors = s.sectors := rfl
@[simp] theorem spad_fresh : (s.fresh).spad = s.spad := rfl
@[simp] theorem spadEmpty_fresh : (s.fresh).spadEmpty = s.spadEmpty := rfl
@[simp] theorem spadMarks_fresh : (s.fresh).spadMarks = s.spadMarks := rfl
@[simp] theorem accs_fresh : (s.fresh).accs = s.accs := rfl
@[simp] theorem mem_fresh : (s.fresh).mem = s.mem := rfl
@[simp] theorem llc_fresh : (s.fresh).llc = s.llc := rfl
@[simp] theorem copies_fresh : (s.fresh).copies = s.copies := rfl
@[simp] theorem marks_fresh : (s.fresh).marks = s.marks := rfl
@[simp] theorem flight_fresh : (s.fresh).flight = s.flight := rfl
@[simp] theorem tokens_fresh : (s.fresh).tokens = s.tokens := rfl
@[simp] theorem bankq_fresh : (s.fresh).bankq = s.bankq := rfl
@[simp] theorem zreqs_fresh : (s.fresh).zreqs = s.zreqs := rfl
@[simp] theorem gen_fresh : (s.fresh).gen = s.gen := rfl
@[simp] theorem bridges_fresh : (s.fresh).bridges = s.bridges := rfl
@[simp] theorem hz_fresh : (s.fresh).hz = s.hz := rfl

@[simp] theorem cur_postFront (d : Due) : (s.postFront d).cur = s.cur := rfl
@[simp] theorem curWord_postFront (d : Due) : (s.postFront d).curWord = s.curWord := rfl
@[simp] theorem turns_postFront (d : Due) : (s.postFront d).turns = s.turns := rfl
@[simp] theorem tape_postFront (d : Due) : (s.postFront d).tape = s.tape := rfl
@[simp] theorem freeCtr_postFront (d : Due) : (s.postFront d).freeCtr = s.freeCtr := rfl
@[simp] theorem nextId_postFront (d : Due) : (s.postFront d).nextId = s.nextId := rfl
@[simp] theorem wseq_postFront (d : Due) : (s.postFront d).wseq = s.wseq := rfl
@[simp] theorem harts_postFront (d : Due) : (s.postFront d).harts = s.harts := rfl
@[simp] theorem masters_postFront (d : Due) : (s.postFront d).masters = s.masters := rfl
@[simp] theorem ctxs_postFront (d : Due) : (s.postFront d).ctxs = s.ctxs := rfl
@[simp] theorem clusters_postFront (d : Due) : (s.postFront d).clusters = s.clusters := rfl
@[simp] theorem sectors_postFront (d : Due) : (s.postFront d).sectors = s.sectors := rfl
@[simp] theorem spad_postFront (d : Due) : (s.postFront d).spad = s.spad := rfl
@[simp] theorem spadEmpty_postFront (d : Due) : (s.postFront d).spadEmpty = s.spadEmpty := rfl
@[simp] theorem spadMarks_postFront (d : Due) : (s.postFront d).spadMarks = s.spadMarks := rfl
@[simp] theorem accs_postFront (d : Due) : (s.postFront d).accs = s.accs := rfl
@[simp] theorem mem_postFront (d : Due) : (s.postFront d).mem = s.mem := rfl
@[simp] theorem llc_postFront (d : Due) : (s.postFront d).llc = s.llc := rfl
@[simp] theorem copies_postFront (d : Due) : (s.postFront d).copies = s.copies := rfl
@[simp] theorem marks_postFront (d : Due) : (s.postFront d).marks = s.marks := rfl
@[simp] theorem flight_postFront (d : Due) : (s.postFront d).flight = s.flight := rfl
@[simp] theorem tokens_postFront (d : Due) : (s.postFront d).tokens = s.tokens := rfl
@[simp] theorem bankq_postFront (d : Due) : (s.postFront d).bankq = s.bankq := rfl
@[simp] theorem zreqs_postFront (d : Due) : (s.postFront d).zreqs = s.zreqs := rfl
@[simp] theorem gen_postFront (d : Due) : (s.postFront d).gen = s.gen := rfl
@[simp] theorem bridges_postFront (d : Due) : (s.postFront d).bridges = s.bridges := rfl
@[simp] theorem hz_postFront (d : Due) : (s.postFront d).hz = s.hz := rfl

@[simp] theorem cur_wrS (r : Fin 16) (v : Word) : (s.wrS r v).cur = s.cur := rfl
@[simp] theorem curWord_wrS (r : Fin 16) (v : Word) : (s.wrS r v).curWord = s.curWord := rfl
@[simp] theorem turns_wrS (r : Fin 16) (v : Word) : (s.wrS r v).turns = s.turns := rfl
@[simp] theorem agenda_wrS (r : Fin 16) (v : Word) : (s.wrS r v).agenda = s.agenda := rfl
@[simp] theorem tape_wrS (r : Fin 16) (v : Word) : (s.wrS r v).tape = s.tape := rfl
@[simp] theorem freeCtr_wrS (r : Fin 16) (v : Word) : (s.wrS r v).freeCtr = s.freeCtr := rfl
@[simp] theorem nextId_wrS (r : Fin 16) (v : Word) : (s.wrS r v).nextId = s.nextId := rfl
@[simp] theorem wseq_wrS (r : Fin 16) (v : Word) : (s.wrS r v).wseq = s.wseq := rfl
@[simp] theorem masters_wrS (r : Fin 16) (v : Word) : (s.wrS r v).masters = s.masters := rfl
@[simp] theorem ctxs_wrS (r : Fin 16) (v : Word) : (s.wrS r v).ctxs = s.ctxs := rfl
@[simp] theorem clusters_wrS (r : Fin 16) (v : Word) : (s.wrS r v).clusters = s.clusters := rfl
@[simp] theorem sectors_wrS (r : Fin 16) (v : Word) : (s.wrS r v).sectors = s.sectors := rfl
@[simp] theorem spad_wrS (r : Fin 16) (v : Word) : (s.wrS r v).spad = s.spad := rfl
@[simp] theorem spadEmpty_wrS (r : Fin 16) (v : Word) : (s.wrS r v).spadEmpty = s.spadEmpty := rfl
@[simp] theorem spadMarks_wrS (r : Fin 16) (v : Word) : (s.wrS r v).spadMarks = s.spadMarks := rfl
@[simp] theorem accs_wrS (r : Fin 16) (v : Word) : (s.wrS r v).accs = s.accs := rfl
@[simp] theorem mem_wrS (r : Fin 16) (v : Word) : (s.wrS r v).mem = s.mem := rfl
@[simp] theorem llc_wrS (r : Fin 16) (v : Word) : (s.wrS r v).llc = s.llc := rfl
@[simp] theorem copies_wrS (r : Fin 16) (v : Word) : (s.wrS r v).copies = s.copies := rfl
@[simp] theorem marks_wrS (r : Fin 16) (v : Word) : (s.wrS r v).marks = s.marks := rfl
@[simp] theorem flight_wrS (r : Fin 16) (v : Word) : (s.wrS r v).flight = s.flight := rfl
@[simp] theorem tokens_wrS (r : Fin 16) (v : Word) : (s.wrS r v).tokens = s.tokens := rfl
@[simp] theorem bankq_wrS (r : Fin 16) (v : Word) : (s.wrS r v).bankq = s.bankq := rfl
@[simp] theorem zreqs_wrS (r : Fin 16) (v : Word) : (s.wrS r v).zreqs = s.zreqs := rfl
@[simp] theorem gen_wrS (r : Fin 16) (v : Word) : (s.wrS r v).gen = s.gen := rfl
@[simp] theorem bridges_wrS (r : Fin 16) (v : Word) : (s.wrS r v).bridges = s.bridges := rfl
@[simp] theorem hz_wrS (r : Fin 16) (v : Word) : (s.wrS r v).hz = s.hz := rfl

@[simp] theorem cur_wrP (k : Fin 8) (v : Bool) : (s.wrP k v).cur = s.cur := rfl
@[simp] theorem curWord_wrP (k : Fin 8) (v : Bool) : (s.wrP k v).curWord = s.curWord := rfl
@[simp] theorem turns_wrP (k : Fin 8) (v : Bool) : (s.wrP k v).turns = s.turns := rfl
@[simp] theorem agenda_wrP (k : Fin 8) (v : Bool) : (s.wrP k v).agenda = s.agenda := rfl
@[simp] theorem tape_wrP (k : Fin 8) (v : Bool) : (s.wrP k v).tape = s.tape := rfl
@[simp] theorem freeCtr_wrP (k : Fin 8) (v : Bool) : (s.wrP k v).freeCtr = s.freeCtr := rfl
@[simp] theorem nextId_wrP (k : Fin 8) (v : Bool) : (s.wrP k v).nextId = s.nextId := rfl
@[simp] theorem wseq_wrP (k : Fin 8) (v : Bool) : (s.wrP k v).wseq = s.wseq := rfl
@[simp] theorem masters_wrP (k : Fin 8) (v : Bool) : (s.wrP k v).masters = s.masters := rfl
@[simp] theorem ctxs_wrP (k : Fin 8) (v : Bool) : (s.wrP k v).ctxs = s.ctxs := rfl
@[simp] theorem clusters_wrP (k : Fin 8) (v : Bool) : (s.wrP k v).clusters = s.clusters := rfl
@[simp] theorem sectors_wrP (k : Fin 8) (v : Bool) : (s.wrP k v).sectors = s.sectors := rfl
@[simp] theorem spad_wrP (k : Fin 8) (v : Bool) : (s.wrP k v).spad = s.spad := rfl
@[simp] theorem spadEmpty_wrP (k : Fin 8) (v : Bool) : (s.wrP k v).spadEmpty = s.spadEmpty := rfl
@[simp] theorem spadMarks_wrP (k : Fin 8) (v : Bool) : (s.wrP k v).spadMarks = s.spadMarks := rfl
@[simp] theorem accs_wrP (k : Fin 8) (v : Bool) : (s.wrP k v).accs = s.accs := rfl
@[simp] theorem mem_wrP (k : Fin 8) (v : Bool) : (s.wrP k v).mem = s.mem := rfl
@[simp] theorem llc_wrP (k : Fin 8) (v : Bool) : (s.wrP k v).llc = s.llc := rfl
@[simp] theorem copies_wrP (k : Fin 8) (v : Bool) : (s.wrP k v).copies = s.copies := rfl
@[simp] theorem marks_wrP (k : Fin 8) (v : Bool) : (s.wrP k v).marks = s.marks := rfl
@[simp] theorem flight_wrP (k : Fin 8) (v : Bool) : (s.wrP k v).flight = s.flight := rfl
@[simp] theorem tokens_wrP (k : Fin 8) (v : Bool) : (s.wrP k v).tokens = s.tokens := rfl
@[simp] theorem bankq_wrP (k : Fin 8) (v : Bool) : (s.wrP k v).bankq = s.bankq := rfl
@[simp] theorem zreqs_wrP (k : Fin 8) (v : Bool) : (s.wrP k v).zreqs = s.zreqs := rfl
@[simp] theorem gen_wrP (k : Fin 8) (v : Bool) : (s.wrP k v).gen = s.gen := rfl
@[simp] theorem bridges_wrP (k : Fin 8) (v : Bool) : (s.wrP k v).bridges = s.bridges := rfl
@[simp] theorem hz_wrP (k : Fin 8) (v : Bool) : (s.wrP k v).hz = s.hz := rfl

@[simp] theorem cur_wrM (k : Fin 8) (v : Word) : (s.wrM k v).cur = s.cur := rfl
@[simp] theorem curWord_wrM (k : Fin 8) (v : Word) : (s.wrM k v).curWord = s.curWord := rfl
@[simp] theorem turns_wrM (k : Fin 8) (v : Word) : (s.wrM k v).turns = s.turns := rfl
@[simp] theorem agenda_wrM (k : Fin 8) (v : Word) : (s.wrM k v).agenda = s.agenda := rfl
@[simp] theorem tape_wrM (k : Fin 8) (v : Word) : (s.wrM k v).tape = s.tape := rfl
@[simp] theorem freeCtr_wrM (k : Fin 8) (v : Word) : (s.wrM k v).freeCtr = s.freeCtr := rfl
@[simp] theorem nextId_wrM (k : Fin 8) (v : Word) : (s.wrM k v).nextId = s.nextId := rfl
@[simp] theorem wseq_wrM (k : Fin 8) (v : Word) : (s.wrM k v).wseq = s.wseq := rfl
@[simp] theorem masters_wrM (k : Fin 8) (v : Word) : (s.wrM k v).masters = s.masters := rfl
@[simp] theorem ctxs_wrM (k : Fin 8) (v : Word) : (s.wrM k v).ctxs = s.ctxs := rfl
@[simp] theorem clusters_wrM (k : Fin 8) (v : Word) : (s.wrM k v).clusters = s.clusters := rfl
@[simp] theorem sectors_wrM (k : Fin 8) (v : Word) : (s.wrM k v).sectors = s.sectors := rfl
@[simp] theorem spad_wrM (k : Fin 8) (v : Word) : (s.wrM k v).spad = s.spad := rfl
@[simp] theorem spadEmpty_wrM (k : Fin 8) (v : Word) : (s.wrM k v).spadEmpty = s.spadEmpty := rfl
@[simp] theorem spadMarks_wrM (k : Fin 8) (v : Word) : (s.wrM k v).spadMarks = s.spadMarks := rfl
@[simp] theorem accs_wrM (k : Fin 8) (v : Word) : (s.wrM k v).accs = s.accs := rfl
@[simp] theorem mem_wrM (k : Fin 8) (v : Word) : (s.wrM k v).mem = s.mem := rfl
@[simp] theorem llc_wrM (k : Fin 8) (v : Word) : (s.wrM k v).llc = s.llc := rfl
@[simp] theorem copies_wrM (k : Fin 8) (v : Word) : (s.wrM k v).copies = s.copies := rfl
@[simp] theorem marks_wrM (k : Fin 8) (v : Word) : (s.wrM k v).marks = s.marks := rfl
@[simp] theorem flight_wrM (k : Fin 8) (v : Word) : (s.wrM k v).flight = s.flight := rfl
@[simp] theorem tokens_wrM (k : Fin 8) (v : Word) : (s.wrM k v).tokens = s.tokens := rfl
@[simp] theorem bankq_wrM (k : Fin 8) (v : Word) : (s.wrM k v).bankq = s.bankq := rfl
@[simp] theorem zreqs_wrM (k : Fin 8) (v : Word) : (s.wrM k v).zreqs = s.zreqs := rfl
@[simp] theorem gen_wrM (k : Fin 8) (v : Word) : (s.wrM k v).gen = s.gen := rfl
@[simp] theorem bridges_wrM (k : Fin 8) (v : Word) : (s.wrM k v).bridges = s.bridges := rfl
@[simp] theorem hz_wrM (k : Fin 8) (v : Word) : (s.wrM k v).hz = s.hz := rfl

@[simp] theorem cur_wrQ (k : Fin 4) (v : BitVec 128) : (s.wrQ k v).cur = s.cur := rfl
@[simp] theorem curWord_wrQ (k : Fin 4) (v : BitVec 128) : (s.wrQ k v).curWord = s.curWord := rfl
@[simp] theorem turns_wrQ (k : Fin 4) (v : BitVec 128) : (s.wrQ k v).turns = s.turns := rfl
@[simp] theorem agenda_wrQ (k : Fin 4) (v : BitVec 128) : (s.wrQ k v).agenda = s.agenda := rfl
@[simp] theorem tape_wrQ (k : Fin 4) (v : BitVec 128) : (s.wrQ k v).tape = s.tape := rfl
@[simp] theorem freeCtr_wrQ (k : Fin 4) (v : BitVec 128) : (s.wrQ k v).freeCtr = s.freeCtr := rfl
@[simp] theorem nextId_wrQ (k : Fin 4) (v : BitVec 128) : (s.wrQ k v).nextId = s.nextId := rfl
@[simp] theorem wseq_wrQ (k : Fin 4) (v : BitVec 128) : (s.wrQ k v).wseq = s.wseq := rfl
@[simp] theorem masters_wrQ (k : Fin 4) (v : BitVec 128) : (s.wrQ k v).masters = s.masters := rfl
@[simp] theorem ctxs_wrQ (k : Fin 4) (v : BitVec 128) : (s.wrQ k v).ctxs = s.ctxs := rfl
@[simp] theorem clusters_wrQ (k : Fin 4) (v : BitVec 128) : (s.wrQ k v).clusters = s.clusters := rfl
@[simp] theorem sectors_wrQ (k : Fin 4) (v : BitVec 128) : (s.wrQ k v).sectors = s.sectors := rfl
@[simp] theorem spad_wrQ (k : Fin 4) (v : BitVec 128) : (s.wrQ k v).spad = s.spad := rfl
@[simp] theorem spadEmpty_wrQ (k : Fin 4) (v : BitVec 128) : (s.wrQ k v).spadEmpty = s.spadEmpty := rfl
@[simp] theorem spadMarks_wrQ (k : Fin 4) (v : BitVec 128) : (s.wrQ k v).spadMarks = s.spadMarks := rfl
@[simp] theorem accs_wrQ (k : Fin 4) (v : BitVec 128) : (s.wrQ k v).accs = s.accs := rfl
@[simp] theorem mem_wrQ (k : Fin 4) (v : BitVec 128) : (s.wrQ k v).mem = s.mem := rfl
@[simp] theorem llc_wrQ (k : Fin 4) (v : BitVec 128) : (s.wrQ k v).llc = s.llc := rfl
@[simp] theorem copies_wrQ (k : Fin 4) (v : BitVec 128) : (s.wrQ k v).copies = s.copies := rfl
@[simp] theorem marks_wrQ (k : Fin 4) (v : BitVec 128) : (s.wrQ k v).marks = s.marks := rfl
@[simp] theorem flight_wrQ (k : Fin 4) (v : BitVec 128) : (s.wrQ k v).flight = s.flight := rfl
@[simp] theorem tokens_wrQ (k : Fin 4) (v : BitVec 128) : (s.wrQ k v).tokens = s.tokens := rfl
@[simp] theorem bankq_wrQ (k : Fin 4) (v : BitVec 128) : (s.wrQ k v).bankq = s.bankq := rfl
@[simp] theorem zreqs_wrQ (k : Fin 4) (v : BitVec 128) : (s.wrQ k v).zreqs = s.zreqs := rfl
@[simp] theorem gen_wrQ (k : Fin 4) (v : BitVec 128) : (s.wrQ k v).gen = s.gen := rfl
@[simp] theorem bridges_wrQ (k : Fin 4) (v : BitVec 128) : (s.wrQ k v).bridges = s.bridges := rfl
@[simp] theorem hz_wrQ (k : Fin 4) (v : BitVec 128) : (s.wrQ k v).hz = s.hz := rfl

@[simp] theorem cur_wrV (r : Fin 16) (v : VReg) : (s.wrV r v).cur = s.cur := rfl
@[simp] theorem curWord_wrV (r : Fin 16) (v : VReg) : (s.wrV r v).curWord = s.curWord := rfl
@[simp] theorem turns_wrV (r : Fin 16) (v : VReg) : (s.wrV r v).turns = s.turns := rfl
@[simp] theorem agenda_wrV (r : Fin 16) (v : VReg) : (s.wrV r v).agenda = s.agenda := rfl
@[simp] theorem tape_wrV (r : Fin 16) (v : VReg) : (s.wrV r v).tape = s.tape := rfl
@[simp] theorem freeCtr_wrV (r : Fin 16) (v : VReg) : (s.wrV r v).freeCtr = s.freeCtr := rfl
@[simp] theorem nextId_wrV (r : Fin 16) (v : VReg) : (s.wrV r v).nextId = s.nextId := rfl
@[simp] theorem wseq_wrV (r : Fin 16) (v : VReg) : (s.wrV r v).wseq = s.wseq := rfl
@[simp] theorem masters_wrV (r : Fin 16) (v : VReg) : (s.wrV r v).masters = s.masters := rfl
@[simp] theorem ctxs_wrV (r : Fin 16) (v : VReg) : (s.wrV r v).ctxs = s.ctxs := rfl
@[simp] theorem clusters_wrV (r : Fin 16) (v : VReg) : (s.wrV r v).clusters = s.clusters := rfl
@[simp] theorem sectors_wrV (r : Fin 16) (v : VReg) : (s.wrV r v).sectors = s.sectors := rfl
@[simp] theorem spad_wrV (r : Fin 16) (v : VReg) : (s.wrV r v).spad = s.spad := rfl
@[simp] theorem spadEmpty_wrV (r : Fin 16) (v : VReg) : (s.wrV r v).spadEmpty = s.spadEmpty := rfl
@[simp] theorem spadMarks_wrV (r : Fin 16) (v : VReg) : (s.wrV r v).spadMarks = s.spadMarks := rfl
@[simp] theorem accs_wrV (r : Fin 16) (v : VReg) : (s.wrV r v).accs = s.accs := rfl
@[simp] theorem mem_wrV (r : Fin 16) (v : VReg) : (s.wrV r v).mem = s.mem := rfl
@[simp] theorem llc_wrV (r : Fin 16) (v : VReg) : (s.wrV r v).llc = s.llc := rfl
@[simp] theorem copies_wrV (r : Fin 16) (v : VReg) : (s.wrV r v).copies = s.copies := rfl
@[simp] theorem marks_wrV (r : Fin 16) (v : VReg) : (s.wrV r v).marks = s.marks := rfl
@[simp] theorem flight_wrV (r : Fin 16) (v : VReg) : (s.wrV r v).flight = s.flight := rfl
@[simp] theorem tokens_wrV (r : Fin 16) (v : VReg) : (s.wrV r v).tokens = s.tokens := rfl
@[simp] theorem bankq_wrV (r : Fin 16) (v : VReg) : (s.wrV r v).bankq = s.bankq := rfl
@[simp] theorem zreqs_wrV (r : Fin 16) (v : VReg) : (s.wrV r v).zreqs = s.zreqs := rfl
@[simp] theorem gen_wrV (r : Fin 16) (v : VReg) : (s.wrV r v).gen = s.gen := rfl
@[simp] theorem bridges_wrV (r : Fin 16) (v : VReg) : (s.wrV r v).bridges = s.bridges := rfl
@[simp] theorem hz_wrV (r : Fin 16) (v : VReg) : (s.wrV r v).hz = s.hz := rfl

@[simp] theorem cur_addFlags (f : Nat) : (s.addFlags f).cur = s.cur := rfl
@[simp] theorem curWord_addFlags (f : Nat) : (s.addFlags f).curWord = s.curWord := rfl
@[simp] theorem turns_addFlags (f : Nat) : (s.addFlags f).turns = s.turns := rfl
@[simp] theorem agenda_addFlags (f : Nat) : (s.addFlags f).agenda = s.agenda := rfl
@[simp] theorem tape_addFlags (f : Nat) : (s.addFlags f).tape = s.tape := rfl
@[simp] theorem freeCtr_addFlags (f : Nat) : (s.addFlags f).freeCtr = s.freeCtr := rfl
@[simp] theorem nextId_addFlags (f : Nat) : (s.addFlags f).nextId = s.nextId := rfl
@[simp] theorem wseq_addFlags (f : Nat) : (s.addFlags f).wseq = s.wseq := rfl
@[simp] theorem masters_addFlags (f : Nat) : (s.addFlags f).masters = s.masters := rfl
@[simp] theorem ctxs_addFlags (f : Nat) : (s.addFlags f).ctxs = s.ctxs := rfl
@[simp] theorem clusters_addFlags (f : Nat) : (s.addFlags f).clusters = s.clusters := rfl
@[simp] theorem sectors_addFlags (f : Nat) : (s.addFlags f).sectors = s.sectors := rfl
@[simp] theorem spad_addFlags (f : Nat) : (s.addFlags f).spad = s.spad := rfl
@[simp] theorem spadEmpty_addFlags (f : Nat) : (s.addFlags f).spadEmpty = s.spadEmpty := rfl
@[simp] theorem spadMarks_addFlags (f : Nat) : (s.addFlags f).spadMarks = s.spadMarks := rfl
@[simp] theorem accs_addFlags (f : Nat) : (s.addFlags f).accs = s.accs := rfl
@[simp] theorem mem_addFlags (f : Nat) : (s.addFlags f).mem = s.mem := rfl
@[simp] theorem llc_addFlags (f : Nat) : (s.addFlags f).llc = s.llc := rfl
@[simp] theorem copies_addFlags (f : Nat) : (s.addFlags f).copies = s.copies := rfl
@[simp] theorem marks_addFlags (f : Nat) : (s.addFlags f).marks = s.marks := rfl
@[simp] theorem flight_addFlags (f : Nat) : (s.addFlags f).flight = s.flight := rfl
@[simp] theorem tokens_addFlags (f : Nat) : (s.addFlags f).tokens = s.tokens := rfl
@[simp] theorem bankq_addFlags (f : Nat) : (s.addFlags f).bankq = s.bankq := rfl
@[simp] theorem zreqs_addFlags (f : Nat) : (s.addFlags f).zreqs = s.zreqs := rfl
@[simp] theorem gen_addFlags (f : Nat) : (s.addFlags f).gen = s.gen := rfl
@[simp] theorem bridges_addFlags (f : Nat) : (s.addFlags f).bridges = s.bridges := rfl
@[simp] theorem hz_addFlags (f : Nat) : (s.addFlags f).hz = s.hz := rfl

@[simp] theorem cur_claimS (r : Fin 16) : (s.claimS r).cur = s.cur := rfl
@[simp] theorem curWord_claimS (r : Fin 16) : (s.claimS r).curWord = s.curWord := rfl
@[simp] theorem turns_claimS (r : Fin 16) : (s.claimS r).turns = s.turns := rfl
@[simp] theorem agenda_claimS (r : Fin 16) : (s.claimS r).agenda = s.agenda := rfl
@[simp] theorem tape_claimS (r : Fin 16) : (s.claimS r).tape = s.tape := rfl
@[simp] theorem freeCtr_claimS (r : Fin 16) : (s.claimS r).freeCtr = s.freeCtr := rfl
@[simp] theorem nextId_claimS (r : Fin 16) : (s.claimS r).nextId = s.nextId := rfl
@[simp] theorem wseq_claimS (r : Fin 16) : (s.claimS r).wseq = s.wseq := rfl
@[simp] theorem masters_claimS (r : Fin 16) : (s.claimS r).masters = s.masters := rfl
@[simp] theorem ctxs_claimS (r : Fin 16) : (s.claimS r).ctxs = s.ctxs := rfl
@[simp] theorem clusters_claimS (r : Fin 16) : (s.claimS r).clusters = s.clusters := rfl
@[simp] theorem sectors_claimS (r : Fin 16) : (s.claimS r).sectors = s.sectors := rfl
@[simp] theorem spad_claimS (r : Fin 16) : (s.claimS r).spad = s.spad := rfl
@[simp] theorem spadEmpty_claimS (r : Fin 16) : (s.claimS r).spadEmpty = s.spadEmpty := rfl
@[simp] theorem spadMarks_claimS (r : Fin 16) : (s.claimS r).spadMarks = s.spadMarks := rfl
@[simp] theorem accs_claimS (r : Fin 16) : (s.claimS r).accs = s.accs := rfl
@[simp] theorem mem_claimS (r : Fin 16) : (s.claimS r).mem = s.mem := rfl
@[simp] theorem llc_claimS (r : Fin 16) : (s.claimS r).llc = s.llc := rfl
@[simp] theorem copies_claimS (r : Fin 16) : (s.claimS r).copies = s.copies := rfl
@[simp] theorem marks_claimS (r : Fin 16) : (s.claimS r).marks = s.marks := rfl
@[simp] theorem flight_claimS (r : Fin 16) : (s.claimS r).flight = s.flight := rfl
@[simp] theorem tokens_claimS (r : Fin 16) : (s.claimS r).tokens = s.tokens := rfl
@[simp] theorem bankq_claimS (r : Fin 16) : (s.claimS r).bankq = s.bankq := rfl
@[simp] theorem zreqs_claimS (r : Fin 16) : (s.claimS r).zreqs = s.zreqs := rfl
@[simp] theorem gen_claimS (r : Fin 16) : (s.claimS r).gen = s.gen := rfl
@[simp] theorem bridges_claimS (r : Fin 16) : (s.claimS r).bridges = s.bridges := rfl
@[simp] theorem hz_claimS (r : Fin 16) : (s.claimS r).hz = s.hz := rfl

/-- Posting a due step changes the agenda alone. -/
theorem post_eq (d : Due) : s.post d = { s with agenda := (s.post d).agenda } := by
  unfold State.post; split <;> rfl

@[simp] theorem cur_post (d : Due) : (s.post d).cur = s.cur := by rw [post_eq]
@[simp] theorem curWord_post (d : Due) : (s.post d).curWord = s.curWord := by rw [post_eq]
@[simp] theorem turns_post (d : Due) : (s.post d).turns = s.turns := by rw [post_eq]
@[simp] theorem tape_post (d : Due) : (s.post d).tape = s.tape := by rw [post_eq]
@[simp] theorem freeCtr_post (d : Due) : (s.post d).freeCtr = s.freeCtr := by rw [post_eq]
@[simp] theorem nextId_post (d : Due) : (s.post d).nextId = s.nextId := by rw [post_eq]
@[simp] theorem wseq_post (d : Due) : (s.post d).wseq = s.wseq := by rw [post_eq]
@[simp] theorem harts_post (d : Due) : (s.post d).harts = s.harts := by rw [post_eq]
@[simp] theorem masters_post (d : Due) : (s.post d).masters = s.masters := by rw [post_eq]
@[simp] theorem ctxs_post (d : Due) : (s.post d).ctxs = s.ctxs := by rw [post_eq]
@[simp] theorem clusters_post (d : Due) : (s.post d).clusters = s.clusters := by rw [post_eq]
@[simp] theorem sectors_post (d : Due) : (s.post d).sectors = s.sectors := by rw [post_eq]
@[simp] theorem spad_post (d : Due) : (s.post d).spad = s.spad := by rw [post_eq]
@[simp] theorem spadEmpty_post (d : Due) : (s.post d).spadEmpty = s.spadEmpty := by rw [post_eq]
@[simp] theorem spadMarks_post (d : Due) : (s.post d).spadMarks = s.spadMarks := by rw [post_eq]
@[simp] theorem accs_post (d : Due) : (s.post d).accs = s.accs := by rw [post_eq]
@[simp] theorem mem_post (d : Due) : (s.post d).mem = s.mem := by rw [post_eq]
@[simp] theorem llc_post (d : Due) : (s.post d).llc = s.llc := by rw [post_eq]
@[simp] theorem copies_post (d : Due) : (s.post d).copies = s.copies := by rw [post_eq]
@[simp] theorem marks_post (d : Due) : (s.post d).marks = s.marks := by rw [post_eq]
@[simp] theorem flight_post (d : Due) : (s.post d).flight = s.flight := by rw [post_eq]
@[simp] theorem tokens_post (d : Due) : (s.post d).tokens = s.tokens := by rw [post_eq]
@[simp] theorem bankq_post (d : Due) : (s.post d).bankq = s.bankq := by rw [post_eq]
@[simp] theorem zreqs_post (d : Due) : (s.post d).zreqs = s.zreqs := by rw [post_eq]
@[simp] theorem gen_post (d : Due) : (s.post d).gen = s.gen := by rw [post_eq]
@[simp] theorem bridges_post (d : Due) : (s.post d).bridges = s.bridges := by rw [post_eq]
@[simp] theorem hz_post (d : Due) : (s.post d).hz = s.hz := by rw [post_eq]
@[simp] theorem master_setHart_other (g : Agent) (h : Hart) (x₁ : Sec) (n₁ : Fin 16) : (s.setHart g h).master x₁ n₁ = s.master x₁ n₁ := rfl
@[simp] theorem ctx_setHart_other (g : Agent) (h : Hart) (x₁ : Sec) (i₁ : Nat) : (s.setHart g h).ctx x₁ i₁ = s.ctx x₁ i₁ := rfl
@[simp] theorem cluster_setHart_other (g : Agent) (h : Hart) (x₁ : Sec) (cl₁ : Fin 96) : (s.setHart g h).cluster x₁ cl₁ = s.cluster x₁ cl₁ := rfl
@[simp] theorem sec_setHart_other (g : Agent) (h : Hart) (x₁ : Sec) : (s.setHart g h).sec x₁ = s.sec x₁ := rfl
@[simp] theorem hart_setMaster_other (x : Sec) (n : Fin 16) (m : Master) (g₁ : Agent) : (s.setMaster x n m).hart g₁ = s.hart g₁ := rfl
@[simp] theorem ctx_setMaster_other (x : Sec) (n : Fin 16) (m : Master) (x₁ : Sec) (i₁ : Nat) : (s.setMaster x n m).ctx x₁ i₁ = s.ctx x₁ i₁ := rfl
@[simp] theorem cluster_setMaster_other (x : Sec) (n : Fin 16) (m : Master) (x₁ : Sec) (cl₁ : Fin 96) : (s.setMaster x n m).cluster x₁ cl₁ = s.cluster x₁ cl₁ := rfl
@[simp] theorem sec_setMaster_other (x : Sec) (n : Fin 16) (m : Master) (x₁ : Sec) : (s.setMaster x n m).sec x₁ = s.sec x₁ := rfl
@[simp] theorem hart_setCtx_other (x : Sec) (i : Nat) (c : Ctx) (g₁ : Agent) : (s.setCtx x i c).hart g₁ = s.hart g₁ := rfl
@[simp] theorem master_setCtx_other (x : Sec) (i : Nat) (c : Ctx) (x₁ : Sec) (n₁ : Fin 16) : (s.setCtx x i c).master x₁ n₁ = s.master x₁ n₁ := rfl
@[simp] theorem cluster_setCtx_other (x : Sec) (i : Nat) (c : Ctx) (x₁ : Sec) (cl₁ : Fin 96) : (s.setCtx x i c).cluster x₁ cl₁ = s.cluster x₁ cl₁ := rfl
@[simp] theorem sec_setCtx_other (x : Sec) (i : Nat) (c : Ctx) (x₁ : Sec) : (s.setCtx x i c).sec x₁ = s.sec x₁ := rfl
@[simp] theorem hart_setCluster_other (x : Sec) (cl : Fin 96) (c : Cluster) (g₁ : Agent) : (s.setCluster x cl c).hart g₁ = s.hart g₁ := rfl
@[simp] theorem master_setCluster_other (x : Sec) (cl : Fin 96) (c : Cluster) (x₁ : Sec) (n₁ : Fin 16) : (s.setCluster x cl c).master x₁ n₁ = s.master x₁ n₁ := rfl
@[simp] theorem ctx_setCluster_other (x : Sec) (cl : Fin 96) (c : Cluster) (x₁ : Sec) (i₁ : Nat) : (s.setCluster x cl c).ctx x₁ i₁ = s.ctx x₁ i₁ := rfl
@[simp] theorem sec_setCluster_other (x : Sec) (cl : Fin 96) (c : Cluster) (x₁ : Sec) : (s.setCluster x cl c).sec x₁ = s.sec x₁ := rfl
@[simp] theorem hart_setSec_other (x : Sec) (c : Sector) (g₁ : Agent) : (s.setSec x c).hart g₁ = s.hart g₁ := rfl
@[simp] theorem master_setSec_other (x : Sec) (c : Sector) (x₁ : Sec) (n₁ : Fin 16) : (s.setSec x c).master x₁ n₁ = s.master x₁ n₁ := rfl
@[simp] theorem ctx_setSec_other (x : Sec) (c : Sector) (x₁ : Sec) (i₁ : Nat) : (s.setSec x c).ctx x₁ i₁ = s.ctx x₁ i₁ := rfl
@[simp] theorem cluster_setSec_other (x : Sec) (c : Sector) (x₁ : Sec) (cl₁ : Fin 96) : (s.setSec x c).cluster x₁ cl₁ = s.cluster x₁ cl₁ := rfl
@[simp] theorem master_modHart_other (g : Agent) (f : Hart → Hart) (x₁ : Sec) (n₁ : Fin 16) : (s.modHart g f).master x₁ n₁ = s.master x₁ n₁ := rfl
@[simp] theorem ctx_modHart_other (g : Agent) (f : Hart → Hart) (x₁ : Sec) (i₁ : Nat) : (s.modHart g f).ctx x₁ i₁ = s.ctx x₁ i₁ := rfl
@[simp] theorem cluster_modHart_other (g : Agent) (f : Hart → Hart) (x₁ : Sec) (cl₁ : Fin 96) : (s.modHart g f).cluster x₁ cl₁ = s.cluster x₁ cl₁ := rfl
@[simp] theorem sec_modHart_other (g : Agent) (f : Hart → Hart) (x₁ : Sec) : (s.modHart g f).sec x₁ = s.sec x₁ := rfl
@[simp] theorem master_modMe_other (f : Hart → Hart) (x₁ : Sec) (n₁ : Fin 16) : (s.modMe f).master x₁ n₁ = s.master x₁ n₁ := rfl
@[simp] theorem ctx_modMe_other (f : Hart → Hart) (x₁ : Sec) (i₁ : Nat) : (s.modMe f).ctx x₁ i₁ = s.ctx x₁ i₁ := rfl
@[simp] theorem cluster_modMe_other (f : Hart → Hart) (x₁ : Sec) (cl₁ : Fin 96) : (s.modMe f).cluster x₁ cl₁ = s.cluster x₁ cl₁ := rfl
@[simp] theorem sec_modMe_other (f : Hart → Hart) (x₁ : Sec) : (s.modMe f).sec x₁ = s.sec x₁ := rfl
@[simp] theorem hart_modMaster_other (x : Sec) (n : Fin 16) (f : Master → Master) (g₁ : Agent) : (s.modMaster x n f).hart g₁ = s.hart g₁ := rfl
@[simp] theorem ctx_modMaster_other (x : Sec) (n : Fin 16) (f : Master → Master) (x₁ : Sec) (i₁ : Nat) : (s.modMaster x n f).ctx x₁ i₁ = s.ctx x₁ i₁ := rfl
@[simp] theorem cluster_modMaster_other (x : Sec) (n : Fin 16) (f : Master → Master) (x₁ : Sec) (cl₁ : Fin 96) : (s.modMaster x n f).cluster x₁ cl₁ = s.cluster x₁ cl₁ := rfl
@[simp] theorem sec_modMaster_other (x : Sec) (n : Fin 16) (f : Master → Master) (x₁ : Sec) : (s.modMaster x n f).sec x₁ = s.sec x₁ := rfl
@[simp] theorem hart_modCtx_other (x : Sec) (i : Nat) (f : Ctx → Ctx) (g₁ : Agent) : (s.modCtx x i f).hart g₁ = s.hart g₁ := rfl
@[simp] theorem master_modCtx_other (x : Sec) (i : Nat) (f : Ctx → Ctx) (x₁ : Sec) (n₁ : Fin 16) : (s.modCtx x i f).master x₁ n₁ = s.master x₁ n₁ := rfl
@[simp] theorem cluster_modCtx_other (x : Sec) (i : Nat) (f : Ctx → Ctx) (x₁ : Sec) (cl₁ : Fin 96) : (s.modCtx x i f).cluster x₁ cl₁ = s.cluster x₁ cl₁ := rfl
@[simp] theorem sec_modCtx_other (x : Sec) (i : Nat) (f : Ctx → Ctx) (x₁ : Sec) : (s.modCtx x i f).sec x₁ = s.sec x₁ := rfl
@[simp] theorem hart_modCluster_other (x : Sec) (cl : Fin 96) (f : Cluster → Cluster) (g₁ : Agent) : (s.modCluster x cl f).hart g₁ = s.hart g₁ := rfl
@[simp] theorem master_modCluster_other (x : Sec) (cl : Fin 96) (f : Cluster → Cluster) (x₁ : Sec) (n₁ : Fin 16) : (s.modCluster x cl f).master x₁ n₁ = s.master x₁ n₁ := rfl
@[simp] theorem ctx_modCluster_other (x : Sec) (cl : Fin 96) (f : Cluster → Cluster) (x₁ : Sec) (i₁ : Nat) : (s.modCluster x cl f).ctx x₁ i₁ = s.ctx x₁ i₁ := rfl
@[simp] theorem sec_modCluster_other (x : Sec) (cl : Fin 96) (f : Cluster → Cluster) (x₁ : Sec) : (s.modCluster x cl f).sec x₁ = s.sec x₁ := rfl
@[simp] theorem hart_modCore_other (x : Sec) (cl : Fin 96) (co : Fin 8) (f : CoreSt → CoreSt) (g₁ : Agent) : (s.modCore x cl co f).hart g₁ = s.hart g₁ := rfl
@[simp] theorem master_modCore_other (x : Sec) (cl : Fin 96) (co : Fin 8) (f : CoreSt → CoreSt) (x₁ : Sec) (n₁ : Fin 16) : (s.modCore x cl co f).master x₁ n₁ = s.master x₁ n₁ := rfl
@[simp] theorem ctx_modCore_other (x : Sec) (cl : Fin 96) (co : Fin 8) (f : CoreSt → CoreSt) (x₁ : Sec) (i₁ : Nat) : (s.modCore x cl co f).ctx x₁ i₁ = s.ctx x₁ i₁ := rfl
@[simp] theorem sec_modCore_other (x : Sec) (cl : Fin 96) (co : Fin 8) (f : CoreSt → CoreSt) (x₁ : Sec) : (s.modCore x cl co f).sec x₁ = s.sec x₁ := rfl
@[simp] theorem hart_modSec_other (x : Sec) (f : Sector → Sector) (g₁ : Agent) : (s.modSec x f).hart g₁ = s.hart g₁ := rfl
@[simp] theorem master_modSec_other (x : Sec) (f : Sector → Sector) (x₁ : Sec) (n₁ : Fin 16) : (s.modSec x f).master x₁ n₁ = s.master x₁ n₁ := rfl
@[simp] theorem ctx_modSec_other (x : Sec) (f : Sector → Sector) (x₁ : Sec) (i₁ : Nat) : (s.modSec x f).ctx x₁ i₁ = s.ctx x₁ i₁ := rfl
@[simp] theorem cluster_modSec_other (x : Sec) (f : Sector → Sector) (x₁ : Sec) (cl₁ : Fin 96) : (s.modSec x f).cluster x₁ cl₁ = s.cluster x₁ cl₁ := rfl
@[simp] theorem hart_modInst_other (x : Sec) (u : Nat) (f : Inst → Inst) (g₁ : Agent) : (s.modInst x u f).hart g₁ = s.hart g₁ := rfl
@[simp] theorem master_modInst_other (x : Sec) (u : Nat) (f : Inst → Inst) (x₁ : Sec) (n₁ : Fin 16) : (s.modInst x u f).master x₁ n₁ = s.master x₁ n₁ := rfl
@[simp] theorem ctx_modInst_other (x : Sec) (u : Nat) (f : Inst → Inst) (x₁ : Sec) (i₁ : Nat) : (s.modInst x u f).ctx x₁ i₁ = s.ctx x₁ i₁ := rfl
@[simp] theorem cluster_modInst_other (x : Sec) (u : Nat) (f : Inst → Inst) (x₁ : Sec) (cl₁ : Fin 96) : (s.modInst x u f).cluster x₁ cl₁ = s.cluster x₁ cl₁ := rfl
@[simp] theorem hart_fresh_other (g₁ : Agent) : (s.fresh).hart g₁ = s.hart g₁ := rfl
@[simp] theorem master_fresh_other (x₁ : Sec) (n₁ : Fin 16) : (s.fresh).master x₁ n₁ = s.master x₁ n₁ := rfl
@[simp] theorem ctx_fresh_other (x₁ : Sec) (i₁ : Nat) : (s.fresh).ctx x₁ i₁ = s.ctx x₁ i₁ := rfl
@[simp] theorem cluster_fresh_other (x₁ : Sec) (cl₁ : Fin 96) : (s.fresh).cluster x₁ cl₁ = s.cluster x₁ cl₁ := rfl
@[simp] theorem sec_fresh_other (x₁ : Sec) : (s.fresh).sec x₁ = s.sec x₁ := rfl
@[simp] theorem hart_postFront_other (d : Due) (g₁ : Agent) : (s.postFront d).hart g₁ = s.hart g₁ := rfl
@[simp] theorem master_postFront_other (d : Due) (x₁ : Sec) (n₁ : Fin 16) : (s.postFront d).master x₁ n₁ = s.master x₁ n₁ := rfl
@[simp] theorem ctx_postFront_other (d : Due) (x₁ : Sec) (i₁ : Nat) : (s.postFront d).ctx x₁ i₁ = s.ctx x₁ i₁ := rfl
@[simp] theorem cluster_postFront_other (d : Due) (x₁ : Sec) (cl₁ : Fin 96) : (s.postFront d).cluster x₁ cl₁ = s.cluster x₁ cl₁ := rfl
@[simp] theorem sec_postFront_other (d : Due) (x₁ : Sec) : (s.postFront d).sec x₁ = s.sec x₁ := rfl
@[simp] theorem master_wrS_other (r : Fin 16) (v : Word) (x₁ : Sec) (n₁ : Fin 16) : (s.wrS r v).master x₁ n₁ = s.master x₁ n₁ := rfl
@[simp] theorem ctx_wrS_other (r : Fin 16) (v : Word) (x₁ : Sec) (i₁ : Nat) : (s.wrS r v).ctx x₁ i₁ = s.ctx x₁ i₁ := rfl
@[simp] theorem cluster_wrS_other (r : Fin 16) (v : Word) (x₁ : Sec) (cl₁ : Fin 96) : (s.wrS r v).cluster x₁ cl₁ = s.cluster x₁ cl₁ := rfl
@[simp] theorem sec_wrS_other (r : Fin 16) (v : Word) (x₁ : Sec) : (s.wrS r v).sec x₁ = s.sec x₁ := rfl
@[simp] theorem master_wrP_other (k : Fin 8) (v : Bool) (x₁ : Sec) (n₁ : Fin 16) : (s.wrP k v).master x₁ n₁ = s.master x₁ n₁ := rfl
@[simp] theorem ctx_wrP_other (k : Fin 8) (v : Bool) (x₁ : Sec) (i₁ : Nat) : (s.wrP k v).ctx x₁ i₁ = s.ctx x₁ i₁ := rfl
@[simp] theorem cluster_wrP_other (k : Fin 8) (v : Bool) (x₁ : Sec) (cl₁ : Fin 96) : (s.wrP k v).cluster x₁ cl₁ = s.cluster x₁ cl₁ := rfl
@[simp] theorem sec_wrP_other (k : Fin 8) (v : Bool) (x₁ : Sec) : (s.wrP k v).sec x₁ = s.sec x₁ := rfl
@[simp] theorem master_wrM_other (k : Fin 8) (v : Word) (x₁ : Sec) (n₁ : Fin 16) : (s.wrM k v).master x₁ n₁ = s.master x₁ n₁ := rfl
@[simp] theorem ctx_wrM_other (k : Fin 8) (v : Word) (x₁ : Sec) (i₁ : Nat) : (s.wrM k v).ctx x₁ i₁ = s.ctx x₁ i₁ := rfl
@[simp] theorem cluster_wrM_other (k : Fin 8) (v : Word) (x₁ : Sec) (cl₁ : Fin 96) : (s.wrM k v).cluster x₁ cl₁ = s.cluster x₁ cl₁ := rfl
@[simp] theorem sec_wrM_other (k : Fin 8) (v : Word) (x₁ : Sec) : (s.wrM k v).sec x₁ = s.sec x₁ := rfl
@[simp] theorem master_wrQ_other (k : Fin 4) (v : BitVec 128) (x₁ : Sec) (n₁ : Fin 16) : (s.wrQ k v).master x₁ n₁ = s.master x₁ n₁ := rfl
@[simp] theorem ctx_wrQ_other (k : Fin 4) (v : BitVec 128) (x₁ : Sec) (i₁ : Nat) : (s.wrQ k v).ctx x₁ i₁ = s.ctx x₁ i₁ := rfl
@[simp] theorem cluster_wrQ_other (k : Fin 4) (v : BitVec 128) (x₁ : Sec) (cl₁ : Fin 96) : (s.wrQ k v).cluster x₁ cl₁ = s.cluster x₁ cl₁ := rfl
@[simp] theorem sec_wrQ_other (k : Fin 4) (v : BitVec 128) (x₁ : Sec) : (s.wrQ k v).sec x₁ = s.sec x₁ := rfl
@[simp] theorem master_wrV_other (r : Fin 16) (v : VReg) (x₁ : Sec) (n₁ : Fin 16) : (s.wrV r v).master x₁ n₁ = s.master x₁ n₁ := rfl
@[simp] theorem ctx_wrV_other (r : Fin 16) (v : VReg) (x₁ : Sec) (i₁ : Nat) : (s.wrV r v).ctx x₁ i₁ = s.ctx x₁ i₁ := rfl
@[simp] theorem cluster_wrV_other (r : Fin 16) (v : VReg) (x₁ : Sec) (cl₁ : Fin 96) : (s.wrV r v).cluster x₁ cl₁ = s.cluster x₁ cl₁ := rfl
@[simp] theorem sec_wrV_other (r : Fin 16) (v : VReg) (x₁ : Sec) : (s.wrV r v).sec x₁ = s.sec x₁ := rfl
@[simp] theorem master_addFlags_other (f : Nat) (x₁ : Sec) (n₁ : Fin 16) : (s.addFlags f).master x₁ n₁ = s.master x₁ n₁ := rfl
@[simp] theorem ctx_addFlags_other (f : Nat) (x₁ : Sec) (i₁ : Nat) : (s.addFlags f).ctx x₁ i₁ = s.ctx x₁ i₁ := rfl
@[simp] theorem cluster_addFlags_other (f : Nat) (x₁ : Sec) (cl₁ : Fin 96) : (s.addFlags f).cluster x₁ cl₁ = s.cluster x₁ cl₁ := rfl
@[simp] theorem sec_addFlags_other (f : Nat) (x₁ : Sec) : (s.addFlags f).sec x₁ = s.sec x₁ := rfl
@[simp] theorem master_claimS_other (r : Fin 16) (x₁ : Sec) (n₁ : Fin 16) : (s.claimS r).master x₁ n₁ = s.master x₁ n₁ := rfl
@[simp] theorem ctx_claimS_other (r : Fin 16) (x₁ : Sec) (i₁ : Nat) : (s.claimS r).ctx x₁ i₁ = s.ctx x₁ i₁ := rfl
@[simp] theorem cluster_claimS_other (r : Fin 16) (x₁ : Sec) (cl₁ : Fin 96) : (s.claimS r).cluster x₁ cl₁ = s.cluster x₁ cl₁ := rfl
@[simp] theorem sec_claimS_other (r : Fin 16) (x₁ : Sec) : (s.claimS r).sec x₁ = s.sec x₁ := rfl
@[simp] theorem hart_post_other (d : Due) (g₁ : Agent) : (s.post d).hart g₁ = s.hart g₁ := by rw [post_eq]; rfl
@[simp] theorem master_post_other (d : Due) (x₁ : Sec) (n₁ : Fin 16) : (s.post d).master x₁ n₁ = s.master x₁ n₁ := by rw [post_eq]; rfl
@[simp] theorem ctx_post_other (d : Due) (x₁ : Sec) (i₁ : Nat) : (s.post d).ctx x₁ i₁ = s.ctx x₁ i₁ := by rw [post_eq]; rfl
@[simp] theorem cluster_post_other (d : Due) (x₁ : Sec) (cl₁ : Fin 96) : (s.post d).cluster x₁ cl₁ = s.cluster x₁ cl₁ := by rw [post_eq]; rfl
@[simp] theorem sec_post_other (d : Due) (x₁ : Sec) : (s.post d).sec x₁ = s.sec x₁ := by rw [post_eq]; rfl

/-! ## Accessors after an update -/

theorem vector_get_set {α : Type} {n : Nat} (v : Vector α n) (i : Fin n) (a : α) :
    (v.set i.val a i.isLt).get i = a := by
  show (v.set i.val a i.isLt)[i.val] = a
  exact Vector.getElem_set_self ..

theorem vector_get_set_ne {α : Type} {n : Nat} (v : Vector α n) {i j : Fin n} (a : α) (h : j ≠ i) :
    (v.set i.val a i.isLt).get j = v.get j := by
  show (v.set i.val a i.isLt)[j.val] = v[j.val]
  exact Vector.getElem_set_ne _ _ fun e => h (Fin.ext e.symm)

theorem agentKey_injective {g g' : Agent} (h : agentKey g = agentKey g') : g = g' := by
  cases g with
  | thread x i =>
    cases g' with
    | thread y j =>
      simp only [agentKey] at h
      obtain ⟨hx, hi⟩ : x = y ∧ i = j := by constructor <;> (apply Fin.ext; omega)
      rw [hx, hi]
    | master y m => simp only [agentKey] at h; omega
  | master x n =>
    cases g' with
    | thread y j => simp only [agentKey] at h; omega
    | master y m =>
      simp only [agentKey] at h
      obtain ⟨hx, hn⟩ : x = y ∧ n = m := by constructor <;> (apply Fin.ext; omega)
      rw [hx, hn]

@[simp] theorem hart_setHart (g : Agent) (h : Hart) : (s.setHart g h).hart g = h := Laws.get_put_same _ _ _ _

theorem hart_setHart_ne {g g' : Agent} (h : Hart) (hg : g' ≠ g) : (s.setHart g h).hart g' = s.hart g' :=
  Laws.get_put_ne _ _ _ _ fun e => hg (agentKey_injective e)

@[simp] theorem hart_modHart (g : Agent) (f : Hart → Hart) : (s.modHart g f).hart g = f (s.hart g) := hart_setHart ..

theorem hart_modHart_ne {g g' : Agent} (f : Hart → Hart) (hg : g' ≠ g) : (s.modHart g f).hart g' = s.hart g' :=
  hart_setHart_ne _ _ hg

theorem me_def : s.me = s.hart s.cur := rfl

@[simp] theorem me_modMe (f : Hart → Hart) : (s.modMe f).me = f s.me := hart_setHart ..

@[simp] theorem master_setMaster (x : Sec) (n : Fin 16) (m : Master) : (s.setMaster x n m).master x n = m :=
  Laws.get_put_same _ _ _ _

@[simp] theorem master_modMaster (x : Sec) (n : Fin 16) (f : Master → Master) :
    (s.modMaster x n f).master x n = f (s.master x n) := Laws.get_put_same _ _ _ _

@[simp] theorem ctx_setCtx (x : Sec) (i : Nat) (c : Ctx) : (s.setCtx x i c).ctx x i = c := Laws.get_put_same _ _ _ _

@[simp] theorem ctx_modCtx (x : Sec) (i : Nat) (f : Ctx → Ctx) : (s.modCtx x i f).ctx x i = f (s.ctx x i) :=
  Laws.get_put_same _ _ _ _

@[simp] theorem cluster_setCluster (x : Sec) (cl : Fin 96) (c : Cluster) : (s.setCluster x cl c).cluster x cl = c :=
  Laws.get_put_same _ _ _ _

@[simp] theorem cluster_modCluster (x : Sec) (cl : Fin 96) (f : Cluster → Cluster) :
    (s.modCluster x cl f).cluster x cl = f (s.cluster x cl) := Laws.get_put_same _ _ _ _

@[simp] theorem sec_setSec (x : Sec) (c : Sector) : (s.setSec x c).sec x = c := vector_get_set ..

@[simp] theorem sec_modSec (x : Sec) (f : Sector → Sector) : (s.modSec x f).sec x = f (s.sec x) := sec_setSec ..

theorem sec_setSec_ne {x y : Sec} (c : Sector) (h : y ≠ x) : (s.setSec x c).sec y = s.sec y := vector_get_set_ne _ _ h

/-! ## Registers after a write (R12, R13) -/

/-- The register that was written is full and holds the value. -/
@[simp] theorem Hart.putS_same (h : Hart) (r : Fin 16) (v : Word) : (h.putS r v).s.get r = ⟨v, true, false⟩ := vector_get_set ..

/-- Every other s register is as it was. -/
theorem Hart.putS_ne (h : Hart) {r r' : Fin 16} (v : Word) (hr : r' ≠ r) : (h.putS r v).s.get r' = h.s.get r' :=
  vector_get_set_ne _ _ hr

/-- A write to p0 is discarded. -/
@[simp] theorem Hart.putP_zero (h : Hart) (b : Bool) : h.putP 0 b = h := rfl

theorem Hart.putP_same (h : Hart) {k : Fin 8} (b : Bool) (hk : k ≠ 0) : (h.putP k b).p.get k = b := by
  rw [Hart.putP, if_neg hk]; exact vector_get_set ..

theorem Hart.putP_ne (h : Hart) {k k' : Fin 8} (b : Bool) (hk : k' ≠ k) : (h.putP k b).p.get k' = h.p.get k' := by
  unfold Hart.putP
  split
  · rfl
  · exact vector_get_set_ne _ _ hk

/-- A write to m0 is discarded. -/
@[simp] theorem Hart.putM_zero (h : Hart) (v : Word) : h.putM 0 v = h := rfl

theorem Hart.putM_same (h : Hart) {k : Fin 8} (v : Word) (hk : k ≠ 0) : (h.putM k v).m.get k = ⟨v, false⟩ := by
  rw [Hart.putM, if_neg hk]; exact vector_get_set ..

@[simp] theorem Hart.putV_same (h : Hart) (r : Fin 16) (v : VReg) : (h.putV r v).v.get r = v := vector_get_set ..

@[simp] theorem me_wrS (r : Fin 16) (v : Word) : (s.wrS r v).me = s.me.putS r v := me_modMe ..
@[simp] theorem me_wrP (k : Fin 8) (b : Bool) : (s.wrP k b).me = s.me.putP k b := me_modMe ..
@[simp] theorem me_wrM (k : Fin 8) (v : Word) : (s.wrM k v).me = s.me.putM k v := me_modMe ..
@[simp] theorem me_wrV (r : Fin 16) (v : VReg) : (s.wrV r v).me = s.me.putV r v := me_modMe ..

end Sys2Proof.Machine
end

