-- ==== Sys2Proof/Laws/Memory.lean ====
section
/-! SUPPORT. The laws of memory: a byte reads what was written last, every other byte reads as before, and every memory
operation keeps the canonical form. -/

namespace Sys2Proof.Machine

variable (s : State)

/-! ## Operations that leave physical memory -/

@[simp] theorem mem_setLine (k : Nat) (l : Option Line) : (s.setLine k l).mem = s.mem := rfl
@[simp] theorem mem_setCopies (k : Nat) (cs : List Copy) : (s.setCopies k cs).mem = s.mem := rfl
@[simp] theorem mem_setPoison (x : Sec) (pa : Nat) (b : Bool) : (s.setPoison x pa b).mem = s.mem := rfl
@[simp] theorem mem_tlbFill (x : Sec) (a : BitVec 16) (va : Nat) (t : Tlb) : (s.tlbFill x a va t).mem = s.mem := rfl
@[simp] theorem mem_walkerFill (x : Sec) (a : BitVec 16) (va : Nat) (es : List (Nat × Nat)) :
    (s.walkerFill x a va es).mem = s.mem := rfl
@[simp] theorem mem_logOld (x : Sec) (a : BitVec 16) (va : Nat) (o : List Byte) : (s.logOld x a va o).mem = s.mem := rfl

@[simp] theorem mem_dropCopies (k : Nat) : (s.dropCopies k).mem = s.mem := by
  unfold State.dropCopies; split <;> rfl

@[simp] theorem mem_irq (x : Sec) (n : Fin 16) (sub : Nat) (a : Word) : (s.irq x n sub a).mem = s.mem := by
  unfold State.irq; split <;> simp

@[simp] theorem mem_irqSector (x : Sec) (sub : Nat) (a : Word) : (s.irqSector x sub a).mem = s.mem := by
  unfold State.irqSector; split <;> simp

/-- A fold of steps that each leave a component of the state leaves it. -/
theorem foldl_keeps {α β : Type} (p : State → β) (f : State → α → State) (h : ∀ s a, p (f s a) = p s) (l : List α) :
    ∀ s, p (l.foldl f s) = p s := by
  induction l with
  | nil => intro s; rfl
  | cons a l ih => intro s; rw [List.foldl_cons, ih, h]

/-- A fold of steps that each keep a property keeps it. -/
theorem foldl_inv {α β : Type} (p : β → Prop) (f : β → α → β) (h : ∀ s a, p s → p (f s a)) (l : List α) :
    ∀ s, p s → p (l.foldl f s) := by
  induction l with
  | nil => intro s hs; exact hs
  | cons a l ih => intro s hs; exact ih _ (h s a hs)

@[simp] theorem mem_postAll (ds : List Due) : (s.postAll ds).mem = s.mem :=
  foldl_keeps _ _ (fun s d => mem_post s d) _ _

@[simp] theorem mem_wakeRange (x : Sec) (a : BitVec 16) (va n : Nat) : (s.wakeRange x a va n).mem = s.mem := by
  simp only [State.wakeRange]; split <;> simp

@[simp] theorem mem_touch (k : Nat) : (s.touch k).mem = s.mem := by
  unfold State.touch; split <;> simp

/-! ## Physical memory -/

/-- A byte of physical memory after a write: the byte written, or as before. -/
theorem memByte_writePhys_ne (x : Sec) (bs : List Byte) : ∀ (s : State) (pa : Nat) {y : Sec} {a : Nat},
    (∀ i, i < bs.length → memKey y a ≠ memKey x (pa + i)) → (s.writePhys x pa bs).memByte y a = s.memByte y a := by
  induction bs with
  | nil => intro s pa y a _; rfl
  | cons b bs ih =>
    intro s pa y a h
    rw [State.writePhys, ih _ (pa + 1)]
    · exact Laws.get_put_ne _ _ _ _ (by simpa using h 0 (by simp))
    · intro i hi
      have := h (i + 1) (by simpa using hi)
      rwa [show pa + 1 + i = pa + (i + 1) by omega]

/-- A range of physical memory reads what was written there. -/
theorem readPhys_writePhys (x : Sec) (bs : List Byte) : ∀ (s : State) (pa : Nat),
    (s.writePhys x pa bs).readPhys x pa bs.length = bs := by
  induction bs with
  | nil => intro s pa; rfl
  | cons b bs ih =>
    intro s pa
    rw [State.writePhys, List.length_cons, State.readPhys, ih]
    congr 1
    rw [memByte_writePhys_ne]
    · exact Laws.get_put_same _ _ _ _
    · intro i _; unfold memKey; omega

theorem writePhys_wf (x : Sec) (bs : List Byte) : ∀ (s : State) (pa : Nat), Memory.wf s.mem = true →
    Memory.wf (s.writePhys x pa bs).mem = true := by
  induction bs with
  | nil => intro s pa h; exact h
  | cons b bs ih => intro s pa h; exact ih _ _ (Laws.wf_put h)

/-! ## Every memory operation keeps the canonical form -/

theorem setMarks_wf (k : Nat) (m : Marks) (h : Memory.wf s.mem = true) : Memory.wf (s.setMarks k m).mem = true := by
  simp only [State.setMarks]
  split
  · exact h
  · split
    · simp only [State.freeSpill, mem_modSec]
      exact writePhys_wf _ _ _ _ h
    · split
      · exact h
      · exact writePhys_wf _ _ _ _ h

theorem clearMarks_wf (g : Agent) (ls : List Nat) (h : Memory.wf s.mem = true) :
    Memory.wf (s.clearMarks g ls).mem = true :=
  foldl_inv (fun s : State => Memory.wf s.mem = true) _ (fun s _ hs => setMarks_wf s _ _ hs) _ _ h

theorem abortTx_wf (g : Agent) (c d : Nat) (h : Memory.wf s.mem = true) : Memory.wf (s.abortTx g c d).mem = true := by
  unfold State.abortTx
  split
  · exact h
  · exact clearMarks_wf _ _ _ (by simpa using h)

theorem abortAll_wf (gs : List Agent) (c : Nat) (h : Memory.wf s.mem = true) : Memory.wf (s.abortAll gs c).mem = true :=
  foldl_inv (fun s : State => Memory.wf s.mem = true) _ (fun s g hs => abortTx_wf s g c 0 hs) _ _ h

theorem conflictPlain_wf (g : Agent) (k : Nat) (w : Bool) (h : Memory.wf s.mem = true) :
    Memory.wf (s.conflictPlain g k w).mem = true := abortAll_wf s _ _ h

theorem spillMarks_wf (k : Nat) (h : Memory.wf s.mem = true) : Memory.wf (s.spillMarks k).mem = true := by
  simp only [State.spillMarks]
  split
  · exact h
  · split
    · exact setMarks_wf _ _ _ (abortAll_wf _ _ _ (by simpa using h))
    · refine abortAll_wf _ _ _ ?_
      split
      · exact abortTx_wf _ _ _ _ (setMarks_wf s _ _ h)
      · exact setMarks_wf s _ _ h

/-- Translating caches entries and writes no byte. -/
theorem translateAs_mem {x : Sec} {a : BitVec 16} {va : Nat} {b : Bool} {t : Tlb} {s' : State}
    (h : s.translateAs x a va b = .ok (t, s')) : s'.mem = s.mem := by
  unfold State.translateAs at h
  split at h
  · cases h; rfl
  · simp only at h
    split at h
    · cases h; rfl
    · cases h
    · cases h

theorem writeBack_wf (k : Nat) (l : Line) (n : Bool) (h : Memory.wf s.mem = true) :
    Memory.wf (s.writeBack k l n).1.mem = true := by
  simp only [State.writeBack]
  split
  · rename_i t s' e
    have h' : Memory.wf s'.mem = true := by rw [translateAs_mem s e]; exact h
    split
    · exact h'
    · simp only [mem_setPoison]
      exact writePhys_wf _ _ _ _ h'
  · simp only; split <;> simp [h]

theorem evict_wf (k : Nat) (h : Memory.wf s.mem = true) : Memory.wf (s.evict k).mem = true := by
  simp only [State.evict]
  split
  · exact h
  · rename_i l _
    have hw := writeBack_wf s k l true h
    split
    · split
      · rename_i e; rw [e] at hw; exact hw
      · rename_i e; rw [e] at hw; exact spillMarks_wf _ _ (by simpa using hw)
    · exact spillMarks_wf _ _ (by simpa using h)

theorem evictOne_wf (n : Nat) : ∀ (s : State) (ls : List (Nat × Line)) {s' : State}, s.evictOne n ls = some s' →
    Memory.wf s.mem = true → Memory.wf s'.mem = true := by
  induction n with
  | zero => intro s ls s' e _; cases e
  | succ n ih =>
    intro s ls s' e h
    simp only [State.evictOne] at e
    split at e
    · cases e
    · split at e
      · injection e with e; subst e; exact evict_wf s _ h
      · exact ih _ _ e (evict_wf s _ h)

theorem allocate_wf {k : Nat} {l : Line} {s' : State} (e : s.allocate k l = some s') (h : Memory.wf s.mem = true) :
    Memory.wf s'.mem = true := by
  simp only [State.allocate, Option.map_eq_some_iff] at e
  obtain ⟨t, et, e⟩ := e
  subst e
  simp only [mem_setLine, mem_modSec]
  split at et
  · injection et with et; subst et; exact h
  · exact evictOne_wf _ _ _ et h

theorem locate_wf {x : Sec} {a : BitVec 16} {va : Nat} {c : Acc} {w : Bool} {p : Served} {s' : State}
    (e : s.locate x a va c w = .ok (p, s')) (h : Memory.wf s.mem = true) : Memory.wf s'.mem = true := by
  simp only [State.locate] at e
  split at e
  · split at e
    · injection e with e; injection e with _ e; subst e; simpa using h
    · cases e
  · split at e
    · cases e
    · rename_i t s₁ et
      have h₁ : Memory.wf s₁.mem = true := by rw [translateAs_mem s et]; exact h
      split at e
      · cases e
      · split at e
        · injection e with e; injection e with _ e; subst e; exact h₁
        · split at e
          · rename_i ea
            injection e with e; injection e with _ e; subst e; exact allocate_wf s₁ ea h₁
          · cases e

theorem raceCheck_wf {x : Sec} {a : BitVec 16} {va n : Nat} {c : Acc} {s' : State}
    (e : s.raceCheck x a va n c = some s') (h : Memory.wf s.mem = true) : Memory.wf s'.mem = true := by
  unfold State.raceCheck at e
  split at e
  · injection e with e; subst e; exact h
  · simp only [Option.map_eq_some_iff] at e
    obtain ⟨m, _, e⟩ := e
    subst e; exact setMarks_wf s _ _ h

theorem readChunk_wf {x : Sec} {a : BitVec 16} {va n : Nat} {c : Acc} {bs : List Byte} {s' : State}
    (e : s.readChunk x a va n c = .ok (bs, s')) (h : Memory.wf s.mem = true) : Memory.wf s'.mem = true := by
  unfold State.readChunk at e
  split at e
  · cases e
  · rename_i el
    split at e
    · cases e
    · injection e with e; injection e with _ e; subst e; exact locate_wf s el h
  · rename_i el
    split at e
    · cases e
    · rename_i er
      split at e
      · cases e
      · split at e
        · cases e
        · injection e with e; injection e with _ e; subst e
          exact raceCheck_wf _ er (locate_wf s el h)

theorem writeFrame_wf (x : Sec) (pa : Nat) (bs : List Byte) (h : Memory.wf s.mem = true) :
    Memory.wf (s.writeFrame x pa bs).mem = true := by
  have := writePhys_wf x bs s pa h
  simp only [State.writeFrame]
  split <;> simpa using this

theorem readFrame_wf (x : Sec) (pa n : Nat) (h : Memory.wf s.mem = true) :
    Memory.wf (s.readFrame x pa n).2.mem = true := by
  simp only [State.readFrame]
  split
  · simpa [State.lostBytes] using h
  · exact h

theorem putBytes_wf (x : Sec) (a : BitVec 16) (va : Nat) (p : Served) (bs : List Byte) (h : Memory.wf s.mem = true) :
    Memory.wf (s.putBytes x a va p bs).mem = true := by
  simp only [State.putBytes]
  split
  · exact writeFrame_wf _ _ _ _ (by simpa using h)
  · split
    · exact h
    · split <;> simpa using h

theorem writeChunk_wf {x : Sec} {a : BitVec 16} {va : Nat} {bs : List Byte} {c : Acc} {s' : State}
    (e : s.writeChunk x a va bs c = .ok s') (h : Memory.wf s.mem = true) : Memory.wf s'.mem = true := by
  unfold State.writeChunk at e
  split at e
  · cases e
  · rename_i el
    split at e
    · cases e
    · split at e
      · injection e with e; subst e; exact putBytes_wf _ _ _ _ _ _ (locate_wf s el h)
      · split at e
        · cases e
        · rename_i er
          injection e with e; subst e
          exact putBytes_wf _ _ _ _ _ _ (raceCheck_wf _ er (locate_wf s el h))

/-- A chain of steps that each keep a property, when they answer, keeps it. -/
theorem foldlM_inv {α β ε : Type} (p : β → Prop) (f : β → α → Except ε β)
    (h : ∀ b a b', f b a = .ok b' → p b → p b') (l : List α) :
    ∀ b b', l.foldlM f b = .ok b' → p b → p b' := by
  induction l with
  | nil => intro b b' e hb; cases e; exact hb
  | cons a l ih =>
    intro b b' e hb
    rw [List.foldlM_cons] at e
    cases hf : f b a with
    | error x => rw [hf] at e; cases e
    | ok b₁ => rw [hf] at e; exact ih _ _ e (h _ _ _ hf hb)

theorem readHome_wf {x : Sec} {a : BitVec 16} {va n : Nat} {c : Acc} {bs : List Byte} {s' : State}
    (e : s.readHome x a va n c = .ok (bs, s')) (h : Memory.wf s.mem = true) : Memory.wf s'.mem = true := by
  refine foldlM_inv (fun r : List Byte × State => Memory.wf r.2.mem = true) _ ?_ _ _ _ e h
  intro b a b' hb hw
  split at hb
  · rename_i er
    injection hb with hb; subst hb; exact readChunk_wf _ er hw
  · cases hb

theorem writeHome_wf {x : Sec} {a : BitVec 16} {va : Nat} {bs : List Byte} {c : Acc} {s' : State}
    (e : s.writeHome x a va bs c = .ok s') (h : Memory.wf s.mem = true) : Memory.wf s'.mem = true := by
  refine foldlM_inv (fun s : State => Memory.wf s.mem = true) _ ?_ _ _ _ e h
  intro b a b' hb hw
  split at hb
  · rename_i er
    injection hb with hb; subst hb; exact writeChunk_wf _ er hw
  · cases hb

theorem updateHome_wf {x : Sec} {a : BitVec 16} {va n : Nat} {c : Acc} {f : Nat → Nat} {v : Nat} {s' : State}
    (e : s.updateHome x a va n c f = .ok (v, s')) (h : Memory.wf s.mem = true) : Memory.wf s'.mem = true := by
  unfold State.updateHome at e
  split at e
  · cases e
  · rename_i el
    split at e
    · cases e
    · split at e
      · injection e with e; injection e with _ e; subst e; exact putBytes_wf _ _ _ _ _ _ (locate_wf s el h)
      · split at e
        · cases e
        · split at e
          · cases e
          · injection e with e; injection e with _ e; subst e
            exact putBytes_wf _ _ _ _ _ _ (locate_wf s el h)

theorem areaPage_wf (x : Sec) (a : BitVec 16) (va : Nat) (h : Memory.wf s.mem = true) :
    Memory.wf (s.areaPage x a va).2.mem = true := by
  simp only [State.areaPage]
  split
  · rename_i e
    simp only [mem_modSec]
    rw [translateAs_mem s e]; exact h
  · split <;> simpa using h

theorem areaWriteChunk_wf (x : Sec) (a : BitVec 16) (va : Nat) (bs : List Byte) (h : Memory.wf s.mem = true) :
    Memory.wf (s.areaWriteChunk x a va bs).mem = true := by
  have hp := areaPage_wf s x a va h
  unfold State.areaWriteChunk
  split
  · rename_i e; rw [e] at hp; exact hp
  · rename_i e
    rw [e] at hp
    split
    · exact putBytes_wf _ _ _ _ _ _ hp
    · rw [mem_wakeRange]
      exact writeFrame_wf _ _ _ _ (by simpa using hp)

theorem areaWrite_wf (x : Sec) (a : BitVec 16) (va : Nat) (bs : List Byte) (h : Memory.wf s.mem = true) :
    Memory.wf (s.areaWrite x a va bs).mem = true :=
  foldl_inv (fun s : State => Memory.wf s.mem = true) _ (fun s c hs => areaWriteChunk_wf s x a c.1 _ hs) _ _ h

theorem areaReadChunk_wf (x : Sec) (a : BitVec 16) (va n : Nat) (h : Memory.wf s.mem = true) :
    Memory.wf (s.areaReadChunk x a va n).2.mem = true := by
  have hp := areaPage_wf s x a va h
  unfold State.areaReadChunk
  split
  · rename_i e; rw [e] at hp; exact hp
  · rename_i e
    rw [e] at hp
    split
    · split <;> simpa [State.lostBytes] using hp
    · exact readFrame_wf _ _ _ _ hp

theorem areaRead_wf (x : Sec) (a : BitVec 16) (va n : Nat) (h : Memory.wf s.mem = true) :
    Memory.wf (s.areaRead x a va n).2.mem = true :=
  foldl_inv (fun r : List Byte × State => Memory.wf r.2.mem = true) _
    (fun r c hr => areaReadChunk_wf r.2 x a c.1 c.2 hr) _ _ h

/-! ## Scratchpads -/

/-- Physical memory takes no part in a scratchpad write. -/
@[simp] theorem mem_spadPut (x : Sec) (cl : Fin 96) (bs : List Byte) : ∀ (s : State) (off : Nat),
    (s.spadPut x cl off bs).mem = s.mem := by
  induction bs with
  | nil => intro s off; rfl
  | cons b bs ih => intro s off; rw [State.spadPut, ih]

theorem spadPut_ne (x : Sec) (cl : Fin 96) (bs : List Byte) : ∀ (s : State) (off : Nat) {k : Nat},
    (∀ i, i < bs.length → k ≠ spadKey x cl (off + i)) →
    Sparse.get 0 (s.spadPut x cl off bs).spad k = Sparse.get 0 s.spad k := by
  induction bs with
  | nil => intro s off k _; rfl
  | cons b bs ih =>
    intro s off k h
    rw [State.spadPut, ih _ (off + 1)]
    · exact Laws.get_put_ne _ _ _ _ (by simpa using h 0 (by simp))
    · intro i hi
      have := h (i + 1) (by simpa using hi)
      rwa [show off + 1 + i = off + (i + 1) by omega]

/-- A range of a scratchpad reads what was put there. -/
theorem spadBytes_spadPut (x : Sec) (cl : Fin 96) (bs : List Byte) : ∀ (s : State) (off : Nat),
    (s.spadPut x cl off bs).spadBytes x cl off bs.length = bs := by
  induction bs with
  | nil => intro s off; rfl
  | cons b bs ih =>
    intro s off
    rw [State.spadPut, List.length_cons, State.spadBytes, ih]
    congr 1
    rw [spadPut_ne]
    · exact Laws.get_put_same _ _ _ _
    · intro i _; unfold spadKey; omega

theorem spadPut_wf (x : Sec) (cl : Fin 96) (bs : List Byte) : ∀ (s : State) (off : Nat),
    Memory.wf s.spad = true → Memory.wf (s.spadPut x cl off bs).spad = true := by
  induction bs with
  | nil => intro s off h; exact h
  | cons b bs ih => intro s off h; exact ih _ _ (Laws.wf_put h)

@[simp] theorem mem_putFull (x : Sec) (cl : Fin 96) (off : Nat) (b : Bool) : (s.putFull x cl off b).mem = s.mem := rfl
@[simp] theorem spad_putFull (x : Sec) (cl : Fin 96) (off : Nat) (b : Bool) : (s.putFull x cl off b).spad = s.spad := rfl
@[simp] theorem mem_completeParked (g : Agent) (f : Hart → Hart) : (s.completeParked g f).mem = s.mem := rfl
@[simp] theorem spad_completeParked (g : Agent) (f : Hart → Hart) : (s.completeParked g f).spad = s.spad := rfl
@[simp] theorem mem_unpark (g : Agent) : (s.unpark g).mem = s.mem := rfl
@[simp] theorem spad_unpark (g : Agent) : (s.unpark g).spad = s.spad := rfl

/-- The bytes after a fill are those of the put alone. -/
@[simp] theorem spad_spadFill (x : Sec) (cl : Fin 96) (off : Nat) (bs : List Byte) :
    (s.spadFill x cl off bs).spad = (s.spadPut x cl off bs).spad := by
  refine foldl_keeps (·.spad) _ (fun s o => ?_) _ _
  simp only [spad_putFull]
  split <;> rfl

@[simp] theorem mem_spadFill (x : Sec) (cl : Fin 96) (off : Nat) (bs : List Byte) :
    (s.spadFill x cl off bs).mem = s.mem := by
  refine (foldl_keeps (·.mem) _ (fun s o => ?_) _ _).trans (mem_spadPut x cl bs s off)
  simp only [mem_putFull]
  split <;> rfl

/-! ## What serving the contexts parked on a word can do -/

/-- Between two states a word of a scratchpad is served: physical memory stays, so does every byte outside the word, and
the scratchpads keep their canonical form. -/
structure WordServed (x : Sec) (cl : Fin 96) (off : Nat) (s t : State) : Prop where
  mem : t.mem = s.mem
  spad : ∀ k, (∀ i, i < 8 → k ≠ spadKey x cl (off + i)) → Sparse.get 0 t.spad k = Sparse.get 0 s.spad k
  wf : Memory.wf s.spad = true → Memory.wf t.spad = true

theorem WordServed.refl {x : Sec} {cl : Fin 96} {off : Nat} : WordServed x cl off s s := ⟨rfl, fun _ _ => rfl, id⟩

theorem WordServed.trans {x : Sec} {cl : Fin 96} {off : Nat} {s t u : State} (h : WordServed x cl off s t)
    (k : WordServed x cl off t u) : WordServed x cl off s u :=
  ⟨k.mem.trans h.mem, fun n hn => (k.spad n hn).trans (h.spad n hn), fun w => k.wf (h.wf w)⟩

theorem feServe_served {x : Sec} {cl : Fin 96} {off : Nat} {t : State} (h : s.feServe x cl off = some t) :
    WordServed x cl off s t := by
  unfold State.feServe at h
  split at h
  · cases h
  · split at h
    · cases h
      refine ⟨by simp, fun k hk => ?_, fun w => ?_⟩
      · rw [spad_spadFill, spadPut_ne _ _ _ _ _ fun i hi => hk i (by simpa [leBytes] using hi)]; rfl
      · rw [spad_spadFill]; exact spadPut_wf _ _ _ _ _ w
    · split at h
      · cases h
      · split at h
        · cases h; exact ⟨rfl, fun _ _ => rfl, id⟩
        · cases h; split <;> exact ⟨rfl, fun _ _ => rfl, id⟩

theorem feServeAll_served {x : Sec} {cl : Fin 96} {off : Nat} (n : Nat) :
    ∀ s : State, WordServed x cl off s (s.feServeAll x cl off n) := by
  induction n with
  | zero => intro s; exact WordServed.refl s
  | succ n ih =>
    intro s
    rw [State.feServeAll]
    split
    · rename_i e; exact (feServe_served s e).trans (ih _)
    · exact WordServed.refl s

theorem feSettle_served (x : Sec) (cl : Fin 96) (off : Nat) : WordServed x cl off s (s.feSettle x cl off) :=
  feServeAll_served _ s

/-- With no context parked on a word nothing is served. -/
theorem feSettle_quiet {x : Sec} {cl : Fin 96} {off : Nat} (h : s.feCount (spadWord x cl off) = 0) :
    s.feSettle x cl off = s := by rw [State.feSettle, h]; rfl

theorem setFull_served (x : Sec) (cl : Fin 96) (off : Nat) (b : Bool) : WordServed x cl off s (s.setFull x cl off b) :=
  (WordServed.mk rfl (fun _ _ => rfl) id : WordServed x cl off s (s.putFull x cl off b)).trans (feSettle_served _ x cl off)

/-! ## A scratchpad write -/

/-- Where no context is parked on a word that it touches, a write only fills the words. -/
theorem spadWrite_quiet {x : Sec} {cl : Fin 96} {off : Nat} {bs : List Byte}
    (h : ∀ o ∈ wordsOf off bs.length, (s.spadFill x cl off bs).feCount (spadWord x cl o) = 0) :
    s.spadWrite x cl off bs = s.spadFill x cl off bs := by
  have : ∀ (l : List Nat) (t : State), (∀ o ∈ l, t.feCount (spadWord x cl o) = 0) →
      l.foldl (fun s o => s.feSettle x cl o) t = t := by
    intro l
    induction l with
    | nil => intro t _; rfl
    | cons o l ih =>
      intro t ht
      rw [List.foldl_cons, feSettle_quiet t (ht o (by simp))]
      exact ih t fun o ho => ht o (by simp [ho])
  exact this _ _ h

/-- A range of a scratchpad reads what was written there, where no context is parked on its words. -/
theorem spadBytes_spadWrite {x : Sec} {cl : Fin 96} {off : Nat} {bs : List Byte}
    (q : ∀ o ∈ wordsOf off bs.length, (s.spadFill x cl off bs).feCount (spadWord x cl o) = 0) :
    (s.spadWrite x cl off bs).spadBytes x cl off bs.length = bs := by
  have h : ∀ (t u : State) (o n : Nat), t.spad = u.spad → t.spadBytes x cl o n = u.spadBytes x cl o n := by
    intro t u o n e
    induction n generalizing o with
    | zero => rfl
    | succ n ih => rw [State.spadBytes, State.spadBytes, e, ih]
  rw [spadWrite_quiet s q, h _ _ _ _ (spad_spadFill s x cl off bs)]
  exact spadBytes_spadPut x cl bs s off

@[simp] theorem mem_spadWrite (x : Sec) (cl : Fin 96) (off : Nat) (bs : List Byte) :
    (s.spadWrite x cl off bs).mem = s.mem :=
  (foldl_keeps (·.mem) _ (fun s o => (feSettle_served s x cl o).mem) _ _).trans (mem_spadFill s x cl off bs)

/-- Bytes outside the range of a write and outside the words that it touches read as before. -/
theorem spadWrite_ne {x : Sec} {cl : Fin 96} {off : Nat} {bs : List Byte} {k : Nat}
    (h : ∀ i, i < bs.length → k ≠ spadKey x cl (off + i))
    (hw : ∀ o ∈ wordsOf off bs.length, ∀ i, i < 8 → k ≠ spadKey x cl (o + i)) :
    Sparse.get 0 (s.spadWrite x cl off bs).spad k = Sparse.get 0 s.spad k := by
  have : ∀ (l : List Nat) (t : State), (∀ o ∈ l, ∀ i, i < 8 → k ≠ spadKey x cl (o + i)) →
      Sparse.get 0 (l.foldl (fun s o => s.feSettle x cl o) t).spad k = Sparse.get 0 t.spad k := by
    intro l
    induction l with
    | nil => intro t _; rfl
    | cons o l ih =>
      intro t ht
      rw [List.foldl_cons, ih _ fun o ho => ht o (by simp [ho])]
      exact (feSettle_served t x cl o).spad k (ht o (by simp))
  rw [State.spadWrite, this _ _ hw, spad_spadFill, spadPut_ne _ _ _ _ _ h]

theorem spadWrite_wf (x : Sec) (cl : Fin 96) (off : Nat) (bs : List Byte) (h : Memory.wf s.spad = true) :
    Memory.wf (s.spadWrite x cl off bs).spad = true :=
  foldl_inv (fun s : State => Memory.wf s.spad = true) _ (fun s o hs => (feSettle_served s x cl o).wf hs) _ _
    (by rw [spad_spadFill]; exact spadPut_wf x cl bs s off h)

end Sys2Proof.Machine
end

