-- ==== Sys2Proof/Laws/Ops.lean ====
section
/-! SUPPORT. The shared operations of the meanings, each said once: how a body ends, what the operand forms answer, what
a completed instruction leaves, what an exception and a return write, and when an access of the executing agent
succeeds. -/

namespace Sys2Proof.Machine

variable (s : State)

/-! ## How a body ends -/

@[simp] theorem conclude_ok (sm : Bool) (t : State) (n : Next) : s.conclude sm (.ok (t, n)) = .next (t.retire sm n) := rfl
@[simp] theorem conclude_flt (sm : Bool) (f : Flt) : s.conclude sm (.error (.flt f)) = .next (s.raise f) := rfl
@[simp] theorem conclude_park (sm : Bool) (p : Park) : s.conclude sm (.error (.park p)) = .next (s.parkMe sm p) := rfl
@[simp] theorem conclude_interlock (sm : Bool) (w : Wait) : s.conclude sm (.error (.interlock w)) = .next (s.waitMe w) := rfl
@[simp] theorem conclude_stall (sm : Bool) : s.conclude sm (.error .stall) = .next s := rfl
@[simp] theorem conclude_illop (sm : Bool) : s.conclude sm (.error .illop) = .next (s.abortMe sm txIllop 0) := rfl
@[simp] theorem conclude_abort (sm : Bool) (c d : Nat) :
    s.conclude sm (.error (.abort c d)) = .next (s.abortMe sm c d) := rfl

/-- However a body ends, there is a next state. -/
theorem conclude_next (sm : Bool) (r : Except Stop (State × Next)) : ∃ t, s.conclude sm r = .next t := by
  match r with
  | .ok (t, n) => exact ⟨_, rfl⟩
  | .error (.flt f) => exact ⟨_, rfl⟩
  | .error (.park p) => exact ⟨_, rfl⟩
  | .error (.interlock w) => exact ⟨_, rfl⟩
  | .error .stall => exact ⟨_, rfl⟩
  | .error .illop => exact ⟨_, rfl⟩
  | .error (.abort c d) => exact ⟨_, rfl⟩

theorem issue_next (sm : Bool) (b : Body) : ∃ t, s.issue sm b = .next t := by
  unfold State.issue
  split
  · exact conclude_next ..
  · exact ⟨_, rfl⟩

theorem issueImm_next (sm : Bool) (b : Body) : ∃ t, s.issueImm sm b = .next t := conclude_next ..

variable {s}

/-- Without a pending chain an instruction carries out its body. -/
theorem issue_eq (sm : Bool) (b : Body) (hc : s.me.chain = []) : s.issue sm b = s.conclude sm (b s) := by
  unfold State.issue; rw [hc]; rfl

/-- With one, it raises ILL (R62). -/
theorem issue_chain (sm : Bool) (b : Body) (hc : s.me.chain ≠ []) : s.issue sm b = .next (s.raise (flt cILL 0)) := by
  unfold State.issue
  rw [if_neg]
  simpa using hc

theorem issueImm_eq (sm : Bool) (b : Body) : s.issueImm sm b = s.conclude sm (b s) := rfl

/-! ## Operand forms -/

theorem op2_eq {a b : Fin 16} {x y : Word} (sm : Bool) (d : Fin 16) (f : Word → Word → Word) (hc : s.me.chain = [])
    (ha : s.rdS a = .ok x) (hb : s.rdS b = .ok y) : s.op2 sm d a b f = .next ((s.wrS d (f x y)).retire sm .seq) := by
  unfold State.op2
  rw [issue_eq _ _ hc]
  simp only [ha, hb, bind, Except.bind, done, conclude_ok]

theorem op1_eq {a : Fin 16} {x : Word} (sm : Bool) (d : Fin 16) (f : Word → Word) (hc : s.me.chain = [])
    (ha : s.rdS a = .ok x) : s.op1 sm d a f = .next ((s.wrS d (f x)).retire sm .seq) := by
  unfold State.op1
  rw [issue_eq _ _ hc]
  simp only [ha, bind, Except.bind, done, conclude_ok]

theorem opImm_eq {a : Fin 16} {x : Word} (sm : Bool) (d : Fin 16) (n v : Nat) (sg : Bool) (f : Word → Word → Word)
    (ha : s.rdS a = .ok x) :
    s.opImm sm d a n v sg f = .next ((s.wrS d (f x (s.me.imm n v sg))).retire sm .seq) := by
  unfold State.opImm
  rw [issueImm_eq]
  simp only [ha, bind, Except.bind, done, conclude_ok]

theorem opP_eq {a b : Fin 8} {x y : Bool} (sm : Bool) (d : Fin 8) (f : Bool → Bool → Bool) (hc : s.me.chain = [])
    (ha : s.rdP a = .ok x) (hb : s.rdP b = .ok y) : s.opP sm d a b f = .next ((s.wrP d (f x y)).retire sm .seq) := by
  unfold State.opP
  rw [issue_eq _ _ hc]
  simp only [ha, hb, bind, Except.bind, done, conclude_ok]

/-- A form whose operand stops it stops. -/
theorem op2_stop {a : Fin 16} {e : Stop} (sm : Bool) (d b : Fin 16) (f : Word → Word → Word) (hc : s.me.chain = [])
    (ha : s.rdS a = .error e) : s.op2 sm d a b f = s.conclude sm (.error e) := by
  unfold State.op2
  rw [issue_eq _ _ hc]
  simp only [ha, bind, Except.bind]

variable (s)

/-! ## Reading registers -/

theorem rdS_full {r : Fin 16} (h : (s.me.s.get r).full = true) : s.rdS r = .ok (s.me.s.get r).val := by
  unfold State.rdS; rw [if_pos h]

/-- A read of an empty register parks on it (R13). -/
theorem rdS_empty {r : Fin 16} (h : (s.me.s.get r).full = false) : s.rdS r = .error (.park (.reg r)) := by
  simp [State.rdS, h]

@[simp] theorem rdP_zero : s.rdP 0 = .ok true := rfl
@[simp] theorem rdM_zero : s.rdM 0 = .ok (BitVec.allOnes 64) := rfl

/-! ## What a completed instruction leaves -/

/-- A retired instruction advances the pc by one word, counts, and leaves no chain and no park. -/
theorem me_retire_seq (sm : Bool) : (s.retire sm .seq).me =
    { s.me with pc := s.me.pc + 4, instret := s.me.instret + 1, chain := [], park := none, sWait := sm } := me_modMe ..

/-- Renewing the fetch view changes no register. -/
@[simp] theorem harts_refetch (g : Agent) : (s.refetch g).harts = s.harts := by
  unfold State.refetch
  split
  · rfl
  · simp only; split <;> rfl

@[simp] theorem cur_refetch (g : Agent) : (s.refetch g).cur = s.cur := by
  unfold State.refetch
  split
  · rfl
  · simp only; split <;> rfl

theorem me_retire_to (sm : Bool) (pc : Word) : (s.retire sm (.jump pc)).me =
    { s.me with pc := pc, instret := s.me.instret + 1, chain := [], park := none, sWait := sm } := by
  show ((s.modMe _).refetch s.cur).me = _
  unfold State.me State.hart
  rw [harts_refetch, cur_refetch]
  exact me_modMe s _

/-- A retired instruction that goes on changes nothing but the executing agent's registers. -/
theorem retire_seq_others (sm : Bool) : { s.retire sm .seq with harts := s.harts } = s := rfl

/-! ## Taking an exception and returning from it (R38, R391) -/

/-- What the entry of a handler writes at the master core. -/
theorem enterTrap_master (x : Sec) (n : Fin 16) (c sub : Nat) (a : Word) (j : Nat) (pc : Word) :
    let t := (s.enterTrap x n c sub a j pc).master x n
    t.sys = true ∧ t.ie = false ∧ t.epc = pc ∧ t.ecause = word c ∧ t.eaddr = a := by
  simp only [State.enterTrap, State.refetch]
  split <;> simp

/-! ## Accesses of the executing agent -/

/-- An access inside an open channel goes on when no earlier release is outstanding (R311). -/
theorem acquiring_ok {b : Bool} (h : (b && s.releaseOpen s.cur) = false) : s.acquiring b = .ok () := by
  unfold State.acquiring; rw [h]; rfl

/-- A load from a scratchpad that nothing stops (R24, R311, R408). -/
theorem ownRead_ok {x : Sec} {cl : Fin 96} {off n ea : Nat} (hm : s.belowMark x cl off n = false)
    (hb : s.spadBad x cl off n = false) (hr : (s.inOpen x cl off n && s.releaseOpen s.cur) = false) :
    s.ownRead x cl off n ea = .ok (s.spadBytes x cl off n, s.channelRead x cl off n) := by
  simp [State.ownRead, State.spadLoad, hm, hb, acquiring_ok s hr, bind, Except.bind]

/-- A load from the own scratchpad that nothing stops answers its bytes; nothing changes but, inside an open channel,
the interval of the read-only path (R24, R46, R324, R408). -/
theorem load_spad {ea : Word} {n : Nat} {cl : Fin 96} {off : Nat} (plain : Bool) (h : s.ownSpad ea n cl off) :
    s.load ea n plain =
      .ok (s.spadBytes (secOf s.cur) cl off n, s.channelRead (secOf s.cur) cl off n) := by
  obtain ⟨hp, ha, hc, hm, hb, hr⟩ := h
  simp [State.load, State.place, hp, aligned, ha, hc, ownRead_ok s hm hb hr, bind, Except.bind]

/-- A store to the own scratchpad writes its bytes and makes its words full (R22). -/
theorem store_spad {ea : Word} {bs : List Byte} {cl : Fin 96} {off : Nat} (plain : Bool)
    (hp : placeOf s.cur ea.toNat bs.length = .ok (.spad cl off)) (ha : ea.toNat % bs.length = 0)
    (hc : clusterOfAgent s.cur = some cl) :
    s.store ea bs plain = .ok (s.spadWrite (secOf s.cur) cl off bs) := by
  simp [State.store, State.place, hp, aligned, ha, hc, bind, Except.bind]

/-- An atomic on the own scratchpad. -/
theorem atomic_spad {ea : Word} {n : Nat} {cl : Fin 96} {off : Nat} (f : Nat → Nat) (h : s.ownSpad ea n cl off) :
    s.atomic ea n f = .ok (leNat (s.spadBytes (secOf s.cur) cl off n),
      (s.channelRead (secOf s.cur) cl off n).spadWrite (secOf s.cur) cl off
        (leBytes n (f (leNat (s.spadBytes (secOf s.cur) cl off n))))) := by
  obtain ⟨hp, ha, hc, hm, hb, hr⟩ := h
  simp [State.atomic, State.place, hp, aligned, ha, hc, ownRead_ok s hm hb hr, bind, Except.bind]

/-! ## Accesses that the LLC serves -/

/-- A range inside one line is one piece. -/
theorem chunks_one {va n : Nat} (h0 : 0 < n) (hn : 128 % n = 0) (ha : va % n = 0) : chunks va n = [(va, n)] := by
  obtain ⟨q, hq⟩ : n ∣ 128 := Nat.dvd_of_mod_eq_zero hn
  obtain ⟨r, hr⟩ : n ∣ va := Nat.dvd_of_mod_eq_zero ha
  have hq0 : 0 < q := by
    rcases Nat.eq_zero_or_pos q with h | h
    · subst h; omega
    · exact h
  have hline : va % 128 + n ≤ 128 := by
    have e : va % 128 = n * (r % q) := by rw [hr, hq, Nat.mul_mod_mul_left]
    have hlt : r % q + 1 ≤ q := Nat.mod_lt _ hq0
    calc va % 128 + n = n * (r % q + 1) := by rw [e, Nat.mul_add, Nat.mul_one]
      _ ≤ n * q := Nat.mul_le_mul_left n hlt
      _ = 128 := hq.symm
  have h1 : (va + n - 1) / 128 = va / 128 := by omega
  simp only [chunks]
  rw [if_neg (by omega), h1, Nat.sub_self]
  simp only [Nat.zero_add, List.range_succ, List.range_zero, List.nil_append, List.map_cons, List.map_nil, Nat.add_zero]
  congr 1
  rw [Nat.max_eq_left (by omega), Nat.min_eq_left (by omega), Nat.add_sub_cancel_left]

@[simp] theorem line_setLine (k : Nat) (l : Option Line) : (s.setLine k l).line k = l := by
  unfold State.line State.setLine
  exact Laws.get_put_same _ _ _ _

theorem line_touch (k : Nat) {l : Line} (h : s.line k = some l) :
    (s.touch k).line k = some { l with age := (s.sec (lineSec k)).lineAge } := by
  simp only [State.touch, h, line_setLine]

/-- The scratch tests of an access at the home that a held line passes. -/
theorem locate_held {x : Sec} {a : BitVec 16} {va : Nat} {c : Acc} (w : Bool) {l : Line}
    (h : s.line (lineKey x a va) = some l) (hp : c.permits l.perm = true) :
    s.locate x a va c w = .ok (.line (lineKey x a va), s.touch (lineKey x a va)) := by
  simp [State.locate, h, hp]

/-- A line without transactional marks of others is no conflict. -/
theorem conflictPlain_none (g : Agent) (k : Nat) (w : Bool) (hw : (s.marksOf k).writer = none)
    (hr : (s.marksOf k).readers = []) : s.conflictPlain g k w = s := by
  simp [State.conflictPlain, hw, hr, State.abortAll]

theorem controlAt_held (g : Agent) {va : Nat} (h : (s.line (lineKey (secOf g) (s.asidOf g) va)).isSome = true) :
    s.controlAt g va = none := by
  cases g with
  | thread x i => rfl
  | master x n => simp only [secOf] at h; simp [State.controlAt, State.controlPage, h]

theorem place_app {ea : Word} {n : Nat} (h : ea.toNat + n ≤ 2 ^ 56) (h0 : 0 < n) :
    s.place ea n = .ok (.app ea.toNat) := by
  have h1 : ea.toNat / 2 ^ 56 = 0 := Nat.div_eq_of_lt (by omega)
  have h2 : ea.toNat % 2 ^ 56 = ea.toNat := Nat.mod_eq_of_lt (by omega)
  simp only [State.place, placeOf, h1, h2, if_pos h, if_true]

/-- A load that a held line or the own copy of it serves answers the bytes there (R330, R334). -/
theorem load_held {ea : Word} {n : Nat} {plain : Bool} {l : Line} (h : s.heldLine ea n .read plain l) :
    s.load ea n plain = .ok (slice (s.seenLine (s.myLine ea) l) (ea.toNat % 128) n, s.afterRead (s.myLine ea)) := by
  obtain ⟨hb, h0, h8, hd, ha, ht, hl, hk, hp, hr, hpo, hw, hre, hs, hcc⟩ := h
  unfold State.myLine State.seenLine State.afterRead at *
  have htx : (s.hart s.cur).tx = none := ht
  have hc := controlAt_held s s.cur (va := ea.toNat) (by rw [hk]; rfl)
  have hlt := line_touch s _ hk
  have hloc := locate_held s false hk hp
  simp only [State.load, place_app s hb h0, aligned, ha, if_true, bind, Except.bind, State.loadApp, hl, htx, hc,
    conflictPlain_none s s.cur _ false hw hre, State.readHome, chunks_one h0 hd ha, List.foldlM, State.readChunk, hloc,
    State.raceCheck, hr, hlt, hpo, liftHome, pure, Except.pure, List.nil_append, hcc]
  cases s.ownCopy s.cur (lineKey (secOf s.cur) (s.asidOf s.cur) ea.toNat) <;> simp

theorem sealAt_touch (k : Nat) (x : Sec) (a : BitVec 16) (va : Nat) : (s.touch k).sealAt x a va = s.sealAt x a va := by
  unfold State.touch
  split
  · rfl
  · have e : ∀ (t : State) (o : Option Line), (t.setLine k o).sec x = t.sec x := fun _ _ => rfl
    simp only [State.sealAt, e]
    by_cases hx : x = lineSec k
    · subst hx; rw [sec_modSec]
    · rw [State.modSec, sec_setSec_ne s _ hx]

/-- A store that a held line serves writes the line. -/
theorem store_held {ea : Word} {bs : List Byte} {plain : Bool} {l : Line} (h : s.heldLine ea bs.length .write plain l) :
    s.store ea bs plain = .ok (s.afterWrite ea bs) := by
  obtain ⟨hb, h0, h8, hd, ha, ht, hl, hk, hp, hr, hpo, hw, hre, hs, hcc⟩ := h
  unfold State.afterWrite
  unfold State.myLine at *
  have htx : (s.hart s.cur).tx = none := ht
  have hc := controlAt_held s s.cur (va := ea.toNat) (by rw [hk]; rfl)
  have hloc := locate_held s (bs.length == 128) hk hp
  have hsl : slice bs 0 bs.length = bs := by simp [slice]
  simp [State.store, place_app s hb h0, aligned, ha, bind, Except.bind, State.storeApp, hl, htx, hc,
    conflictPlain_none s s.cur _ true hw hre, State.writeHome, chunks_one h0 hd ha, List.foldlM, State.writeChunk, hsl,
    hloc, sealAt_touch, hs, State.raceCheck, hr, liftHome, pure, Except.pure, hcc]

/-- An atomic that a held line serves. -/
theorem atomic_held {ea : Word} {n : Nat} {l : Line} (f : Nat → Nat) (h : s.heldLine ea n .atomic false l) :
    s.atomic ea n f = .ok (leNat (slice l.data (ea.toNat % 128) n),
      s.afterWrite ea (leBytes n (f (leNat (slice l.data (ea.toNat % 128) n))))) := by
  obtain ⟨hb, h0, h8, hd, ha, ht, hl, hk, hp, hr, hpo, hw, hre, hs, hcc⟩ := h
  unfold State.afterWrite
  unfold State.myLine at *
  have hloc := locate_held s false hk hp
  have hlt := line_touch s _ hk
  simp [State.atomic, place_app s hb h0, aligned, ha, bind, Except.bind, State.atomicApp, hl,
    conflictPlain_none s s.cur _ true hw hre, State.updateHome, hloc, sealAt_touch, hs, hlt, hpo, hcc]

/-! ## Job records -/

/-- With room and no ended detached record, a new job leaves the records as they are (R267). -/
theorem jobRoom_free (h : s.jobSpace) (hd : ∀ e ∈ s.jobsOf (secOf s.cur) (s.jobOwner s.cur),
    (e.2.detached && !e.2.running) = false) : s.jobRoom = .ok s := by
  have e : ((s.jobsOf (secOf s.cur) (s.jobOwner s.cur)).filter fun e => e.2.detached && !e.2.running) = [] :=
    List.filter_eq_nil_iff.mpr fun e he => by simp [hd e he]
  simp only [State.jobRoom, e, List.foldl_nil]
  exact if_pos h

end Sys2Proof.Machine
end

