-- ==== Sys2Proof/Laws/Exec.lean ====
section
/-! SUPPORT. The dispatch, one lemma per constructor: which meaning an instruction has. -/

namespace Sys2Proof.Machine

theorem exec_add (sm : Bool) (d : Fin 16) (a : Fin 16) (b : Fin 16) (s : State) :
    exec (.add sm d a b) s = execAdd sm d a b s := rfl
theorem exec_sub (sm : Bool) (d : Fin 16) (a : Fin 16) (b : Fin 16) (s : State) :
    exec (.sub sm d a b) s = execSub sm d a b s := rfl
theorem exec_addw (sm : Bool) (d : Fin 16) (a : Fin 16) (b : Fin 16) (s : State) :
    exec (.addw sm d a b) s = execAddw sm d a b s := rfl
theorem exec_subw (sm : Bool) (d : Fin 16) (a : Fin 16) (b : Fin 16) (s : State) :
    exec (.subw sm d a b) s = execSubw sm d a b s := rfl
theorem exec_and (sm : Bool) (d : Fin 16) (a : Fin 16) (b : Fin 16) (s : State) :
    exec (.and sm d a b) s = execAnd sm d a b s := rfl
theorem exec_or (sm : Bool) (d : Fin 16) (a : Fin 16) (b : Fin 16) (s : State) :
    exec (.or sm d a b) s = execOr sm d a b s := rfl
theorem exec_xor (sm : Bool) (d : Fin 16) (a : Fin 16) (b : Fin 16) (s : State) :
    exec (.xor sm d a b) s = execXor sm d a b s := rfl
theorem exec_andn (sm : Bool) (d : Fin 16) (a : Fin 16) (b : Fin 16) (s : State) :
    exec (.andn sm d a b) s = execAndn sm d a b s := rfl
theorem exec_shl (sm : Bool) (d : Fin 16) (a : Fin 16) (b : Fin 16) (s : State) :
    exec (.shl sm d a b) s = execShl sm d a b s := rfl
theorem exec_shr (sm : Bool) (d : Fin 16) (a : Fin 16) (b : Fin 16) (s : State) :
    exec (.shr sm d a b) s = execShr sm d a b s := rfl
theorem exec_sar (sm : Bool) (d : Fin 16) (a : Fin 16) (b : Fin 16) (s : State) :
    exec (.sar sm d a b) s = execSar sm d a b s := rfl
theorem exec_min (sm : Bool) (d : Fin 16) (a : Fin 16) (b : Fin 16) (s : State) :
    exec (.min sm d a b) s = execMin sm d a b s := rfl
theorem exec_max (sm : Bool) (d : Fin 16) (a : Fin 16) (b : Fin 16) (s : State) :
    exec (.max sm d a b) s = execMax sm d a b s := rfl
theorem exec_minu (sm : Bool) (d : Fin 16) (a : Fin 16) (b : Fin 16) (s : State) :
    exec (.minu sm d a b) s = execMinu sm d a b s := rfl
theorem exec_maxu (sm : Bool) (d : Fin 16) (a : Fin 16) (b : Fin 16) (s : State) :
    exec (.maxu sm d a b) s = execMaxu sm d a b s := rfl
theorem exec_abs (sm : Bool) (d : Fin 16) (a : Fin 16) (s : State) :
    exec (.abs sm d a) s = execAbs sm d a s := rfl
theorem exec_neg (sm : Bool) (d : Fin 16) (a : Fin 16) (s : State) :
    exec (.neg sm d a) s = execNeg sm d a s := rfl
theorem exec_mov (sm : Bool) (d : Fin 16) (a : Fin 16) (s : State) :
    exec (.mov sm d a) s = execMov sm d a s := rfl
theorem exec_sh1add (sm : Bool) (d : Fin 16) (a : Fin 16) (b : Fin 16) (s : State) :
    exec (.sh1add sm d a b) s = execSh1add sm d a b s := rfl
theorem exec_sh2add (sm : Bool) (d : Fin 16) (a : Fin 16) (b : Fin 16) (s : State) :
    exec (.sh2add sm d a b) s = execSh2add sm d a b s := rfl
theorem exec_sh3add (sm : Bool) (d : Fin 16) (a : Fin 16) (b : Fin 16) (s : State) :
    exec (.sh3add sm d a b) s = execSh3add sm d a b s := rfl
theorem exec_addi (sm : Bool) (d : Fin 16) (a : Fin 16) (i : BitVec 17) (s : State) :
    exec (.addi sm d a i) s = execAddi sm d a i s := rfl
theorem exec_andi (sm : Bool) (d : Fin 16) (a : Fin 16) (i : BitVec 17) (s : State) :
    exec (.andi sm d a i) s = execAndi sm d a i s := rfl
theorem exec_ori (sm : Bool) (d : Fin 16) (a : Fin 16) (i : BitVec 17) (s : State) :
    exec (.ori sm d a i) s = execOri sm d a i s := rfl
theorem exec_xori (sm : Bool) (d : Fin 16) (a : Fin 16) (i : BitVec 17) (s : State) :
    exec (.xori sm d a i) s = execXori sm d a i s := rfl
theorem exec_ldi (sm : Bool) (d : Fin 16) (i : BitVec 17) (s : State) :
    exec (.ldi sm d i) s = execLdi sm d i s := rfl
theorem exec_shli (sm : Bool) (d : Fin 16) (a : Fin 16) (n : BitVec 6) (s : State) :
    exec (.shli sm d a n) s = execShli sm d a n s := rfl
theorem exec_shri (sm : Bool) (d : Fin 16) (a : Fin 16) (n : BitVec 6) (s : State) :
    exec (.shri sm d a n) s = execShri sm d a n s := rfl
theorem exec_sari (sm : Bool) (d : Fin 16) (a : Fin 16) (n : BitVec 6) (s : State) :
    exec (.sari sm d a n) s = execSari sm d a n s := rfl
theorem exec_cmpi (sm : Bool) (p : Fin 8) (c : Cond) (a : Fin 16) (i : BitVec 15) (s : State) :
    exec (.cmpi sm p c a i) s = execCmpi sm p c a i s := rfl
theorem exec_mul (sm : Bool) (d : Fin 16) (a : Fin 16) (b : Fin 16) (s : State) :
    exec (.mul sm d a b) s = execMul sm d a b s := rfl
theorem exec_mulh (sm : Bool) (d : Fin 16) (a : Fin 16) (b : Fin 16) (s : State) :
    exec (.mulh sm d a b) s = execMulh sm d a b s := rfl
theorem exec_mulhu (sm : Bool) (d : Fin 16) (a : Fin 16) (b : Fin 16) (s : State) :
    exec (.mulhu sm d a b) s = execMulhu sm d a b s := rfl
theorem exec_mulw (sm : Bool) (d : Fin 16) (a : Fin 16) (b : Fin 16) (s : State) :
    exec (.mulw sm d a b) s = execMulw sm d a b s := rfl
theorem exec_div (sm : Bool) (d : Fin 16) (a : Fin 16) (b : Fin 16) (s : State) :
    exec (.div sm d a b) s = execDiv sm d a b s := rfl
theorem exec_divu (sm : Bool) (d : Fin 16) (a : Fin 16) (b : Fin 16) (s : State) :
    exec (.divu sm d a b) s = execDivu sm d a b s := rfl
theorem exec_rem (sm : Bool) (d : Fin 16) (a : Fin 16) (b : Fin 16) (s : State) :
    exec (.rem sm d a b) s = execRem sm d a b s := rfl
theorem exec_remu (sm : Bool) (d : Fin 16) (a : Fin 16) (b : Fin 16) (s : State) :
    exec (.remu sm d a b) s = execRemu sm d a b s := rfl
theorem exec_clz (sm : Bool) (d : Fin 16) (a : Fin 16) (s : State) :
    exec (.clz sm d a) s = execClz sm d a s := rfl
theorem exec_ctz (sm : Bool) (d : Fin 16) (a : Fin 16) (s : State) :
    exec (.ctz sm d a) s = execCtz sm d a s := rfl
theorem exec_popc (sm : Bool) (d : Fin 16) (a : Fin 16) (s : State) :
    exec (.popc sm d a) s = execPopc sm d a s := rfl
theorem exec_bswap (sm : Bool) (d : Fin 16) (a : Fin 16) (s : State) :
    exec (.bswap sm d a) s = execBswap sm d a s := rfl
theorem exec_bfx (sm : Bool) (d : Fin 16) (a : Fin 16) (b : Fin 16) (s : State) :
    exec (.bfx sm d a b) s = execBfx sm d a b s := rfl
theorem exec_bfxu (sm : Bool) (d : Fin 16) (a : Fin 16) (b : Fin 16) (s : State) :
    exec (.bfxu sm d a b) s = execBfxu sm d a b s := rfl
theorem exec_bfi (sm : Bool) (d : Fin 16) (a : Fin 16) (b : Fin 16) (s : State) :
    exec (.bfi sm d a b) s = execBfi sm d a b s := rfl
theorem exec_cmp (sm : Bool) (d : Fin 8) (a : Fin 16) (b : Fin 16) (c : Cond) (s : State) :
    exec (.cmp sm d a b c) s = execCmp sm d a b c s := rfl
theorem exec_test (sm : Bool) (d : Fin 8) (a : Fin 16) (b : Fin 16) (c : Bool) (s : State) :
    exec (.test sm d a b c) s = execTest sm d a b c s := rfl
theorem exec_sel (sm : Bool) (d : Fin 16) (a : Fin 16) (b : Fin 16) (k : Fin 8) (s : State) :
    exec (.sel sm d a b k) s = execSel sm d a b k s := rfl
theorem exec_pand (sm : Bool) (d : Fin 8) (a : Fin 8) (b : Fin 8) (s : State) :
    exec (.pand sm d a b) s = execPand sm d a b s := rfl
theorem exec_por (sm : Bool) (d : Fin 8) (a : Fin 8) (b : Fin 8) (s : State) :
    exec (.por sm d a b) s = execPor sm d a b s := rfl
theorem exec_pxor (sm : Bool) (d : Fin 8) (a : Fin 8) (b : Fin 8) (s : State) :
    exec (.pxor sm d a b) s = execPxor sm d a b s := rfl
theorem exec_pnot (sm : Bool) (d : Fin 8) (a : Fin 8) (s : State) :
    exec (.pnot sm d a) s = execPnot sm d a s := rfl
theorem exec_pget (sm : Bool) (d : Fin 16) (s : State) :
    exec (.pget sm d) s = execPget sm d s := rfl
theorem exec_pset (sm : Bool) (a : Fin 16) (s : State) :
    exec (.pset sm a) s = execPset sm a s := rfl
theorem exec_ld (sm : Bool) (d : Fin 16) (a : Fin 16) (z : Size) (x : Bool) (o : MOrd) (f : BitVec 12) (s : State) :
    exec (.ld sm d a z x o f) s = execLd sm d a z x o f s := rfl
theorem exec_st (sm : Bool) (d : Fin 16) (a : Fin 16) (z : Size) (o : MOrd) (f : BitVec 12) (s : State) :
    exec (.st sm d a z o f) s = execSt sm d a z o f s := rfl
theorem exec_aadd (sm : Bool) (d : Fin 16) (a : Fin 16) (b : Fin 16) (c : Scope) (o : Order) (z : Bool) (s : State) :
    exec (.aadd sm d a b c o z) s = execAadd sm d a b c o z s := rfl
theorem exec_aand (sm : Bool) (d : Fin 16) (a : Fin 16) (b : Fin 16) (c : Scope) (o : Order) (z : Bool) (s : State) :
    exec (.aand sm d a b c o z) s = execAand sm d a b c o z s := rfl
theorem exec_aor (sm : Bool) (d : Fin 16) (a : Fin 16) (b : Fin 16) (c : Scope) (o : Order) (z : Bool) (s : State) :
    exec (.aor sm d a b c o z) s = execAor sm d a b c o z s := rfl
theorem exec_axor (sm : Bool) (d : Fin 16) (a : Fin 16) (b : Fin 16) (c : Scope) (o : Order) (z : Bool) (s : State) :
    exec (.axor sm d a b c o z) s = execAxor sm d a b c o z s := rfl
theorem exec_amin (sm : Bool) (d : Fin 16) (a : Fin 16) (b : Fin 16) (c : Scope) (o : Order) (z : Bool) (s : State) :
    exec (.amin sm d a b c o z) s = execAmin sm d a b c o z s := rfl
theorem exec_amax (sm : Bool) (d : Fin 16) (a : Fin 16) (b : Fin 16) (c : Scope) (o : Order) (z : Bool) (s : State) :
    exec (.amax sm d a b c o z) s = execAmax sm d a b c o z s := rfl
theorem exec_aminu (sm : Bool) (d : Fin 16) (a : Fin 16) (b : Fin 16) (c : Scope) (o : Order) (z : Bool) (s : State) :
    exec (.aminu sm d a b c o z) s = execAminu sm d a b c o z s := rfl
theorem exec_amaxu (sm : Bool) (d : Fin 16) (a : Fin 16) (b : Fin 16) (c : Scope) (o : Order) (z : Bool) (s : State) :
    exec (.amaxu sm d a b c o z) s = execAmaxu sm d a b c o z s := rfl
theorem exec_aswp (sm : Bool) (d : Fin 16) (a : Fin 16) (b : Fin 16) (c : Scope) (o : Order) (z : Bool) (s : State) :
    exec (.aswp sm d a b c o z) s = execAswp sm d a b c o z s := rfl
theorem exec_acas (sm : Bool) (d : Fin 16) (a : Fin 16) (b : Fin 16) (c : Scope) (o : Order) (z : Bool) (s : State) :
    exec (.acas sm d a b c o z) s = execAcas sm d a b c o z s := rfl
theorem exec_aincb (sm : Bool) (d : Fin 16) (a : Fin 16) (b : Fin 16) (c : Scope) (o : Order) (z : Bool) (s : State) :
    exec (.aincb sm d a b c o z) s = execAincb sm d a b c o z s := rfl
theorem exec_afadd (sm : Bool) (d : Fin 16) (a : Fin 16) (b : Fin 16) (c : Scope) (o : Order) (s : State) :
    exec (.afadd sm d a b c o) s = execAfadd sm d a b c o s := rfl
theorem exec_afmax (sm : Bool) (d : Fin 16) (a : Fin 16) (b : Fin 16) (c : Scope) (o : Order) (s : State) :
    exec (.afmax sm d a b c o) s = execAfmax sm d a b c o s := rfl
theorem exec_ldfe (sm : Bool) (d : Fin 16) (a : Fin 16) (s : State) :
    exec (.ldfe sm d a) s = execLdfe sm d a s := rfl
theorem exec_ldff (sm : Bool) (d : Fin 16) (a : Fin 16) (s : State) :
    exec (.ldff sm d a) s = execLdff sm d a s := rfl
theorem exec_stfe (sm : Bool) (d : Fin 16) (a : Fin 16) (s : State) :
    exec (.stfe sm d a) s = execStfe sm d a s := rfl
theorem exec_stef (sm : Bool) (d : Fin 16) (a : Fin 16) (s : State) :
    exec (.stef sm d a) s = execStef sm d a s := rfl
theorem exec_fen (sm : Bool) (a : Fin 16) (b : Fin 16) (s : State) :
    exec (.fen sm a b) s = execFen sm a b s := rfl
theorem exec_fstat (sm : Bool) (d : Fin 16) (a : Fin 16) (s : State) :
    exec (.fstat sm d a) s = execFstat sm d a s := rfl
theorem exec_remp (sm : Bool) (d : Fin 16) (s : State) :
    exec (.remp sm d) s = execRemp sm d s := rfl
theorem exec_bp (sm : Bool) (p : Fin 8) (f : BitVec 18) (s : State) :
    exec (.bp sm p f) s = execBp sm p f s := rfl
theorem exec_bnp (sm : Bool) (p : Fin 8) (f : BitVec 18) (s : State) :
    exec (.bnp sm p f) s = execBnp sm p f s := rfl
theorem exec_bz (sm : Bool) (k : Fin 16) (f : BitVec 18) (s : State) :
    exec (.bz sm k f) s = execBz sm k f s := rfl
theorem exec_bnz (sm : Bool) (k : Fin 16) (f : BitVec 18) (s : State) :
    exec (.bnz sm k f) s = execBnz sm k f s := rfl
theorem exec_dbnz (sm : Bool) (k : Fin 16) (f : BitVec 18) (s : State) :
    exec (.dbnz sm k f) s = execDbnz sm k f s := rfl
theorem exec_j (sm : Bool) (f : BitVec 25) (s : State) :
    exec (.j sm f) s = execJ sm f s := rfl
theorem exec_jal (sm : Bool) (f : BitVec 25) (s : State) :
    exec (.jal sm f) s = execJal sm f s := rfl
theorem exec_jr (sm : Bool) (a : Fin 16) (s : State) :
    exec (.jr sm a) s = execJr sm a s := rfl
theorem exec_jalr (sm : Bool) (a : Fin 16) (s : State) :
    exec (.jalr sm a) s = execJalr sm a s := rfl
theorem exec_spawn (sm : Bool) (d : Fin 16) (a : Fin 16) (s : State) :
    exec (.spawn sm d a) s = execSpawn sm d a s := rfl
theorem exec_spawnn (sm : Bool) (d : Fin 16) (a : Fin 16) (s : State) :
    exec (.spawnn sm d a) s = execSpawnn sm d a s := rfl
theorem exec_join (sm : Bool) (d : Fin 16) (a : Fin 16) (s : State) :
    exec (.join sm d a) s = execJoin sm d a s := rfl
theorem exec_jtest (sm : Bool) (d : Fin 16) (a : Fin 16) (s : State) :
    exec (.jtest sm d a) s = execJtest sm d a s := rfl
theorem exec_spabort (sm : Bool) (a : Fin 16) (s : State) :
    exec (.spabort sm a) s = execSpabort sm a s := rfl
theorem exec_tres (sm : Bool) (d : Fin 16) (a : Fin 16) (b : Fin 16) (k : Bool) (s : State) :
    exec (.tres sm d a b k) s = execTres sm d a b k s := rfl
theorem exec_psm (sm : Bool) (d : Fin 16) (a : Fin 16) (z : Fin 16) (o : Order) (s : State) :
    exec (.psm sm d a z o) s = execPsm sm d a z o s := rfl
theorem exec_psmb (sm : Bool) (d : Fin 16) (a : Fin 16) (z : Fin 16) (k : Fin 8) (o : Order) (s : State) :
    exec (.psmb sm d a z k o) s = execPsmb sm d a z k o s := rfl
theorem exec_zset (sm : Bool) (a : Fin 16) (z : Fin 16) (o : Order) (s : State) :
    exec (.zset sm a z o) s = execZset sm a z o s := rfl
theorem exec_zget (sm : Bool) (d : Fin 16) (z : Fin 16) (o : Order) (s : State) :
    exec (.zget sm d z o) s = execZget sm d z o s := rfl
theorem exec_done (sm : Bool) (s : State) :
    exec (.done sm) s = execDone sm s := rfl
theorem exec_yield (sm : Bool) (s : State) :
    exec (.yield sm) s = execYield sm s := rfl
theorem exec_go (sm : Bool) (a : Fin 16) (s : State) :
    exec (.go sm a) s = execGo sm a s := rfl
theorem exec_goh (sm : Bool) (a : Fin 16) (s : State) :
    exec (.goh sm a) s = execGoh sm a s := rfl
theorem exec_gohome (sm : Bool) (s : State) :
    exec (.gohome sm) s = execGohome sm s := rfl
theorem exec_sleep (sm : Bool) (a : Fin 16) (b : Fin 16) (s : State) :
    exec (.sleep sm a b) s = execSleep sm a b s := rfl
theorem exec_fence (sm : Bool) (c : Scope) (o : Order) (s : State) :
    exec (.fence sm c o) s = execFence sm c o s := rfl
theorem exec_fpush (sm : Bool) (s : State) :
    exec (.fpush sm) s = execFpush sm s := rfl
theorem exec_fwait (sm : Bool) (s : State) :
    exec (.fwait sm) s = execFwait sm s := rfl
theorem exec_xbeg (sm : Bool) (d : Fin 16) (s : State) :
    exec (.xbeg sm d) s = execXbeg sm d s := rfl
theorem exec_xcom (sm : Bool) (s : State) :
    exec (.xcom sm) s = execXcom sm s := rfl
theorem exec_xabt (sm : Bool) (a : Fin 16) (s : State) :
    exec (.xabt sm a) s = execXabt sm a s := rfl
theorem exec_vadd (sm : Bool) (d : Fin 16) (a : Fin 16) (b : Fin 16) (m : Fin 8) (x : Bool) (s : State) :
    exec (.vadd sm d a b m x) s = execVadd sm d a b m x s := rfl
theorem exec_vsub (sm : Bool) (d : Fin 16) (a : Fin 16) (b : Fin 16) (m : Fin 8) (x : Bool) (s : State) :
    exec (.vsub sm d a b m x) s = execVsub sm d a b m x s := rfl
theorem exec_vmul (sm : Bool) (d : Fin 16) (a : Fin 16) (b : Fin 16) (m : Fin 8) (x : Bool) (s : State) :
    exec (.vmul sm d a b m x) s = execVmul sm d a b m x s := rfl
theorem exec_vmulh (sm : Bool) (d : Fin 16) (a : Fin 16) (b : Fin 16) (m : Fin 8) (x : Bool) (s : State) :
    exec (.vmulh sm d a b m x) s = execVmulh sm d a b m x s := rfl
theorem exec_vmin (sm : Bool) (d : Fin 16) (a : Fin 16) (b : Fin 16) (m : Fin 8) (x : Bool) (s : State) :
    exec (.vmin sm d a b m x) s = execVmin sm d a b m x s := rfl
theorem exec_vmax (sm : Bool) (d : Fin 16) (a : Fin 16) (b : Fin 16) (m : Fin 8) (x : Bool) (s : State) :
    exec (.vmax sm d a b m x) s = execVmax sm d a b m x s := rfl
theorem exec_vabs (sm : Bool) (d : Fin 16) (a : Fin 16) (m : Fin 8) (s : State) :
    exec (.vabs sm d a m) s = execVabs sm d a m s := rfl
theorem exec_vneg (sm : Bool) (d : Fin 16) (a : Fin 16) (m : Fin 8) (s : State) :
    exec (.vneg sm d a m) s = execVneg sm d a m s := rfl
theorem exec_vaddsat (sm : Bool) (d : Fin 16) (a : Fin 16) (b : Fin 16) (m : Fin 8) (x : Bool) (s : State) :
    exec (.vaddsat sm d a b m x) s = execVaddsat sm d a b m x s := rfl
theorem exec_vsubsat (sm : Bool) (d : Fin 16) (a : Fin 16) (b : Fin 16) (m : Fin 8) (x : Bool) (s : State) :
    exec (.vsubsat sm d a b m x) s = execVsubsat sm d a b m x s := rfl
theorem exec_vsqrt (sm : Bool) (d : Fin 16) (a : Fin 16) (m : Fin 8) (s : State) :
    exec (.vsqrt sm d a m) s = execVsqrt sm d a m s := rfl
theorem exec_vrcp (sm : Bool) (d : Fin 16) (a : Fin 16) (m : Fin 8) (s : State) :
    exec (.vrcp sm d a m) s = execVrcp sm d a m s := rfl
theorem exec_vrsq (sm : Bool) (d : Fin 16) (a : Fin 16) (m : Fin 8) (s : State) :
    exec (.vrsq sm d a m) s = execVrsq sm d a m s := rfl
theorem exec_vexp2 (sm : Bool) (d : Fin 16) (a : Fin 16) (m : Fin 8) (s : State) :
    exec (.vexp2 sm d a m) s = execVexp2 sm d a m s := rfl
theorem exec_vand (sm : Bool) (d : Fin 16) (a : Fin 16) (b : Fin 16) (m : Fin 8) (x : Bool) (s : State) :
    exec (.vand sm d a b m x) s = execVand sm d a b m x s := rfl
theorem exec_vor (sm : Bool) (d : Fin 16) (a : Fin 16) (b : Fin 16) (m : Fin 8) (x : Bool) (s : State) :
    exec (.vor sm d a b m x) s = execVor sm d a b m x s := rfl
theorem exec_vxor (sm : Bool) (d : Fin 16) (a : Fin 16) (b : Fin 16) (m : Fin 8) (x : Bool) (s : State) :
    exec (.vxor sm d a b m x) s = execVxor sm d a b m x s := rfl
theorem exec_vandn (sm : Bool) (d : Fin 16) (a : Fin 16) (b : Fin 16) (m : Fin 8) (x : Bool) (s : State) :
    exec (.vandn sm d a b m x) s = execVandn sm d a b m x s := rfl
theorem exec_vshl (sm : Bool) (d : Fin 16) (a : Fin 16) (b : Fin 16) (m : Fin 8) (x : Bool) (s : State) :
    exec (.vshl sm d a b m x) s = execVshl sm d a b m x s := rfl
theorem exec_vshr (sm : Bool) (d : Fin 16) (a : Fin 16) (b : Fin 16) (m : Fin 8) (x : Bool) (s : State) :
    exec (.vshr sm d a b m x) s = execVshr sm d a b m x s := rfl
theorem exec_vsar (sm : Bool) (d : Fin 16) (a : Fin 16) (b : Fin 16) (m : Fin 8) (x : Bool) (s : State) :
    exec (.vsar sm d a b m x) s = execVsar sm d a b m x s := rfl
theorem exec_vclz (sm : Bool) (d : Fin 16) (a : Fin 16) (m : Fin 8) (s : State) :
    exec (.vclz sm d a m) s = execVclz sm d a m s := rfl
theorem exec_vpopc (sm : Bool) (d : Fin 16) (a : Fin 16) (m : Fin 8) (s : State) :
    exec (.vpopc sm d a m) s = execVpopc sm d a m s := rfl
theorem exec_vfma (sm : Bool) (d : Fin 16) (a : Fin 16) (b : Fin 16) (m : Fin 8) (s : State) :
    exec (.vfma sm d a b m) s = execVfma sm d a b m s := rfl
theorem exec_vfms (sm : Bool) (d : Fin 16) (a : Fin 16) (b : Fin 16) (m : Fin 8) (s : State) :
    exec (.vfms sm d a b m) s = execVfms sm d a b m s := rfl
theorem exec_vfnma (sm : Bool) (d : Fin 16) (a : Fin 16) (b : Fin 16) (m : Fin 8) (s : State) :
    exec (.vfnma sm d a b m) s = execVfnma sm d a b m s := rfl
theorem exec_vfnms (sm : Bool) (d : Fin 16) (a : Fin 16) (b : Fin 16) (m : Fin 8) (s : State) :
    exec (.vfnms sm d a b m) s = execVfnms sm d a b m s := rfl
theorem exec_vdot2 (sm : Bool) (d : Fin 16) (a : Fin 16) (b : Fin 16) (m : Fin 8) (s : State) :
    exec (.vdot2 sm d a b m) s = execVdot2 sm d a b m s := rfl
theorem exec_vdot4 (sm : Bool) (d : Fin 16) (a : Fin 16) (b : Fin 16) (m : Fin 8) (s : State) :
    exec (.vdot4 sm d a b m) s = execVdot4 sm d a b m s := rfl
theorem exec_vcmp (sm : Bool) (d : Fin 8) (a : Fin 16) (b : Fin 16) (m : Fin 8) (x : Bool) (c : Cond) (s : State) :
    exec (.vcmp sm d a b m x c) s = execVcmp sm d a b m x c s := rfl
theorem exec_vclass (sm : Bool) (d : Fin 8) (a : Fin 16) (m : Fin 8) (k : VClass) (s : State) :
    exec (.vclass sm d a m k) s = execVclass sm d a m k s := rfl
theorem exec_vsel (sm : Bool) (d : Fin 16) (a : Fin 16) (b : Fin 16) (k : Fin 8) (s : State) :
    exec (.vsel sm d a b k) s = execVsel sm d a b k s := rfl
theorem exec_mand (sm : Bool) (d : Fin 8) (a : Fin 8) (b : Fin 8) (s : State) :
    exec (.mand sm d a b) s = execMand sm d a b s := rfl
theorem exec_mor (sm : Bool) (d : Fin 8) (a : Fin 8) (b : Fin 8) (s : State) :
    exec (.mor sm d a b) s = execMor sm d a b s := rfl
theorem exec_mnot (sm : Bool) (d : Fin 8) (a : Fin 8) (s : State) :
    exec (.mnot sm d a) s = execMnot sm d a s := rfl
theorem exec_mcount (sm : Bool) (d : Fin 16) (a : Fin 8) (s : State) :
    exec (.mcount sm d a) s = execMcount sm d a s := rfl
theorem exec_mfirst (sm : Bool) (d : Fin 16) (a : Fin 8) (s : State) :
    exec (.mfirst sm d a) s = execMfirst sm d a s := rfl
theorem exec_vbcast (sm : Bool) (d : Fin 16) (a : Fin 16) (m : Fin 8) (t : Tag) (s : State) :
    exec (.vbcast sm d a m t) s = execVbcast sm d a m t s := rfl
theorem exec_vins (sm : Bool) (d : Fin 16) (a : Fin 16) (b : Fin 16) (s : State) :
    exec (.vins sm d a b) s = execVins sm d a b s := rfl
theorem exec_vext (sm : Bool) (d : Fin 16) (a : Fin 16) (b : Fin 16) (s : State) :
    exec (.vext sm d a b) s = execVext sm d a b s := rfl
theorem exec_vperm (sm : Bool) (d : Fin 16) (a : Fin 16) (b : Fin 16) (m : Fin 8) (s : State) :
    exec (.vperm sm d a b m) s = execVperm sm d a b m s := rfl
theorem exec_vcompress (sm : Bool) (d : Fin 16) (a : Fin 16) (m : Fin 8) (s : State) :
    exec (.vcompress sm d a m) s = execVcompress sm d a m s := rfl
theorem exec_vexpand (sm : Bool) (d : Fin 16) (a : Fin 16) (m : Fin 8) (s : State) :
    exec (.vexpand sm d a m) s = execVexpand sm d a m s := rfl
theorem exec_vredadd (sm : Bool) (d : Fin 16) (a : Fin 16) (m : Fin 8) (s : State) :
    exec (.vredadd sm d a m) s = execVredadd sm d a m s := rfl
theorem exec_vredmax (sm : Bool) (d : Fin 16) (a : Fin 16) (m : Fin 8) (s : State) :
    exec (.vredmax sm d a m) s = execVredmax sm d a m s := rfl
theorem exec_vredmin (sm : Bool) (d : Fin 16) (a : Fin 16) (m : Fin 8) (s : State) :
    exec (.vredmin sm d a m) s = execVredmin sm d a m s := rfl
theorem exec_vscan (sm : Bool) (d : Fin 16) (a : Fin 16) (m : Fin 8) (x : Bool) (s : State) :
    exec (.vscan sm d a m x) s = execVscan sm d a m x s := rfl
theorem exec_vcvt (sm : Bool) (d : Fin 16) (a : Fin 16) (p : Fin 8) (m : Fin 8) (f : Tag) (s : State) :
    exec (.vcvt sm d a p m f) s = execVcvt sm d a p m f s := rfl
theorem exec_vquant (sm : Bool) (d : Fin 16) (a : Fin 16) (p : Fin 4) (f : Bool) (s : State) :
    exec (.vquant sm d a p f) s = execVquant sm d a p f s := rfl
theorem exec_vdequant (sm : Bool) (d : Fin 16) (a : Fin 16) (p : Fin 8) (m : Fin 8) (f : Tag) (s : State) :
    exec (.vdequant sm d a p m f) s = execVdequant sm d a p m f s := rfl
theorem exec_vtag (sm : Bool) (d : Fin 16) (a : Fin 16) (t : Tag) (s : State) :
    exec (.vtag sm d a t) s = execVtag sm d a t s := rfl
theorem exec_vseed (sm : Bool) (d : Fin 16) (m : Fin 8) (s : State) :
    exec (.vseed sm d m) s = execVseed sm d m s := rfl
theorem exec_vld (sm : Bool) (d : Fin 16) (a : Fin 16) (m : Fin 8) (f : Tag) (o : BitVec 7) (s : State) :
    exec (.vld sm d a m f o) s = execVld sm d a m f o s := rfl
theorem exec_vst (sm : Bool) (d : Fin 16) (a : Fin 16) (m : Fin 8) (f : Tag) (o : BitVec 7) (s : State) :
    exec (.vst sm d a m f o) s = execVst sm d a m f o s := rfl
theorem exec_vldbc (sm : Bool) (d : Fin 16) (a : Fin 16) (m : Fin 8) (f : Tag) (o : BitVec 7) (s : State) :
    exec (.vldbc sm d a m f o) s = execVldbc sm d a m f o s := rfl
theorem exec_vlds (sm : Bool) (d : Fin 16) (a : Fin 16) (m : Fin 8) (f : Tag) (o : BitVec 7) (s : State) :
    exec (.vlds sm d a m f o) s = execVlds sm d a m f o s := rfl
theorem exec_vsts (sm : Bool) (d : Fin 16) (a : Fin 16) (m : Fin 8) (f : Tag) (o : BitVec 7) (s : State) :
    exec (.vsts sm d a m f o) s = execVsts sm d a m f o s := rfl
theorem exec_vgat (sm : Bool) (d : Fin 16) (a : Fin 16) (b : Fin 16) (m : Fin 8) (t : Tag) (s : State) :
    exec (.vgat sm d a b m t) s = execVgat sm d a b m t s := rfl
theorem exec_vsct (sm : Bool) (d : Fin 16) (a : Fin 16) (b : Fin 16) (m : Fin 8) (s : State) :
    exec (.vsct sm d a b m) s = execVsct sm d a b m s := rfl
theorem exec_vsctadd (sm : Bool) (d : Fin 16) (a : Fin 16) (b : Fin 16) (m : Fin 8) (s : State) :
    exec (.vsctadd sm d a b m) s = execVsctadd sm d a b m s := rfl
theorem exec_hsift (sm : Bool) (d : Fin 16) (a : Fin 16) (b : Fin 16) (k : Fin 16) (s : State) :
    exec (.hsift sm d a b k) s = execHsift sm d a b k s := rfl
theorem exec_tstep (sm : Bool) (d : Fin 16) (a : Fin 16) (b : Fin 16) (p : Fin 8) (s : State) :
    exec (.tstep sm d a b p) s = execTstep sm d a b p s := rfl
theorem exec_dgi (sm : Bool) (d : Fin 16) (a : Fin 16) (r : Bool) (s : State) :
    exec (.dgi sm d a r) s = execDgi sm d a r s := rfl
theorem exec_dga (sm : Bool) (a : Fin 16) (n : Fin 8) (s : State) :
    exec (.dga sm a n) s = execDga sm a n s := rfl
theorem exec_dgo (sm : Bool) (d : Fin 16) (r : Bool) (s : State) :
    exec (.dgo sm d r) s = execDgo sm d r s := rfl
theorem exec_dglog (sm : Bool) (a : Fin 16) (b : Fin 16) (s : State) :
    exec (.dglog sm a b) s = execDglog sm a b s := rfl
theorem exec_mxcfg (sm : Bool) (a : Fin 16) (x : Bool) (s : State) :
    exec (.mxcfg sm a x) s = execMxcfg sm a x s := rfl
theorem exec_mxzero (sm : Bool) (d : Fin 16) (n : Bool) (s : State) :
    exec (.mxzero sm d n) s = execMxzero sm d n s := rfl
theorem exec_mxrel (sm : Bool) (s : State) :
    exec (.mxrel sm) s = execMxrel sm s := rfl
theorem exec_mxsave (sm : Bool) (d : Fin 16) (a : Fin 16) (n : Bool) (s : State) :
    exec (.mxsave sm d a n) s = execMxsave sm d a n s := rfl
theorem exec_mxrest (sm : Bool) (d : Fin 16) (a : Fin 16) (n : Bool) (s : State) :
    exec (.mxrest sm d a n) s = execMxrest sm d a n s := rfl
theorem exec_mxmm (sm : Bool) (d : Fin 16) (a : Fin 16) (b : Fin 16) (q : Fin 4) (p : Bool) (z : Bool) (n : Bool) (s : State) :
    exec (.mxmm sm d a b q p z n) s = execMxmm sm d a b q p z n s := rfl
theorem exec_mxmmg (sm : Bool) (d : Fin 16) (a : Fin 16) (b : Fin 16) (q : Fin 4) (p : Bool) (z : Bool) (n : Bool) (s : State) :
    exec (.mxmmg sm d a b q p z n) s = execMxmmg sm d a b q p z n s := rfl
theorem exec_mxmms (sm : Bool) (d : Fin 16) (a : Fin 16) (b : Fin 16) (q : Fin 4) (p : Bool) (z : Bool) (n : Bool) (s : State) :
    exec (.mxmms sm d a b q p z n) s = execMxmms sm d a b q p z n s := rfl
theorem exec_mxmmgs (sm : Bool) (d : Fin 16) (a : Fin 16) (b : Fin 16) (q : Fin 4) (p : Bool) (z : Bool) (n : Bool) (s : State) :
    exec (.mxmmgs sm d a b q p z n) s = execMxmmgs sm d a b q p z n s := rfl
theorem exec_mxst (sm : Bool) (d : Fin 16) (a : Fin 16) (f : BitVec 4) (q : Fin 4) (p : Bool) (n : Bool) (s : State) :
    exec (.mxst sm d a f q p n) s = execMxst sm d a f q p n s := rfl
theorem exec_mxstq (sm : Bool) (d : Fin 16) (a : Fin 16) (f : BitVec 4) (q : Fin 4) (p : Bool) (n : Bool) (s : State) :
    exec (.mxstq sm d a f q p n) s = execMxstq sm d a f q p n s := rfl
theorem exec_mxscale (sm : Bool) (d : Fin 16) (a : Fin 16) (q : Fin 4) (p : Bool) (n : Bool) (s : State) :
    exec (.mxscale sm d a q p n) s = execMxscale sm d a q p n s := rfl
theorem exec_qset (sm : Bool) (d : Fin 4) (a : Fin 16) (s : State) :
    exec (.qset sm d a) s = execQset sm d a s := rfl
theorem exec_qclr (sm : Bool) (d : Fin 4) (a : Fin 16) (s : State) :
    exec (.qclr sm d a) s = execQclr sm d a s := rfl
theorem exec_qld (sm : Bool) (d : Fin 4) (a : Fin 16) (s : State) :
    exec (.qld sm d a) s = execQld sm d a s := rfl
theorem exec_qst (sm : Bool) (d : Fin 4) (a : Fin 16) (s : State) :
    exec (.qst sm d a) s = execQst sm d a s := rfl
theorem exec_qtest (sm : Bool) (d : Fin 8) (a : Fin 4) (b : Fin 16) (s : State) :
    exec (.qtest sm d a b) s = execQtest sm d a b s := rfl
theorem exec_pgld (sm : Bool) (d : Fin 16) (a : Fin 16) (b : Fin 16) (r : Bool) (s : State) :
    exec (.pgld sm d a b r) s = execPgld sm d a b r s := rfl
theorem exec_pgset (sm : Bool) (a : Fin 16) (b : Fin 16) (s : State) :
    exec (.pgset sm a b) s = execPgset sm a b s := rfl
theorem exec_pgrun (sm : Bool) (d : Fin 16) (a : Fin 16) (b : Fin 16) (s : State) :
    exec (.pgrun sm d a b) s = execPgrun sm d a b s := rfl
theorem exec_pgrel (sm : Bool) (s : State) :
    exec (.pgrel sm) s = execPgrel sm s := rfl
theorem exec_pginv (sm : Bool) (d : Fin 16) (a : Fin 16) (s : State) :
    exec (.pginv sm d a) s = execPginv sm d a s := rfl
theorem exec_csetReg (d : Fin 8) (a : Src) (s : State) :
    exec (.csetReg d a) s = execCsetReg d a s := rfl
theorem exec_csetImm (d : Fin 8) (i : BitVec 17) (s : State) :
    exec (.csetImm d i) s = execCsetImm d i s := rfl
theorem exec_caddReg (d : Fin 8) (a : Src) (n : Bool) (b : Src) (s : State) :
    exec (.caddReg d a n b) s = execCaddReg d a n b s := rfl
theorem exec_caddImm (d : Fin 8) (a : Src) (n : Bool) (i : BitVec 17) (s : State) :
    exec (.caddImm d a n i) s = execCaddImm d a n i s := rfl
theorem exec_cmulReg (d : Fin 8) (a : Src) (b : Src) (s : State) :
    exec (.cmulReg d a b) s = execCmulReg d a b s := rfl
theorem exec_cmulImm (d : Fin 8) (a : Src) (i : BitVec 17) (s : State) :
    exec (.cmulImm d a i) s = execCmulImm d a i s := rfl
theorem exec_cdivReg (d : Fin 8) (a : Src) (b : Src) (s : State) :
    exec (.cdivReg d a b) s = execCdivReg d a b s := rfl
theorem exec_cdivImm (d : Fin 8) (a : Src) (i : BitVec 17) (s : State) :
    exec (.cdivImm d a i) s = execCdivImm d a i s := rfl
theorem exec_cmodReg (d : Fin 8) (a : Src) (b : Src) (s : State) :
    exec (.cmodReg d a b) s = execCmodReg d a b s := rfl
theorem exec_cmodImm (d : Fin 8) (a : Src) (i : BitVec 17) (s : State) :
    exec (.cmodImm d a i) s = execCmodImm d a i s := rfl
theorem exec_chashReg (d : Fin 8) (a : Src) (b : Src) (s : State) :
    exec (.chashReg d a b) s = execChashReg d a b s := rfl
theorem exec_chashImm (d : Fin 8) (a : Src) (i : BitVec 17) (s : State) :
    exec (.chashImm d a i) s = execChashImm d a i s := rfl
theorem exec_cbr (c : Cond) (a : Src) (b : Src) (f : BitVec 14) (s : State) :
    exec (.cbr c a b f) s = execCbr c a b f s := rfl
theorem exec_cloop (d : Fin 8) (a : Src) (f : BitVec 14) (s : State) :
    exec (.cloop d a f) s = execCloop d a f s := rfl
theorem exec_cnextReg (d : Fin 8) (a : Src) (b : Src) (s : State) :
    exec (.cnextReg d a b) s = execCnextReg d a b s := rfl
theorem exec_cnextImm (d : Fin 8) (a : Src) (i : BitVec 17) (s : State) :
    exec (.cnextImm d a i) s = execCnextImm d a i s := rfl
theorem exec_cemitReg (d : Fin 8) (a : Src) (s : State) :
    exec (.cemitReg d a) s = execCemitReg d a s := rfl
theorem exec_cemitImm (d : Fin 8) (i : BitVec 17) (s : State) :
    exec (.cemitImm d i) s = execCemitImm d i s := rfl
theorem exec_crunReg (d : Fin 8) (a : Src) (b : Src) (s : State) :
    exec (.crunReg d a b) s = execCrunReg d a b s := rfl
theorem exec_crunImm (d : Fin 8) (a : Src) (i : BitVec 17) (s : State) :
    exec (.crunImm d a i) s = execCrunImm d a i s := rfl
theorem exec_ckronReg (d : Fin 8) (a : Src) (b : Src) (s : State) :
    exec (.ckronReg d a b) s = execCkronReg d a b s := rfl
theorem exec_ckronImm (d : Fin 8) (a : Src) (i : BitVec 17) (s : State) :
    exec (.ckronImm d a i) s = execCkronImm d a i s := rfl
theorem exec_cinv (s : State) :
    exec (.cinv) s = execCinv s := rfl
theorem exec_cstop (s : State) :
    exec (.cstop) s = execCstop s := rfl
theorem exec_send (sm : Bool) (d : Fin 16) (a : Fin 16) (b : Fin 16) (k : Bool) (s : State) :
    exec (.send sm d a b k) s = execSend sm d a b k s := rfl
theorem exec_sendm (sm : Bool) (d : Fin 16) (a : Fin 16) (b : Fin 16) (k : Bool) (s : State) :
    exec (.sendm sm d a b k) s = execSendm sm d a b k s := rfl
theorem exec_fetch (sm : Bool) (d : Fin 16) (a : Fin 16) (b : Fin 16) (s : State) :
    exec (.fetch sm d a b) s = execFetch sm d a b s := rfl
theorem exec_flush (sm : Bool) (d : Fin 16) (a : Fin 16) (b : Fin 16) (k : Bool) (s : State) :
    exec (.flush sm d a b k) s = execFlush sm d a b k s := rfl
theorem exec_sendg (sm : Bool) (d : Fin 16) (a : Fin 16) (b : Fin 16) (k : Bool) (s : State) :
    exec (.sendg sm d a b k) s = execSendg sm d a b k s := rfl
theorem exec_wmset (sm : Bool) (a : Fin 16) (b : Fin 16) (s : State) :
    exec (.wmset sm a b) s = execWmset sm a b s := rfl
theorem exec_wmget (sm : Bool) (d : Fin 16) (a : Fin 16) (s : State) :
    exec (.wmget sm d a) s = execWmget sm d a s := rfl
theorem exec_xgat (sm : Bool) (d : Fin 16) (a : Fin 16) (b : Fin 16) (w : Bool) (z : BitVec 7) (s : State) :
    exec (.xgat sm d a b w z) s = execXgat sm d a b w z s := rfl
theorem exec_xsct (sm : Bool) (d : Fin 16) (a : Fin 16) (b : Fin 16) (w : Bool) (z : BitVec 7) (s : State) :
    exec (.xsct sm d a b w z) s = execXsct sm d a b w z s := rfl
theorem exec_xsctadd (sm : Bool) (d : Fin 16) (a : Fin 16) (b : Fin 16) (w : Bool) (f : Bool) (z : BitVec 7) (s : State) :
    exec (.xsctadd sm d a b w f z) s = execXsctadd sm d a b w f z s := rfl
theorem exec_jwait (sm : Bool) (d : Fin 16) (a : Fin 16) (s : State) :
    exec (.jwait sm d a) s = execJwait sm d a s := rfl
theorem exec_jpoll (sm : Bool) (d : Fin 16) (a : Fin 16) (s : State) :
    exec (.jpoll sm d a) s = execJpoll sm d a s := rfl
theorem exec_lease (sm : Bool) (d : Fin 16) (a : Fin 16) (s : State) :
    exec (.lease sm d a) s = execLease sm d a s := rfl
theorem exec_unlease (sm : Bool) (d : Fin 16) (a : Fin 16) (s : State) :
    exec (.unlease sm d a) s = execUnlease sm d a s := rfl
theorem exec_pf (sm : Bool) (a : Fin 16) (s : State) :
    exec (.pf sm a) s = execPf sm a s := rfl
theorem exec_llcwb (sm : Bool) (d : Fin 16) (a : Fin 16) (s : State) :
    exec (.llcwb sm d a) s = execLlcwb sm d a s := rfl
theorem exec_pmig (sm : Bool) (d : Fin 16) (a : Fin 16) (x : Bool) (s : State) :
    exec (.pmig sm d a x) s = execPmig sm d a x s := rfl
theorem exec_nsend (sm : Bool) (d : Fin 16) (a : Fin 16) (s : State) :
    exec (.nsend sm d a) s = execNsend sm d a s := rfl
theorem exec_npoll (sm : Bool) (d : Fin 16) (a : Fin 16) (s : State) :
    exec (.npoll sm d a) s = execNpoll sm d a s := rfl
theorem exec_mfs (sm : Bool) (d : Fin 16) (n : BitVec 12) (s : State) :
    exec (.mfs sm d n) s = execMfs sm d n s := rfl
theorem exec_mts (sm : Bool) (a : Fin 16) (n : BitVec 12) (s : State) :
    exec (.mts sm a n) s = execMts sm a n s := rfl
theorem exec_ptbrWrite (x : Sec) (asid : BitVec 16) (v : BitVec 64) (s : State) :
    exec (.ptbrWrite x asid v) s = execPtbrWrite x asid v s := rfl
theorem exec_sysctlPmWrite (x : Sec) (tsel : BitVec 10) (pm : Bool) (all : Bool) (s : State) :
    exec (.sysctlPmWrite x tsel pm all) s = execSysctlPmWrite x tsel pm all s := rfl
theorem exec_progressModeApply (x : Sec) (cl : Fin 96) (co : Fin 8) (s : State) :
    exec (.progressModeApply x cl co) s = execProgressModeApply x cl co s := rfl
theorem exec_hxmboxLockRequest (x : Sec) (horizonToo : Bool) (s : State) :
    exec (.hxmboxLockRequest x horizonToo) s = execHxmboxLockRequest x horizonToo s := rfl
theorem exec_hxmboxLockRelease (x : Sec) (s : State) :
    exec (.hxmboxLockRelease x) s = execHxmboxLockRelease x s := rfl
theorem exec_hxmboxDbiClear (x : Sec) (s : State) :
    exec (.hxmboxDbiClear x) s = execHxmboxDbiClear x s := rfl
theorem exec_trap (sm : Bool) (n : BitVec 7) (s : State) :
    exec (.trap sm n) s = execTrap sm n s := rfl
theorem exec_eret (sm : Bool) (s : State) :
    exec (.eret sm) s = execEret sm s := rfl
theorem exec_wfi (sm : Bool) (s : State) :
    exec (.wfi sm) s = execWfi sm s := rfl
theorem exec_brk (sm : Bool) (n : BitVec 7) (s : State) :
    exec (.brk sm n) s = execBrk sm n s := rfl
theorem exec_tlbi (sm : Bool) (a : Fin 16) (b : Fin 16) (s : State) :
    exec (.tlbi sm a b) s = execTlbi sm a b s := rfl
theorem exec_tlbiAll (sm : Bool) (a : Fin 16) (s : State) :
    exec (.tlbiAll sm a) s = execTlbiAll sm a s := rfl
theorem exec_tlbsync (sm : Bool) (s : State) :
    exec (.tlbsync sm) s = execTlbsync sm s := rfl
theorem exec_seal (sm : Bool) (d : Fin 16) (a : Fin 16) (s : State) :
    exec (.seal sm d a) s = execSeal sm d a s := rfl
theorem exec_ipi (sm : Bool) (a : Fin 16) (b : Fin 16) (s : State) :
    exec (.ipi sm a b) s = execIpi sm a b s := rfl
theorem exec_dadd (sm : Bool) (d : Fin 16) (a : Fin 16) (b : Fin 16) (s : State) :
    exec (.dadd sm d a b) s = execDadd sm d a b s := rfl
theorem exec_dsub (sm : Bool) (d : Fin 16) (a : Fin 16) (b : Fin 16) (s : State) :
    exec (.dsub sm d a b) s = execDsub sm d a b s := rfl
theorem exec_dmul (sm : Bool) (d : Fin 16) (a : Fin 16) (b : Fin 16) (s : State) :
    exec (.dmul sm d a b) s = execDmul sm d a b s := rfl
theorem exec_ddiv (sm : Bool) (d : Fin 16) (a : Fin 16) (b : Fin 16) (s : State) :
    exec (.ddiv sm d a b) s = execDdiv sm d a b s := rfl
theorem exec_dfma (sm : Bool) (d : Fin 16) (a : Fin 16) (b : Fin 16) (s : State) :
    exec (.dfma sm d a b) s = execDfma sm d a b s := rfl
theorem exec_dsqrt (sm : Bool) (d : Fin 16) (a : Fin 16) (s : State) :
    exec (.dsqrt sm d a) s = execDsqrt sm d a s := rfl
theorem exec_dcmp (sm : Bool) (d : Fin 8) (a : Fin 16) (b : Fin 16) (c : Cond) (s : State) :
    exec (.dcmp sm d a b c) s = execDcmp sm d a b c s := rfl
theorem exec_dcvt (sm : Bool) (d : Fin 16) (a : Fin 16) (k : DcvtKind) (s : State) :
    exec (.dcvt sm d a k) s = execDcvt sm d a k s := rfl
theorem exec_vdfma (sm : Bool) (d : Fin 16) (a : Fin 16) (b : Fin 16) (m : Fin 8) (s : State) :
    exec (.vdfma sm d a b m) s = execVdfma sm d a b m s := rfl
theorem exec_fadd (sm : Bool) (d : Fin 16) (a : Fin 16) (b : Fin 16) (s : State) :
    exec (.fadd sm d a b) s = execFadd sm d a b s := rfl
theorem exec_fsub (sm : Bool) (d : Fin 16) (a : Fin 16) (b : Fin 16) (s : State) :
    exec (.fsub sm d a b) s = execFsub sm d a b s := rfl
theorem exec_fmul (sm : Bool) (d : Fin 16) (a : Fin 16) (b : Fin 16) (s : State) :
    exec (.fmul sm d a b) s = execFmul sm d a b s := rfl
theorem exec_fdiv (sm : Bool) (d : Fin 16) (a : Fin 16) (b : Fin 16) (s : State) :
    exec (.fdiv sm d a b) s = execFdiv sm d a b s := rfl
theorem exec_ffma (sm : Bool) (d : Fin 16) (a : Fin 16) (b : Fin 16) (s : State) :
    exec (.ffma sm d a b) s = execFfma sm d a b s := rfl
theorem exec_fmin (sm : Bool) (d : Fin 16) (a : Fin 16) (b : Fin 16) (s : State) :
    exec (.fmin sm d a b) s = execFmin sm d a b s := rfl
theorem exec_fmax (sm : Bool) (d : Fin 16) (a : Fin 16) (b : Fin 16) (s : State) :
    exec (.fmax sm d a b) s = execFmax sm d a b s := rfl
theorem exec_fabs (sm : Bool) (d : Fin 16) (a : Fin 16) (s : State) :
    exec (.fabs sm d a) s = execFabs sm d a s := rfl
theorem exec_fneg (sm : Bool) (d : Fin 16) (a : Fin 16) (s : State) :
    exec (.fneg sm d a) s = execFneg sm d a s := rfl
theorem exec_fsqrt (sm : Bool) (d : Fin 16) (a : Fin 16) (s : State) :
    exec (.fsqrt sm d a) s = execFsqrt sm d a s := rfl
theorem exec_fcmp (sm : Bool) (d : Fin 8) (a : Fin 16) (b : Fin 16) (c : Cond) (s : State) :
    exec (.fcmp sm d a b c) s = execFcmp sm d a b c s := rfl
theorem exec_fcvt (sm : Bool) (d : Fin 16) (a : Fin 16) (k : FcvtKind) (s : State) :
    exec (.fcvt sm d a k) s = execFcvt sm d a k s := rfl
theorem exec_himm (i : BitVec 21) (s : State) :
    exec (.himm i) s = execHimm i s := rfl
theorem exec_hloc (r : Fin 16) (c : Fin 4) (x : BitVec 15) (s : State) :
    exec (.hloc r c x) s = execHloc r c x s := rfl
theorem exec_hbr (h : Fin 4) (x : BitVec 19) (s : State) :
    exec (.hbr h x) s = execHbr h x s := rfl
theorem exec_hpri (x : BitVec 19) (c : Fin 4) (s : State) :
    exec (.hpri x c) s = execHpri x c s := rfl
theorem exec_hmu (k : BitVec 5) (a : BitVec 16) (s : State) :
    exec (.hmu k a) s = execHmu k a s := rfl
theorem exec_hintReserved (k : Fin 16) (x : BitVec 21) (s : State) :
    exec (.hintReserved k x) s = execHintReserved k x s := rfl
theorem exec_interruptTaken (x : Sec) (n : Fin 16) (s : State) :
    exec (.interruptTaken x n) s = execInterruptTaken x n s := rfl
theorem exec_watchdogExpire (x : Sec) (cl : Fin 96) (co : Fin 8) (s : State) :
    exec (.watchdogExpire x cl co) s = execWatchdogExpire x cl co s := rfl
theorem exec_registerFillWake (g : Agent) (s : State) :
    exec (.registerFillWake g) s = execRegisterFillWake g s := rfl
theorem exec_feWordWake (x : Sec) (cl : Fin 96) (word : Fin 262144) (s : State) :
    exec (.feWordWake x cl word) s = execFeWordWake x cl word s := rfl
theorem exec_watermarkWake (x : Sec) (cl : Fin 96) (s : State) :
    exec (.watermarkWake x cl) s = execWatermarkWake x cl s := rfl
theorem exec_sleepWake (g : Agent) (s : State) :
    exec (.sleepWake g) s = execSleepWake g s := rfl
theorem exec_joinComplete (g : Agent) (s : State) :
    exec (.joinComplete g) s = execJoinComplete g s := rfl
theorem exec_jwaitComplete (g : Agent) (s : State) :
    exec (.jwaitComplete g) s = execJwaitComplete g s := rfl
theorem exec_queueEntryFree (g : Agent) (s : State) :
    exec (.queueEntryFree g) s = execQueueEntryFree g s := rfl
theorem exec_poolEntryFree (x : Sec) (s : State) :
    exec (.poolEntryFree x) s = execPoolEntryFree x s := rfl
theorem exec_dSlotFree (x : Sec) (cl : Fin 96) (s : State) :
    exec (.dSlotFree x cl) s = execDSlotFree x cl s := rfl
theorem exec_depositArrive (id : Nat) (s : State) :
    exec (.depositArrive id) s = execDepositArrive id s := rfl
theorem exec_depositLand (id : Nat) (s : State) :
    exec (.depositLand id) s = execDepositLand id s := rfl
theorem exec_pushAccept (id : Nat) (s : State) :
    exec (.pushAccept id) s = execPushAccept id s := rfl
theorem exec_bankRead (id : Nat) (s : State) :
    exec (.bankRead id) s = execBankRead id s := rfl
theorem exec_bankWrite (id : Nat) (s : State) :
    exec (.bankWrite id) s = execBankWrite id s := rfl
theorem exec_bankAtomic (id : Nat) (s : State) :
    exec (.bankAtomic id) s = execBankAtomic id s := rfl
theorem exec_peerRequest (id : Nat) (s : State) :
    exec (.peerRequest id) s = execPeerRequest id s := rfl
theorem exec_zenithCycle (x : Sec) (uid : Nat) (z : Fin 16) (order : List Nat) (s : State) :
    exec (.zenithCycle x uid z order) s = execZenithCycle x uid z order s := rfl
theorem exec_drawRequest (g : Agent) (s : State) :
    exec (.drawRequest g) s = execDrawRequest g s := rfl
theorem exec_vtStart (g : Agent) (s : State) :
    exec (.vtStart g) s = execVtStart g s := rfl
theorem exec_indexAssign (x : Sec) (s : State) :
    exec (.indexAssign x) s = execIndexAssign x s := rfl
theorem exec_leaseResidencyCheck (x : Sec) (uid : Nat) (s : State) :
    exec (.leaseResidencyCheck x uid) s = execLeaseResidencyCheck x uid s := rfl
theorem exec_readyBroadcast (x : Sec) (uid : Nat) (s : State) :
    exec (.readyBroadcast x uid) s = execReadyBroadcast x uid s := rfl
theorem exec_contextChoose (g : Agent) (s : State) :
    exec (.contextChoose g) s = execContextChoose g s := rfl
theorem exec_residencyProbe (x : Sec) (uid : Nat) (s : State) :
    exec (.residencyProbe x uid) s = execResidencyProbe x uid s := rfl
theorem exec_instanceEnd (x : Sec) (uid : Nat) (s : State) :
    exec (.instanceEnd x uid) s = execInstanceEnd x uid s := rfl
theorem exec_engineStep (x : Sec) (cl : Fin 96) (s : State) :
    exec (.engineStep x cl) s = execEngineStep x cl s := rfl
theorem exec_matrixCommandComplete (x : Sec) (cl : Fin 96) (co : Fin 8) (s : State) :
    exec (.matrixCommandComplete x cl co) s = execMatrixCommandComplete x cl co s := rfl
theorem exec_accumulatorClaim (x : Sec) (home : Fin 6144) (slot : Fin 2) (s : State) :
    exec (.accumulatorClaim x home slot) s = execAccumulatorClaim x home slot s := rfl
theorem exec_copyCommandStart (x : Sec) (cl : Fin 96) (s : State) :
    exec (.copyCommandStart x cl) s = execCopyCommandStart x cl s := rfl
theorem exec_copyComplete (x : Sec) (cl : Fin 96) (id : Nat) (s : State) :
    exec (.copyComplete x cl id) s = execCopyComplete x cl id s := rfl
theorem exec_xgComplete (x : Sec) (id : Nat) (s : State) :
    exec (.xgComplete x id) s = execXgComplete x id s := rfl
theorem exec_jobComplete (x : Sec) (id : Nat) (s : State) :
    exec (.jobComplete x id) s = execJobComplete x id s := rfl
theorem exec_detachedJobEnd (x : Sec) (id : Nat) (s : State) :
    exec (.detachedJobEnd x id) s = execDetachedJobEnd x id s := rfl
theorem exec_ringReservation (x : Sec) (cl : Fin 96) (id : Nat) (s : State) :
    exec (.ringReservation x cl id) s = execRingReservation x cl id s := rfl
theorem exec_tlbiComplete (x : Sec) (id : Nat) (s : State) :
    exec (.tlbiComplete x id) s = execTlbiComplete x id s := rfl
theorem exec_migrationGroupMove (x : Sec) (asid : BitVec 16) (va : BitVec 64) (far : Bool) (s : State) :
    exec (.migrationGroupMove x asid va far) s = execMigrationGroupMove x asid va far s := rfl
theorem exec_migrationMessageArrive (id : Nat) (s : State) :
    exec (.migrationMessageArrive id) s = execMigrationMessageArrive id s := rfl
theorem exec_migrationAdmit (x : Sec) (cl : Fin 96) (s : State) :
    exec (.migrationAdmit x cl) s = execMigrationAdmit x cl s := rfl
theorem exec_inboxOverflow (x : Sec) (cl : Fin 96) (id : Nat) (s : State) :
    exec (.inboxOverflow x cl id) s = execInboxOverflow x cl id s := rfl
theorem exec_heapReplay (x : Sec) (cl : Fin 96) (s : State) :
    exec (.heapReplay x cl) s = execHeapReplay x cl s := rfl
theorem exec_backpressureRetry (id : Nat) (s : State) :
    exec (.backpressureRetry id) s = execBackpressureRetry id s := rfl
theorem exec_probeToken (id : Nat) (s : State) :
    exec (.probeToken id) s = execProbeToken id s := rfl
theorem exec_preempt (x : Sec) (cl : Fin 96) (co : Fin 8) (issuer : Fin 16) (s : State) :
    exec (.preempt x cl co issuer) s = execPreempt x cl co issuer s := rfl
theorem exec_preemptImagesSaved (x : Sec) (cl : Fin 96) (co : Fin 8) (s : State) :
    exec (.preemptImagesSaved x cl co) s = execPreemptImagesSaved x cl co s := rfl
theorem exec_coreRelease (x : Sec) (cl : Fin 96) (co : Fin 8) (s : State) :
    exec (.coreRelease x cl co) s = execCoreRelease x cl co s := rfl
theorem exec_imageRestore (x : Sec) (idx : Fin 6144) (s : State) :
    exec (.imageRestore x idx) s = execImageRestore x idx s := rfl
theorem exec_spillQueueAppend (id : Nat) (s : State) :
    exec (.spillQueueAppend id) s = execSpillQueueAppend id s := rfl
theorem exec_npoolPush (x : Sec) (v : BitVec 64) (s : State) :
    exec (.npoolPush x v) s = execNpoolPush x v s := rfl
theorem exec_npoolPop (x : Sec) (s : State) :
    exec (.npoolPop x) s = execNpoolPop x s := rfl
theorem exec_fpoolPush (x : Sec) (v : BitVec 64) (s : State) :
    exec (.fpoolPush x v) s = execFpoolPush x v s := rfl
theorem exec_fpoolPop (x : Sec) (s : State) :
    exec (.fpoolPop x) s = execFpoolPop x s := rfl
theorem exec_exportOpen (x : Sec) (e : Fin 4096) (s : State) :
    exec (.exportOpen x e) s = execExportOpen x e s := rfl
theorem exec_exportRevoke (x : Sec) (e : Fin 4096) (bump : Bool) (s : State) :
    exec (.exportRevoke x e bump) s = execExportRevoke x e bump s := rfl
theorem exec_revocationDrained (x : Sec) (e : Fin 4096) (s : State) :
    exec (.revocationDrained x e) s = execRevocationDrained x e s := rfl
theorem exec_importHandleWrite (x : Sec) (slot : Fin 256) (v : BitVec 64) (s : State) :
    exec (.importHandleWrite x slot v) s = execImportHandleWrite x slot v s := rfl
theorem exec_importQuery (x : Sec) (slot : Fin 256) (s : State) :
    exec (.importQuery x slot) s = execImportQuery x slot s := rfl
theorem exec_controlWindowWrite (x : Sec) (off : BitVec 24) (v : BitVec 64) (s : State) :
    exec (.controlWindowWrite x off v) s = execControlWindowWrite x off v s := rfl
theorem exec_eccEvent (site : EccSite) (retry : EccRetry) (s : State) :
    exec (.eccEvent site retry) s = execEccEvent site retry s := rfl
theorem exec_linkCrcError (l : Link) (again : Option ErrReq) (s : State) :
    exec (.linkCrcError l again) s = execLinkCrcError l again s := rfl
theorem exec_bridgeFence (b : Fin 6) (s : State) :
    exec (.bridgeFence b) s = execBridgeFence b s := rfl
theorem exec_chipletFence (x : Sec) (ch : Fin 4) (s : State) :
    exec (.chipletFence x ch) s = execChipletFence x ch s := rfl
theorem exec_chipletAdmit (x : Sec) (ch : Fin 4) (entry : BitVec 64) (s : State) :
    exec (.chipletAdmit x ch entry) s = execChipletAdmit x ch entry s := rfl
theorem exec_modulePowerOn (s : State) :
    exec (.modulePowerOn) s = execModulePowerOn s := rfl
theorem exec_sectorRelease (x : Sec) (s : State) :
    exec (.sectorRelease x) s = execSectorRelease x s := rfl
theorem exec_sectorResetOrderly (x : Sec) (s : State) :
    exec (.sectorResetOrderly x) s = execSectorResetOrderly x s := rfl
theorem exec_sectorResetForced (x : Sec) (s : State) :
    exec (.sectorResetForced x) s = execSectorResetForced x s := rfl
theorem exec_quiesceRequest (x : Sec) (n : Sec) (s : State) :
    exec (.quiesceRequest x n) s = execQuiesceRequest x n s := rfl
theorem exec_quiesceDone (x : Sec) (n : Sec) (s : State) :
    exec (.quiesceDone x n) s = execQuiesceDone x n s := rfl
theorem exec_quiesceTimeout (x : Sec) (n : Sec) (s : State) :
    exec (.quiesceTimeout x n) s = execQuiesceTimeout x n s := rfl
theorem exec_hxQuote (x : Sec) (s : State) :
    exec (.hxQuote x) s = execHxQuote x s := rfl
theorem exec_hxReadlog (x : Sec) (s : State) :
    exec (.hxReadlog x) s = execHxReadlog x s := rfl
theorem exec_hxTelem (x : Sec) (s : State) :
    exec (.hxTelem x) s = execHxTelem x s := rfl
theorem exec_hxFence (x : Sec) (s : State) :
    exec (.hxFence x) s = execHxFence x s := rfl
theorem exec_hxAdmit (x : Sec) (s : State) :
    exec (.hxAdmit x) s = execHxAdmit x s := rfl
theorem exec_hxSreset (x : Sec) (s : State) :
    exec (.hxSreset x) s = execHxSreset x s := rfl
theorem exec_hxNetcfg (x : Sec) (s : State) :
    exec (.hxNetcfg x) s = execHxNetcfg x s := rfl
theorem exec_hxPciecfg (x : Sec) (s : State) :
    exec (.hxPciecfg x) s = execHxPciecfg x s := rfl
theorem exec_hxPcap (x : Sec) (s : State) :
    exec (.hxPcap x) s = execHxPcap x s := rfl
theorem exec_horizonResponse (x : Sec) (s : State) :
    exec (.horizonResponse x) s = execHorizonResponse x s := rfl
theorem exec_mgmtTelemetry (s : State) :
    exec (.mgmtTelemetry) s = execMgmtTelemetry s := rfl
theorem exec_mgmtFirmware (r : FirmwareRequest) (s : State) :
    exec (.mgmtFirmware r) s = execMgmtFirmware r s := rfl
theorem exec_mgmtBootReset (x : Sec) (reset : Bool) (forced : Bool) (scrub : Bool) (s : State) :
    exec (.mgmtBootReset x reset forced scrub) s = execMgmtBootReset x reset forced scrub s := rfl
theorem exec_mgmtFence (r : FenceRequest) (s : State) :
    exec (.mgmtFence r) s = execMgmtFence r s := rfl
theorem exec_mgmtPower (x : Sec) (cap : BitVec 32) (s : State) :
    exec (.mgmtPower x cap) s = execMgmtPower x cap s := rfl
theorem exec_mgmtAttestation (x : Sec) (nonce : BitVec 512) (s : State) :
    exec (.mgmtAttestation x nonce) s = execMgmtAttestation x nonce s := rfl
theorem exec_clockStep (x : Sec) (up : Bool) (s : State) :
    exec (.clockStep x up) s = execClockStep x up s := rfl
theorem exec_thermalTrip (x : Sec) (s : State) :
    exec (.thermalTrip x) s = execThermalTrip x s := rfl
theorem exec_railFault (sectors : List Sec) (s : State) :
    exec (.railFault sectors) s = execRailFault sectors s := rfl
theorem exec_rdmaWriteIn (x : Sec) (r : RdmaIn) (s : State) :
    exec (.rdmaWriteIn x r) s = execRdmaWriteIn x r s := rfl
theorem exec_rdmaReadIn (x : Sec) (r : RdmaIn) (s : State) :
    exec (.rdmaReadIn x r) s = execRdmaReadIn x r s := rfl
theorem exec_rdmaSendIn (x : Sec) (r : RdmaIn) (s : State) :
    exec (.rdmaSendIn x r) s = execRdmaSendIn x r s := rfl
theorem exec_pcieDescriptorRing (x : Sec) (s : State) :
    exec (.pcieDescriptorRing x) s = execPcieDescriptorRing x s := rfl
theorem exec_pcieDma (x : Sec) (r : PcieDma) (s : State) :
    exec (.pcieDma x r) s = execPcieDma x r s := rfl
theorem exec_pcieMessageWrite (x : Sec) (v : BitVec 64) (s : State) :
    exec (.pcieMessageWrite x v) s = execPcieMessageWrite x v s := rfl
theorem exec_scratchpadFlitArrive (x : Sec) (cl : Fin 96) (id : Nat) (s : State) :
    exec (.scratchpadFlitArrive x cl id) s = execScratchpadFlitArrive x cl id s := rfl
theorem exec_pcieCompletion (x : Sec) (slot : Nat) (status : BitVec 16) (data : List (BitVec 8)) (s : State) :
    exec (.pcieCompletion x slot status data) s = execPcieCompletion x slot status data s := rfl
theorem exec_receiverNotReadyNak (x : Sec) (id : Nat) (s : State) :
    exec (.receiverNotReadyNak x id) s = execReceiverNotReadyNak x id s := rfl

end Sys2Proof.Machine
end

