-- ==== Sys2Proof/Laws/Encoding.lean ====
section
/-! SUPPORT. Fields of words: what a field reads in a word that is given as the sum of its fields, the codes of the
enumerations, and the group that each major opcode selects (R52, R58). -/

namespace Sys2Proof.Laws

theorem bit_of {w lo : Nat} {b : Bool} (h : fld w lo 1 = b.toNat) : bit w lo = b := by
  unfold bit; rw [h]; cases b <;> rfl

theorem finOf_of {w lo k n : Nat} [NeZero n] {d : Fin n} (h : fld w lo k = d.val) : finOf n (fld w lo k) = d := by
  rw [h]; exact Fin.ext (Nat.mod_eq_of_lt d.isLt)

theorem ofNat_of {w lo k n : Nat} {d : BitVec n} (h : fld w lo k = d.toNat) : BitVec.ofNat n (fld w lo k) = d := by
  rw [h]; exact BitVec.eq_of_toNat_eq (Nat.mod_eq_of_lt d.isLt)

/-- A word with its immediate bit set is not one whose low 19 bits are zero. -/
theorem immNotReg {w : Nat} (h : fld w 0 19 = 0) (f : fld w 17 7 = 2) : False := by
  unfold fld at h f; omega

theorem condCode_lt (x : Cond) : condCode x < 8 := by cases x <;> decide

theorem condOf_of {w lo k : Nat} {x : Cond} (h : fld w lo k = condCode x) : condOf (fld w lo k) = x := by
  rw [h]; cases x <;> rfl

theorem scopeCode_lt (x : Scope) : scopeCode x < 4 := by cases x <;> decide

theorem scopeOf_of {w lo k : Nat} {x : Scope} (h : fld w lo k = scopeCode x) : scopeOf (fld w lo k) = x := by
  rw [h]; cases x <;> rfl

theorem orderCode_lt (x : Order) : orderCode x < 4 := by cases x <;> decide

theorem orderOf_of {w lo k : Nat} {x : Order} (h : fld w lo k = orderCode x) : orderOf (fld w lo k) = x := by
  rw [h]; cases x <;> rfl

theorem sizeCode_lt (x : Size) : sizeCode x < 4 := by cases x <;> decide

theorem sizeOf_of {w lo k : Nat} {x : Size} (h : fld w lo k = sizeCode x) : sizeOf (fld w lo k) = x := by
  rw [h]; cases x <;> rfl

theorem mordCode_lt (x : MOrd) : mordCode x < 4 := by cases x <;> decide

theorem mordOf_of {w lo k : Nat} {x : MOrd} (h : fld w lo k = mordCode x) : mordOf (fld w lo k) = x := by
  rw [h]; cases x <;> rfl

theorem tagCode_lt (x : Tag) : tagCode x < 16 := by cases x <;> decide

theorem tagOf_of {w lo k : Nat} {x : Tag} (h : fld w lo k = tagCode x) : tagOf (fld w lo k) = some x := by
  rw [h]; cases x <;> rfl

theorem vclassCode_lt (x : VClass) : vclassCode x < 16 := by cases x <;> decide

theorem vclassOf_of {w lo k : Nat} {x : VClass} (h : fld w lo k = vclassCode x) : vclassOf (fld w lo k) = some x := by
  rw [h]; cases x <;> rfl

theorem fcvtCode_lt (x : FcvtKind) : fcvtCode x < 8 := by cases x <;> decide

theorem fcvtOf_of {w lo k : Nat} {x : FcvtKind} (h : fld w lo k = fcvtCode x) : fcvtOf (fld w lo k) = x := by
  rw [h]; cases x <;> rfl

theorem dcvtCode_lt (x : DcvtKind) : dcvtCode x < 8 := by cases x <;> decide

theorem dcvtOf_of {w lo k : Nat} {x : DcvtKind} (h : fld w lo k = dcvtCode x) : dcvtOf (fld w lo k) = some x := by
  rw [h]; cases x <;> rfl

theorem srcCode_lt (x : Src) : srcCode x < 32 := by
  cases x with
  | c n => revert n; decide
  | k n => revert n; decide
  | _ => decide

theorem srcOf_of {w lo k : Nat} {x : Src} (h : fld w lo k = srcCode x) : srcOf (fld w lo k) = some x := by
  rw [h]
  clear h
  cases x with
  | c n => revert n; decide
  | k n => revert n; decide
  | _ => rfl

theorem fields_1_6_4_4_4_6_7 (w v31 v25 v21 v17 v13 v7 v0 : Nat)
    (h31 : v31 < 2) (h25 : v25 < 64) (h21 : v21 < 16) (h17 : v17 < 16) (h13 : v13 < 16) (h7 : v7 < 64) (h0 : v0 < 128)
    (e : w = v31 * 2147483648 + v25 * 33554432 + v21 * 2097152 + v17 * 131072 + v13 * 8192 + v7 * 128 + v0) :
    w < 2 ^ 32 ∧
      fld w 31 1 = v31 ∧
      fld w 25 6 = v25 ∧
      fld w 21 4 = v21 ∧
      fld w 17 4 = v17 ∧
      fld w 13 4 = v13 ∧
      fld w 7 6 = v7 ∧
      fld w 0 7 = v0 := by
  unfold fld
  refine ⟨?_, ?_, ?_, ?_, ?_, ?_, ?_, ?_⟩ <;> omega

theorem fields_1_6_4_4_17 (w v31 v25 v21 v17 v0 : Nat)
    (h31 : v31 < 2) (h25 : v25 < 64) (h21 : v21 < 16) (h17 : v17 < 16) (h0 : v0 < 131072)
    (e : w = v31 * 2147483648 + v25 * 33554432 + v21 * 2097152 + v17 * 131072 + v0) :
    w < 2 ^ 32 ∧
      fld w 31 1 = v31 ∧
      fld w 25 6 = v25 ∧
      fld w 21 4 = v21 ∧
      fld w 17 4 = v17 ∧
      fld w 0 17 = v0 := by
  unfold fld
  refine ⟨?_, ?_, ?_, ?_, ?_, ?_⟩ <;> omega

theorem fields_1_6_4_4_4_6_1_6 (w v31 v25 v21 v17 v13 v7 v6 v0 : Nat)
    (h31 : v31 < 2) (h25 : v25 < 64) (h21 : v21 < 16) (h17 : v17 < 16) (h13 : v13 < 16) (h7 : v7 < 64) (h6 : v6 < 2) (h0 : v0 < 64)
    (e : w = v31 * 2147483648 + v25 * 33554432 + v21 * 2097152 + v17 * 131072 + v13 * 8192 + v7 * 128 + v6 * 64 + v0) :
    w < 2 ^ 32 ∧
      fld w 31 1 = v31 ∧
      fld w 25 6 = v25 ∧
      fld w 21 4 = v21 ∧
      fld w 17 4 = v17 ∧
      fld w 13 4 = v13 ∧
      fld w 7 6 = v7 ∧
      fld w 6 1 = v6 ∧
      fld w 0 6 = v0 := by
  unfold fld
  refine ⟨?_, ?_, ?_, ?_, ?_, ?_, ?_, ?_, ?_⟩ <;> omega

theorem fields_1_6_3_3_4_15 (w v31 v25 v22 v19 v15 v0 : Nat)
    (h31 : v31 < 2) (h25 : v25 < 64) (h22 : v22 < 8) (h19 : v19 < 8) (h15 : v15 < 16) (h0 : v0 < 32768)
    (e : w = v31 * 2147483648 + v25 * 33554432 + v22 * 4194304 + v19 * 524288 + v15 * 32768 + v0) :
    w < 2 ^ 32 ∧
      fld w 31 1 = v31 ∧
      fld w 25 6 = v25 ∧
      fld w 22 3 = v22 ∧
      fld w 19 3 = v19 ∧
      fld w 15 4 = v15 ∧
      fld w 0 15 = v0 := by
  unfold fld
  refine ⟨?_, ?_, ?_, ?_, ?_, ?_, ?_⟩ <;> omega

theorem fields_1_6_1_3_4_4_6_4_3 (w v31 v25 v24 v21 v17 v13 v7 v3 v0 : Nat)
    (h31 : v31 < 2) (h25 : v25 < 64) (h24 : v24 < 2) (h21 : v21 < 8) (h17 : v17 < 16) (h13 : v13 < 16) (h7 : v7 < 64) (h3 : v3 < 16) (h0 : v0 < 8)
    (e : w = v31 * 2147483648 + v25 * 33554432 + v24 * 16777216 + v21 * 2097152 + v17 * 131072 + v13 * 8192 + v7 * 128 + v3 * 8 + v0) :
    w < 2 ^ 32 ∧
      fld w 31 1 = v31 ∧
      fld w 25 6 = v25 ∧
      fld w 24 1 = v24 ∧
      fld w 21 3 = v21 ∧
      fld w 17 4 = v17 ∧
      fld w 13 4 = v13 ∧
      fld w 7 6 = v7 ∧
      fld w 3 4 = v3 ∧
      fld w 0 3 = v0 := by
  unfold fld
  refine ⟨?_, ?_, ?_, ?_, ?_, ?_, ?_, ?_, ?_, ?_⟩ <;> omega

theorem fields_1_6_1_3_4_4_6_6_1 (w v31 v25 v24 v21 v17 v13 v7 v1 v0 : Nat)
    (h31 : v31 < 2) (h25 : v25 < 64) (h24 : v24 < 2) (h21 : v21 < 8) (h17 : v17 < 16) (h13 : v13 < 16) (h7 : v7 < 64) (h1 : v1 < 64) (h0 : v0 < 2)
    (e : w = v31 * 2147483648 + v25 * 33554432 + v24 * 16777216 + v21 * 2097152 + v17 * 131072 + v13 * 8192 + v7 * 128 + v1 * 2 + v0) :
    w < 2 ^ 32 ∧
      fld w 31 1 = v31 ∧
      fld w 25 6 = v25 ∧
      fld w 24 1 = v24 ∧
      fld w 21 3 = v21 ∧
      fld w 17 4 = v17 ∧
      fld w 13 4 = v13 ∧
      fld w 7 6 = v7 ∧
      fld w 1 6 = v1 ∧
      fld w 0 1 = v0 := by
  unfold fld
  refine ⟨?_, ?_, ?_, ?_, ?_, ?_, ?_, ?_, ?_, ?_⟩ <;> omega

theorem fields_1_6_4_4_4_6_4_3 (w v31 v25 v21 v17 v13 v7 v3 v0 : Nat)
    (h31 : v31 < 2) (h25 : v25 < 64) (h21 : v21 < 16) (h17 : v17 < 16) (h13 : v13 < 16) (h7 : v7 < 64) (h3 : v3 < 16) (h0 : v0 < 8)
    (e : w = v31 * 2147483648 + v25 * 33554432 + v21 * 2097152 + v17 * 131072 + v13 * 8192 + v7 * 128 + v3 * 8 + v0) :
    w < 2 ^ 32 ∧
      fld w 31 1 = v31 ∧
      fld w 25 6 = v25 ∧
      fld w 21 4 = v21 ∧
      fld w 17 4 = v17 ∧
      fld w 13 4 = v13 ∧
      fld w 7 6 = v7 ∧
      fld w 3 4 = v3 ∧
      fld w 0 3 = v0 := by
  unfold fld
  refine ⟨?_, ?_, ?_, ?_, ?_, ?_, ?_, ?_, ?_⟩ <;> omega

theorem fields_1_6_1_3_1_3_1_3_6_7 (w v31 v25 v24 v21 v20 v17 v16 v13 v7 v0 : Nat)
    (h31 : v31 < 2) (h25 : v25 < 64) (h24 : v24 < 2) (h21 : v21 < 8) (h20 : v20 < 2) (h17 : v17 < 8) (h16 : v16 < 2) (h13 : v13 < 8) (h7 : v7 < 64) (h0 : v0 < 128)
    (e : w = v31 * 2147483648 + v25 * 33554432 + v24 * 16777216 + v21 * 2097152 + v20 * 1048576 + v17 * 131072 + v16 * 65536 + v13 * 8192 + v7 * 128 + v0) :
    w < 2 ^ 32 ∧
      fld w 31 1 = v31 ∧
      fld w 25 6 = v25 ∧
      fld w 24 1 = v24 ∧
      fld w 21 3 = v21 ∧
      fld w 20 1 = v20 ∧
      fld w 17 3 = v17 ∧
      fld w 16 1 = v16 ∧
      fld w 13 3 = v13 ∧
      fld w 7 6 = v7 ∧
      fld w 0 7 = v0 := by
  unfold fld
  refine ⟨?_, ?_, ?_, ?_, ?_, ?_, ?_, ?_, ?_, ?_, ?_⟩ <;> omega

theorem fields_1_6_1_3_1_3_4_6_7 (w v31 v25 v24 v21 v20 v17 v13 v7 v0 : Nat)
    (h31 : v31 < 2) (h25 : v25 < 64) (h24 : v24 < 2) (h21 : v21 < 8) (h20 : v20 < 2) (h17 : v17 < 8) (h13 : v13 < 16) (h7 : v7 < 64) (h0 : v0 < 128)
    (e : w = v31 * 2147483648 + v25 * 33554432 + v24 * 16777216 + v21 * 2097152 + v20 * 1048576 + v17 * 131072 + v13 * 8192 + v7 * 128 + v0) :
    w < 2 ^ 32 ∧
      fld w 31 1 = v31 ∧
      fld w 25 6 = v25 ∧
      fld w 24 1 = v24 ∧
      fld w 21 3 = v21 ∧
      fld w 20 1 = v20 ∧
      fld w 17 3 = v17 ∧
      fld w 13 4 = v13 ∧
      fld w 7 6 = v7 ∧
      fld w 0 7 = v0 := by
  unfold fld
  refine ⟨?_, ?_, ?_, ?_, ?_, ?_, ?_, ?_, ?_, ?_⟩ <;> omega

theorem fields_1_6_4_8_6_7 (w v31 v25 v21 v13 v7 v0 : Nat)
    (h31 : v31 < 2) (h25 : v25 < 64) (h21 : v21 < 16) (h13 : v13 < 256) (h7 : v7 < 64) (h0 : v0 < 128)
    (e : w = v31 * 2147483648 + v25 * 33554432 + v21 * 2097152 + v13 * 8192 + v7 * 128 + v0) :
    w < 2 ^ 32 ∧
      fld w 31 1 = v31 ∧
      fld w 25 6 = v25 ∧
      fld w 21 4 = v21 ∧
      fld w 13 8 = v13 ∧
      fld w 7 6 = v7 ∧
      fld w 0 7 = v0 := by
  unfold fld
  refine ⟨?_, ?_, ?_, ?_, ?_, ?_, ?_⟩ <;> omega

theorem fields_1_6_4_4_2_1_2_12 (w v31 v25 v21 v17 v15 v14 v12 v0 : Nat)
    (h31 : v31 < 2) (h25 : v25 < 64) (h21 : v21 < 16) (h17 : v17 < 16) (h15 : v15 < 4) (h14 : v14 < 2) (h12 : v12 < 4) (h0 : v0 < 4096)
    (e : w = v31 * 2147483648 + v25 * 33554432 + v21 * 2097152 + v17 * 131072 + v15 * 32768 + v14 * 16384 + v12 * 4096 + v0) :
    w < 2 ^ 32 ∧
      fld w 31 1 = v31 ∧
      fld w 25 6 = v25 ∧
      fld w 21 4 = v21 ∧
      fld w 17 4 = v17 ∧
      fld w 15 2 = v15 ∧
      fld w 14 1 = v14 ∧
      fld w 12 2 = v12 ∧
      fld w 0 12 = v0 := by
  unfold fld
  refine ⟨?_, ?_, ?_, ?_, ?_, ?_, ?_, ?_, ?_⟩ <;> omega

theorem fields_1_6_4_4_4_6_1_2_2_1_1 (w v31 v25 v21 v17 v13 v7 v6 v4 v2 v1 v0 : Nat)
    (h31 : v31 < 2) (h25 : v25 < 64) (h21 : v21 < 16) (h17 : v17 < 16) (h13 : v13 < 16) (h7 : v7 < 64) (h6 : v6 < 2) (h4 : v4 < 4) (h2 : v2 < 4) (h1 : v1 < 2) (h0 : v0 < 2)
    (e : w = v31 * 2147483648 + v25 * 33554432 + v21 * 2097152 + v17 * 131072 + v13 * 8192 + v7 * 128 + v6 * 64 + v4 * 16 + v2 * 4 + v1 * 2 + v0) :
    w < 2 ^ 32 ∧
      fld w 31 1 = v31 ∧
      fld w 25 6 = v25 ∧
      fld w 21 4 = v21 ∧
      fld w 17 4 = v17 ∧
      fld w 13 4 = v13 ∧
      fld w 7 6 = v7 ∧
      fld w 6 1 = v6 ∧
      fld w 4 2 = v4 ∧
      fld w 2 2 = v2 ∧
      fld w 1 1 = v1 ∧
      fld w 0 1 = v0 := by
  unfold fld
  refine ⟨?_, ?_, ?_, ?_, ?_, ?_, ?_, ?_, ?_, ?_, ?_, ?_⟩ <;> omega

theorem fields_1_6_4_4_4_6_1_2_2_2 (w v31 v25 v21 v17 v13 v7 v6 v4 v2 v0 : Nat)
    (h31 : v31 < 2) (h25 : v25 < 64) (h21 : v21 < 16) (h17 : v17 < 16) (h13 : v13 < 16) (h7 : v7 < 64) (h6 : v6 < 2) (h4 : v4 < 4) (h2 : v2 < 4) (h0 : v0 < 4)
    (e : w = v31 * 2147483648 + v25 * 33554432 + v21 * 2097152 + v17 * 131072 + v13 * 8192 + v7 * 128 + v6 * 64 + v4 * 16 + v2 * 4 + v0) :
    w < 2 ^ 32 ∧
      fld w 31 1 = v31 ∧
      fld w 25 6 = v25 ∧
      fld w 21 4 = v21 ∧
      fld w 17 4 = v17 ∧
      fld w 13 4 = v13 ∧
      fld w 7 6 = v7 ∧
      fld w 6 1 = v6 ∧
      fld w 4 2 = v4 ∧
      fld w 2 2 = v2 ∧
      fld w 0 2 = v0 := by
  unfold fld
  refine ⟨?_, ?_, ?_, ?_, ?_, ?_, ?_, ?_, ?_, ?_, ?_⟩ <;> omega

theorem fields_1_6_3_1_3_18 (w v31 v25 v22 v21 v18 v0 : Nat)
    (h31 : v31 < 2) (h25 : v25 < 64) (h22 : v22 < 8) (h21 : v21 < 2) (h18 : v18 < 8) (h0 : v0 < 262144)
    (e : w = v31 * 2147483648 + v25 * 33554432 + v22 * 4194304 + v21 * 2097152 + v18 * 262144 + v0) :
    w < 2 ^ 32 ∧
      fld w 31 1 = v31 ∧
      fld w 25 6 = v25 ∧
      fld w 22 3 = v22 ∧
      fld w 21 1 = v21 ∧
      fld w 18 3 = v18 ∧
      fld w 0 18 = v0 := by
  unfold fld
  refine ⟨?_, ?_, ?_, ?_, ?_, ?_, ?_⟩ <;> omega

theorem fields_1_6_3_4_18 (w v31 v25 v22 v18 v0 : Nat)
    (h31 : v31 < 2) (h25 : v25 < 64) (h22 : v22 < 8) (h18 : v18 < 16) (h0 : v0 < 262144)
    (e : w = v31 * 2147483648 + v25 * 33554432 + v22 * 4194304 + v18 * 262144 + v0) :
    w < 2 ^ 32 ∧
      fld w 31 1 = v31 ∧
      fld w 25 6 = v25 ∧
      fld w 22 3 = v22 ∧
      fld w 18 4 = v18 ∧
      fld w 0 18 = v0 := by
  unfold fld
  refine ⟨?_, ?_, ?_, ?_, ?_, ?_⟩ <;> omega

theorem fields_1_6_25 (w v31 v25 v0 : Nat)
    (h31 : v31 < 2) (h25 : v25 < 64) (h0 : v0 < 33554432)
    (e : w = v31 * 2147483648 + v25 * 33554432 + v0) :
    w < 2 ^ 32 ∧
      fld w 31 1 = v31 ∧
      fld w 25 6 = v25 ∧
      fld w 0 25 = v0 := by
  unfold fld
  refine ⟨?_, ?_, ?_, ?_⟩ <;> omega

theorem fields_1_6_4_4_4_6_6_1 (w v31 v25 v21 v17 v13 v7 v1 v0 : Nat)
    (h31 : v31 < 2) (h25 : v25 < 64) (h21 : v21 < 16) (h17 : v17 < 16) (h13 : v13 < 16) (h7 : v7 < 64) (h1 : v1 < 64) (h0 : v0 < 2)
    (e : w = v31 * 2147483648 + v25 * 33554432 + v21 * 2097152 + v17 * 131072 + v13 * 8192 + v7 * 128 + v1 * 2 + v0) :
    w < 2 ^ 32 ∧
      fld w 31 1 = v31 ∧
      fld w 25 6 = v25 ∧
      fld w 21 4 = v21 ∧
      fld w 17 4 = v17 ∧
      fld w 13 4 = v13 ∧
      fld w 7 6 = v7 ∧
      fld w 1 6 = v1 ∧
      fld w 0 1 = v0 := by
  unfold fld
  refine ⟨?_, ?_, ?_, ?_, ?_, ?_, ?_, ?_, ?_⟩ <;> omega

theorem fields_1_6_4_4_4_6_3_2_2 (w v31 v25 v21 v17 v13 v7 v4 v2 v0 : Nat)
    (h31 : v31 < 2) (h25 : v25 < 64) (h21 : v21 < 16) (h17 : v17 < 16) (h13 : v13 < 16) (h7 : v7 < 64) (h4 : v4 < 8) (h2 : v2 < 4) (h0 : v0 < 4)
    (e : w = v31 * 2147483648 + v25 * 33554432 + v21 * 2097152 + v17 * 131072 + v13 * 8192 + v7 * 128 + v4 * 16 + v2 * 4 + v0) :
    w < 2 ^ 32 ∧
      fld w 31 1 = v31 ∧
      fld w 25 6 = v25 ∧
      fld w 21 4 = v21 ∧
      fld w 17 4 = v17 ∧
      fld w 13 4 = v13 ∧
      fld w 7 6 = v7 ∧
      fld w 4 3 = v4 ∧
      fld w 2 2 = v2 ∧
      fld w 0 2 = v0 := by
  unfold fld
  refine ⟨?_, ?_, ?_, ?_, ?_, ?_, ?_, ?_, ?_, ?_⟩ <;> omega

theorem fields_1_6_12_6_7 (w v31 v25 v13 v7 v0 : Nat)
    (h31 : v31 < 2) (h25 : v25 < 64) (h13 : v13 < 4096) (h7 : v7 < 64) (h0 : v0 < 128)
    (e : w = v31 * 2147483648 + v25 * 33554432 + v13 * 8192 + v7 * 128 + v0) :
    w < 2 ^ 32 ∧
      fld w 31 1 = v31 ∧
      fld w 25 6 = v25 ∧
      fld w 13 12 = v13 ∧
      fld w 7 6 = v7 ∧
      fld w 0 7 = v0 := by
  unfold fld
  refine ⟨?_, ?_, ?_, ?_, ?_, ?_⟩ <;> omega

theorem fields_1_6_12_6_1_2_2_2 (w v31 v25 v13 v7 v6 v4 v2 v0 : Nat)
    (h31 : v31 < 2) (h25 : v25 < 64) (h13 : v13 < 4096) (h7 : v7 < 64) (h6 : v6 < 2) (h4 : v4 < 4) (h2 : v2 < 4) (h0 : v0 < 4)
    (e : w = v31 * 2147483648 + v25 * 33554432 + v13 * 8192 + v7 * 128 + v6 * 64 + v4 * 16 + v2 * 4 + v0) :
    w < 2 ^ 32 ∧
      fld w 31 1 = v31 ∧
      fld w 25 6 = v25 ∧
      fld w 13 12 = v13 ∧
      fld w 7 6 = v7 ∧
      fld w 6 1 = v6 ∧
      fld w 4 2 = v4 ∧
      fld w 2 2 = v2 ∧
      fld w 0 2 = v0 := by
  unfold fld
  refine ⟨?_, ?_, ?_, ?_, ?_, ?_, ?_, ?_, ?_⟩ <;> omega

theorem fields_1_6_4_4_4_3_6_3_1 (w v31 v25 v21 v17 v13 v10 v4 v1 v0 : Nat)
    (h31 : v31 < 2) (h25 : v25 < 64) (h21 : v21 < 16) (h17 : v17 < 16) (h13 : v13 < 16) (h10 : v10 < 8) (h4 : v4 < 64) (h1 : v1 < 8) (h0 : v0 < 2)
    (e : w = v31 * 2147483648 + v25 * 33554432 + v21 * 2097152 + v17 * 131072 + v13 * 8192 + v10 * 1024 + v4 * 16 + v1 * 2 + v0) :
    w < 2 ^ 32 ∧
      fld w 31 1 = v31 ∧
      fld w 25 6 = v25 ∧
      fld w 21 4 = v21 ∧
      fld w 17 4 = v17 ∧
      fld w 13 4 = v13 ∧
      fld w 10 3 = v10 ∧
      fld w 4 6 = v4 ∧
      fld w 1 3 = v1 ∧
      fld w 0 1 = v0 := by
  unfold fld
  refine ⟨?_, ?_, ?_, ?_, ?_, ?_, ?_, ?_, ?_, ?_⟩ <;> omega

theorem fields_1_6_4_4_4_3_6_4 (w v31 v25 v21 v17 v13 v10 v4 v0 : Nat)
    (h31 : v31 < 2) (h25 : v25 < 64) (h21 : v21 < 16) (h17 : v17 < 16) (h13 : v13 < 16) (h10 : v10 < 8) (h4 : v4 < 64) (h0 : v0 < 16)
    (e : w = v31 * 2147483648 + v25 * 33554432 + v21 * 2097152 + v17 * 131072 + v13 * 8192 + v10 * 1024 + v4 * 16 + v0) :
    w < 2 ^ 32 ∧
      fld w 31 1 = v31 ∧
      fld w 25 6 = v25 ∧
      fld w 21 4 = v21 ∧
      fld w 17 4 = v17 ∧
      fld w 13 4 = v13 ∧
      fld w 10 3 = v10 ∧
      fld w 4 6 = v4 ∧
      fld w 0 4 = v0 := by
  unfold fld
  refine ⟨?_, ?_, ?_, ?_, ?_, ?_, ?_, ?_, ?_⟩ <;> omega

theorem fields_1_6_1_3_4_4_3_6_1_3 (w v31 v25 v24 v21 v17 v13 v10 v4 v3 v0 : Nat)
    (h31 : v31 < 2) (h25 : v25 < 64) (h24 : v24 < 2) (h21 : v21 < 8) (h17 : v17 < 16) (h13 : v13 < 16) (h10 : v10 < 8) (h4 : v4 < 64) (h3 : v3 < 2) (h0 : v0 < 8)
    (e : w = v31 * 2147483648 + v25 * 33554432 + v24 * 16777216 + v21 * 2097152 + v17 * 131072 + v13 * 8192 + v10 * 1024 + v4 * 16 + v3 * 8 + v0) :
    w < 2 ^ 32 ∧
      fld w 31 1 = v31 ∧
      fld w 25 6 = v25 ∧
      fld w 24 1 = v24 ∧
      fld w 21 3 = v21 ∧
      fld w 17 4 = v17 ∧
      fld w 13 4 = v13 ∧
      fld w 10 3 = v10 ∧
      fld w 4 6 = v4 ∧
      fld w 3 1 = v3 ∧
      fld w 0 3 = v0 := by
  unfold fld
  refine ⟨?_, ?_, ?_, ?_, ?_, ?_, ?_, ?_, ?_, ?_, ?_⟩ <;> omega

theorem fields_1_6_1_3_4_4_3_6_4 (w v31 v25 v24 v21 v17 v13 v10 v4 v0 : Nat)
    (h31 : v31 < 2) (h25 : v25 < 64) (h24 : v24 < 2) (h21 : v21 < 8) (h17 : v17 < 16) (h13 : v13 < 16) (h10 : v10 < 8) (h4 : v4 < 64) (h0 : v0 < 16)
    (e : w = v31 * 2147483648 + v25 * 33554432 + v24 * 16777216 + v21 * 2097152 + v17 * 131072 + v13 * 8192 + v10 * 1024 + v4 * 16 + v0) :
    w < 2 ^ 32 ∧
      fld w 31 1 = v31 ∧
      fld w 25 6 = v25 ∧
      fld w 24 1 = v24 ∧
      fld w 21 3 = v21 ∧
      fld w 17 4 = v17 ∧
      fld w 13 4 = v13 ∧
      fld w 10 3 = v10 ∧
      fld w 4 6 = v4 ∧
      fld w 0 4 = v0 := by
  unfold fld
  refine ⟨?_, ?_, ?_, ?_, ?_, ?_, ?_, ?_, ?_, ?_⟩ <;> omega

theorem fields_1_6_1_3_1_3_1_3_3_6_4 (w v31 v25 v24 v21 v20 v17 v16 v13 v10 v4 v0 : Nat)
    (h31 : v31 < 2) (h25 : v25 < 64) (h24 : v24 < 2) (h21 : v21 < 8) (h20 : v20 < 2) (h17 : v17 < 8) (h16 : v16 < 2) (h13 : v13 < 8) (h10 : v10 < 8) (h4 : v4 < 64) (h0 : v0 < 16)
    (e : w = v31 * 2147483648 + v25 * 33554432 + v24 * 16777216 + v21 * 2097152 + v20 * 1048576 + v17 * 131072 + v16 * 65536 + v13 * 8192 + v10 * 1024 + v4 * 16 + v0) :
    w < 2 ^ 32 ∧
      fld w 31 1 = v31 ∧
      fld w 25 6 = v25 ∧
      fld w 24 1 = v24 ∧
      fld w 21 3 = v21 ∧
      fld w 20 1 = v20 ∧
      fld w 17 3 = v17 ∧
      fld w 16 1 = v16 ∧
      fld w 13 3 = v13 ∧
      fld w 10 3 = v10 ∧
      fld w 4 6 = v4 ∧
      fld w 0 4 = v0 := by
  unfold fld
  refine ⟨?_, ?_, ?_, ?_, ?_, ?_, ?_, ?_, ?_, ?_, ?_, ?_⟩ <;> omega

theorem fields_1_6_1_3_1_3_7_6_4 (w v31 v25 v24 v21 v20 v17 v10 v4 v0 : Nat)
    (h31 : v31 < 2) (h25 : v25 < 64) (h24 : v24 < 2) (h21 : v21 < 8) (h20 : v20 < 2) (h17 : v17 < 8) (h10 : v10 < 128) (h4 : v4 < 64) (h0 : v0 < 16)
    (e : w = v31 * 2147483648 + v25 * 33554432 + v24 * 16777216 + v21 * 2097152 + v20 * 1048576 + v17 * 131072 + v10 * 1024 + v4 * 16 + v0) :
    w < 2 ^ 32 ∧
      fld w 31 1 = v31 ∧
      fld w 25 6 = v25 ∧
      fld w 24 1 = v24 ∧
      fld w 21 3 = v21 ∧
      fld w 20 1 = v20 ∧
      fld w 17 3 = v17 ∧
      fld w 10 7 = v10 ∧
      fld w 4 6 = v4 ∧
      fld w 0 4 = v0 := by
  unfold fld
  refine ⟨?_, ?_, ?_, ?_, ?_, ?_, ?_, ?_, ?_, ?_⟩ <;> omega

theorem fields_1_6_4_1_3_7_6_4 (w v31 v25 v21 v20 v17 v10 v4 v0 : Nat)
    (h31 : v31 < 2) (h25 : v25 < 64) (h21 : v21 < 16) (h20 : v20 < 2) (h17 : v17 < 8) (h10 : v10 < 128) (h4 : v4 < 64) (h0 : v0 < 16)
    (e : w = v31 * 2147483648 + v25 * 33554432 + v21 * 2097152 + v20 * 1048576 + v17 * 131072 + v10 * 1024 + v4 * 16 + v0) :
    w < 2 ^ 32 ∧
      fld w 31 1 = v31 ∧
      fld w 25 6 = v25 ∧
      fld w 21 4 = v21 ∧
      fld w 20 1 = v20 ∧
      fld w 17 3 = v17 ∧
      fld w 10 7 = v10 ∧
      fld w 4 6 = v4 ∧
      fld w 0 4 = v0 := by
  unfold fld
  refine ⟨?_, ?_, ?_, ?_, ?_, ?_, ?_, ?_, ?_⟩ <;> omega

theorem fields_1_6_4_4_1_3_3_6_4 (w v31 v25 v21 v17 v16 v13 v10 v4 v0 : Nat)
    (h31 : v31 < 2) (h25 : v25 < 64) (h21 : v21 < 16) (h17 : v17 < 16) (h16 : v16 < 2) (h13 : v13 < 8) (h10 : v10 < 8) (h4 : v4 < 64) (h0 : v0 < 16)
    (e : w = v31 * 2147483648 + v25 * 33554432 + v21 * 2097152 + v17 * 131072 + v16 * 65536 + v13 * 8192 + v10 * 1024 + v4 * 16 + v0) :
    w < 2 ^ 32 ∧
      fld w 31 1 = v31 ∧
      fld w 25 6 = v25 ∧
      fld w 21 4 = v21 ∧
      fld w 17 4 = v17 ∧
      fld w 16 1 = v16 ∧
      fld w 13 3 = v13 ∧
      fld w 10 3 = v10 ∧
      fld w 4 6 = v4 ∧
      fld w 0 4 = v0 := by
  unfold fld
  refine ⟨?_, ?_, ?_, ?_, ?_, ?_, ?_, ?_, ?_, ?_⟩ <;> omega

theorem fields_1_6_4_4_2_2_3_6_3_1 (w v31 v25 v21 v17 v15 v13 v10 v4 v1 v0 : Nat)
    (h31 : v31 < 2) (h25 : v25 < 64) (h21 : v21 < 16) (h17 : v17 < 16) (h15 : v15 < 4) (h13 : v13 < 4) (h10 : v10 < 8) (h4 : v4 < 64) (h1 : v1 < 8) (h0 : v0 < 2)
    (e : w = v31 * 2147483648 + v25 * 33554432 + v21 * 2097152 + v17 * 131072 + v15 * 32768 + v13 * 8192 + v10 * 1024 + v4 * 16 + v1 * 2 + v0) :
    w < 2 ^ 32 ∧
      fld w 31 1 = v31 ∧
      fld w 25 6 = v25 ∧
      fld w 21 4 = v21 ∧
      fld w 17 4 = v17 ∧
      fld w 15 2 = v15 ∧
      fld w 13 2 = v13 ∧
      fld w 10 3 = v10 ∧
      fld w 4 6 = v4 ∧
      fld w 1 3 = v1 ∧
      fld w 0 1 = v0 := by
  unfold fld
  refine ⟨?_, ?_, ?_, ?_, ?_, ?_, ?_, ?_, ?_, ?_, ?_⟩ <;> omega

theorem fields_1_6_4_4_7_6_4 (w v31 v25 v21 v17 v10 v4 v0 : Nat)
    (h31 : v31 < 2) (h25 : v25 < 64) (h21 : v21 < 16) (h17 : v17 < 16) (h10 : v10 < 128) (h4 : v4 < 64) (h0 : v0 < 16)
    (e : w = v31 * 2147483648 + v25 * 33554432 + v21 * 2097152 + v17 * 131072 + v10 * 1024 + v4 * 16 + v0) :
    w < 2 ^ 32 ∧
      fld w 31 1 = v31 ∧
      fld w 25 6 = v25 ∧
      fld w 21 4 = v21 ∧
      fld w 17 4 = v17 ∧
      fld w 10 7 = v10 ∧
      fld w 4 6 = v4 ∧
      fld w 0 4 = v0 := by
  unfold fld
  refine ⟨?_, ?_, ?_, ?_, ?_, ?_, ?_, ?_⟩ <;> omega

theorem fields_1_6_4_8_3_6_4 (w v31 v25 v21 v13 v10 v4 v0 : Nat)
    (h31 : v31 < 2) (h25 : v25 < 64) (h21 : v21 < 16) (h13 : v13 < 256) (h10 : v10 < 8) (h4 : v4 < 64) (h0 : v0 < 16)
    (e : w = v31 * 2147483648 + v25 * 33554432 + v21 * 2097152 + v13 * 8192 + v10 * 1024 + v4 * 16 + v0) :
    w < 2 ^ 32 ∧
      fld w 31 1 = v31 ∧
      fld w 25 6 = v25 ∧
      fld w 21 4 = v21 ∧
      fld w 13 8 = v13 ∧
      fld w 10 3 = v10 ∧
      fld w 4 6 = v4 ∧
      fld w 0 4 = v0 := by
  unfold fld
  refine ⟨?_, ?_, ?_, ?_, ?_, ?_, ?_, ?_⟩ <;> omega

theorem fields_1_6_4_4_3_3_4_7 (w v31 v25 v21 v17 v14 v11 v7 v0 : Nat)
    (h31 : v31 < 2) (h25 : v25 < 64) (h21 : v21 < 16) (h17 : v17 < 16) (h14 : v14 < 8) (h11 : v11 < 8) (h7 : v7 < 16) (h0 : v0 < 128)
    (e : w = v31 * 2147483648 + v25 * 33554432 + v21 * 2097152 + v17 * 131072 + v14 * 16384 + v11 * 2048 + v7 * 128 + v0) :
    w < 2 ^ 32 ∧
      fld w 31 1 = v31 ∧
      fld w 25 6 = v25 ∧
      fld w 21 4 = v21 ∧
      fld w 17 4 = v17 ∧
      fld w 14 3 = v14 ∧
      fld w 11 3 = v11 ∧
      fld w 7 4 = v7 ∧
      fld w 0 7 = v0 := by
  unfold fld
  refine ⟨?_, ?_, ?_, ?_, ?_, ?_, ?_, ?_, ?_⟩ <;> omega

theorem fields_1_6_4_4_4_3_6_1_3 (w v31 v25 v21 v17 v13 v10 v4 v3 v0 : Nat)
    (h31 : v31 < 2) (h25 : v25 < 64) (h21 : v21 < 16) (h17 : v17 < 16) (h13 : v13 < 16) (h10 : v10 < 8) (h4 : v4 < 64) (h3 : v3 < 2) (h0 : v0 < 8)
    (e : w = v31 * 2147483648 + v25 * 33554432 + v21 * 2097152 + v17 * 131072 + v13 * 8192 + v10 * 1024 + v4 * 16 + v3 * 8 + v0) :
    w < 2 ^ 32 ∧
      fld w 31 1 = v31 ∧
      fld w 25 6 = v25 ∧
      fld w 21 4 = v21 ∧
      fld w 17 4 = v17 ∧
      fld w 13 4 = v13 ∧
      fld w 10 3 = v10 ∧
      fld w 4 6 = v4 ∧
      fld w 3 1 = v3 ∧
      fld w 0 3 = v0 := by
  unfold fld
  refine ⟨?_, ?_, ?_, ?_, ?_, ?_, ?_, ?_, ?_, ?_⟩ <;> omega

theorem fields_1_6_4_4_7_6_3_1 (w v31 v25 v21 v17 v10 v4 v1 v0 : Nat)
    (h31 : v31 < 2) (h25 : v25 < 64) (h21 : v21 < 16) (h17 : v17 < 16) (h10 : v10 < 128) (h4 : v4 < 64) (h1 : v1 < 8) (h0 : v0 < 2)
    (e : w = v31 * 2147483648 + v25 * 33554432 + v21 * 2097152 + v17 * 131072 + v10 * 1024 + v4 * 16 + v1 * 2 + v0) :
    w < 2 ^ 32 ∧
      fld w 31 1 = v31 ∧
      fld w 25 6 = v25 ∧
      fld w 21 4 = v21 ∧
      fld w 17 4 = v17 ∧
      fld w 10 7 = v10 ∧
      fld w 4 6 = v4 ∧
      fld w 1 3 = v1 ∧
      fld w 0 1 = v0 := by
  unfold fld
  refine ⟨?_, ?_, ?_, ?_, ?_, ?_, ?_, ?_, ?_⟩ <;> omega

theorem fields_1_6_4_4_7_6_1_3 (w v31 v25 v21 v17 v10 v4 v3 v0 : Nat)
    (h31 : v31 < 2) (h25 : v25 < 64) (h21 : v21 < 16) (h17 : v17 < 16) (h10 : v10 < 128) (h4 : v4 < 64) (h3 : v3 < 2) (h0 : v0 < 8)
    (e : w = v31 * 2147483648 + v25 * 33554432 + v21 * 2097152 + v17 * 131072 + v10 * 1024 + v4 * 16 + v3 * 8 + v0) :
    w < 2 ^ 32 ∧
      fld w 31 1 = v31 ∧
      fld w 25 6 = v25 ∧
      fld w 21 4 = v21 ∧
      fld w 17 4 = v17 ∧
      fld w 10 7 = v10 ∧
      fld w 4 6 = v4 ∧
      fld w 3 1 = v3 ∧
      fld w 0 3 = v0 := by
  unfold fld
  refine ⟨?_, ?_, ?_, ?_, ?_, ?_, ?_, ?_, ?_⟩ <;> omega

theorem fields_1_6_4_11_6_3_1 (w v31 v25 v21 v10 v4 v1 v0 : Nat)
    (h31 : v31 < 2) (h25 : v25 < 64) (h21 : v21 < 16) (h10 : v10 < 2048) (h4 : v4 < 64) (h1 : v1 < 8) (h0 : v0 < 2)
    (e : w = v31 * 2147483648 + v25 * 33554432 + v21 * 2097152 + v10 * 1024 + v4 * 16 + v1 * 2 + v0) :
    w < 2 ^ 32 ∧
      fld w 31 1 = v31 ∧
      fld w 25 6 = v25 ∧
      fld w 21 4 = v21 ∧
      fld w 10 11 = v10 ∧
      fld w 4 6 = v4 ∧
      fld w 1 3 = v1 ∧
      fld w 0 1 = v0 := by
  unfold fld
  refine ⟨?_, ?_, ?_, ?_, ?_, ?_, ?_, ?_⟩ <;> omega

theorem fields_1_6_4_4_4_4_8_1 (w v31 v25 v21 v17 v13 v9 v1 v0 : Nat)
    (h31 : v31 < 2) (h25 : v25 < 64) (h21 : v21 < 16) (h17 : v17 < 16) (h13 : v13 < 16) (h9 : v9 < 16) (h1 : v1 < 256) (h0 : v0 < 2)
    (e : w = v31 * 2147483648 + v25 * 33554432 + v21 * 2097152 + v17 * 131072 + v13 * 8192 + v9 * 512 + v1 * 2 + v0) :
    w < 2 ^ 32 ∧
      fld w 31 1 = v31 ∧
      fld w 25 6 = v25 ∧
      fld w 21 4 = v21 ∧
      fld w 17 4 = v17 ∧
      fld w 13 4 = v13 ∧
      fld w 9 4 = v9 ∧
      fld w 1 8 = v1 ∧
      fld w 0 1 = v0 := by
  unfold fld
  refine ⟨?_, ?_, ?_, ?_, ?_, ?_, ?_, ?_, ?_⟩ <;> omega

theorem fields_1_6_4_8_4_8_1 (w v31 v25 v21 v13 v9 v1 v0 : Nat)
    (h31 : v31 < 2) (h25 : v25 < 64) (h21 : v21 < 16) (h13 : v13 < 256) (h9 : v9 < 16) (h1 : v1 < 256) (h0 : v0 < 2)
    (e : w = v31 * 2147483648 + v25 * 33554432 + v21 * 2097152 + v13 * 8192 + v9 * 512 + v1 * 2 + v0) :
    w < 2 ^ 32 ∧
      fld w 31 1 = v31 ∧
      fld w 25 6 = v25 ∧
      fld w 21 4 = v21 ∧
      fld w 13 8 = v13 ∧
      fld w 9 4 = v9 ∧
      fld w 1 8 = v1 ∧
      fld w 0 1 = v0 := by
  unfold fld
  refine ⟨?_, ?_, ?_, ?_, ?_, ?_, ?_, ?_⟩ <;> omega

theorem fields_1_6_12_4_9 (w v31 v25 v13 v9 v0 : Nat)
    (h31 : v31 < 2) (h25 : v25 < 64) (h13 : v13 < 4096) (h9 : v9 < 16) (h0 : v0 < 512)
    (e : w = v31 * 2147483648 + v25 * 33554432 + v13 * 8192 + v9 * 512 + v0) :
    w < 2 ^ 32 ∧
      fld w 31 1 = v31 ∧
      fld w 25 6 = v25 ∧
      fld w 13 12 = v13 ∧
      fld w 9 4 = v9 ∧
      fld w 0 9 = v0 := by
  unfold fld
  refine ⟨?_, ?_, ?_, ?_, ?_, ?_⟩ <;> omega

theorem fields_1_6_4_4_4_4_4_2_1_1_1 (w v31 v25 v21 v17 v13 v9 v5 v3 v2 v1 v0 : Nat)
    (h31 : v31 < 2) (h25 : v25 < 64) (h21 : v21 < 16) (h17 : v17 < 16) (h13 : v13 < 16) (h9 : v9 < 16) (h5 : v5 < 16) (h3 : v3 < 4) (h2 : v2 < 2) (h1 : v1 < 2) (h0 : v0 < 2)
    (e : w = v31 * 2147483648 + v25 * 33554432 + v21 * 2097152 + v17 * 131072 + v13 * 8192 + v9 * 512 + v5 * 32 + v3 * 8 + v2 * 4 + v1 * 2 + v0) :
    w < 2 ^ 32 ∧
      fld w 31 1 = v31 ∧
      fld w 25 6 = v25 ∧
      fld w 21 4 = v21 ∧
      fld w 17 4 = v17 ∧
      fld w 13 4 = v13 ∧
      fld w 9 4 = v9 ∧
      fld w 5 4 = v5 ∧
      fld w 3 2 = v3 ∧
      fld w 2 1 = v2 ∧
      fld w 1 1 = v1 ∧
      fld w 0 1 = v0 := by
  unfold fld
  refine ⟨?_, ?_, ?_, ?_, ?_, ?_, ?_, ?_, ?_, ?_, ?_, ?_⟩ <;> omega

theorem fields_1_6_2_2_4_4_4_9 (w v31 v25 v23 v21 v17 v13 v9 v0 : Nat)
    (h31 : v31 < 2) (h25 : v25 < 64) (h23 : v23 < 4) (h21 : v21 < 4) (h17 : v17 < 16) (h13 : v13 < 16) (h9 : v9 < 16) (h0 : v0 < 512)
    (e : w = v31 * 2147483648 + v25 * 33554432 + v23 * 8388608 + v21 * 2097152 + v17 * 131072 + v13 * 8192 + v9 * 512 + v0) :
    w < 2 ^ 32 ∧
      fld w 31 1 = v31 ∧
      fld w 25 6 = v25 ∧
      fld w 23 2 = v23 ∧
      fld w 21 2 = v21 ∧
      fld w 17 4 = v17 ∧
      fld w 13 4 = v13 ∧
      fld w 9 4 = v9 ∧
      fld w 0 9 = v0 := by
  unfold fld
  refine ⟨?_, ?_, ?_, ?_, ?_, ?_, ?_, ?_, ?_⟩ <;> omega

theorem fields_1_6_1_3_2_2_4_4_9 (w v31 v25 v24 v21 v19 v17 v13 v9 v0 : Nat)
    (h31 : v31 < 2) (h25 : v25 < 64) (h24 : v24 < 2) (h21 : v21 < 8) (h19 : v19 < 4) (h17 : v17 < 4) (h13 : v13 < 16) (h9 : v9 < 16) (h0 : v0 < 512)
    (e : w = v31 * 2147483648 + v25 * 33554432 + v24 * 16777216 + v21 * 2097152 + v19 * 524288 + v17 * 131072 + v13 * 8192 + v9 * 512 + v0) :
    w < 2 ^ 32 ∧
      fld w 31 1 = v31 ∧
      fld w 25 6 = v25 ∧
      fld w 24 1 = v24 ∧
      fld w 21 3 = v21 ∧
      fld w 19 2 = v19 ∧
      fld w 17 2 = v17 ∧
      fld w 13 4 = v13 ∧
      fld w 9 4 = v9 ∧
      fld w 0 9 = v0 := by
  unfold fld
  refine ⟨?_, ?_, ?_, ?_, ?_, ?_, ?_, ?_, ?_, ?_⟩ <;> omega

theorem fields_1_6_4_4_4_4_9 (w v31 v25 v21 v17 v13 v9 v0 : Nat)
    (h31 : v31 < 2) (h25 : v25 < 64) (h21 : v21 < 16) (h17 : v17 < 16) (h13 : v13 < 16) (h9 : v9 < 16) (h0 : v0 < 512)
    (e : w = v31 * 2147483648 + v25 * 33554432 + v21 * 2097152 + v17 * 131072 + v13 * 8192 + v9 * 512 + v0) :
    w < 2 ^ 32 ∧
      fld w 31 1 = v31 ∧
      fld w 25 6 = v25 ∧
      fld w 21 4 = v21 ∧
      fld w 17 4 = v17 ∧
      fld w 13 4 = v13 ∧
      fld w 9 4 = v9 ∧
      fld w 0 9 = v0 := by
  unfold fld
  refine ⟨?_, ?_, ?_, ?_, ?_, ?_, ?_, ?_⟩ <;> omega

theorem fields_1_6_4_4_4_4_1_1_7 (w v31 v25 v21 v17 v13 v9 v8 v7 v0 : Nat)
    (h31 : v31 < 2) (h25 : v25 < 64) (h21 : v21 < 16) (h17 : v17 < 16) (h13 : v13 < 16) (h9 : v9 < 16) (h8 : v8 < 2) (h7 : v7 < 2) (h0 : v0 < 128)
    (e : w = v31 * 2147483648 + v25 * 33554432 + v21 * 2097152 + v17 * 131072 + v13 * 8192 + v9 * 512 + v8 * 256 + v7 * 128 + v0) :
    w < 2 ^ 32 ∧
      fld w 31 1 = v31 ∧
      fld w 25 6 = v25 ∧
      fld w 21 4 = v21 ∧
      fld w 17 4 = v17 ∧
      fld w 13 4 = v13 ∧
      fld w 9 4 = v9 ∧
      fld w 8 1 = v8 ∧
      fld w 7 1 = v7 ∧
      fld w 0 7 = v0 := by
  unfold fld
  refine ⟨?_, ?_, ?_, ?_, ?_, ?_, ?_, ?_, ?_, ?_⟩ <;> omega

theorem fields_1_6_4_4_5_12 (w v31 v25 v21 v17 v12 v0 : Nat)
    (h31 : v31 < 2) (h25 : v25 < 64) (h21 : v21 < 16) (h17 : v17 < 16) (h12 : v12 < 32) (h0 : v0 < 4096)
    (e : w = v31 * 2147483648 + v25 * 33554432 + v21 * 2097152 + v17 * 131072 + v12 * 4096 + v0) :
    w < 2 ^ 32 ∧
      fld w 31 1 = v31 ∧
      fld w 25 6 = v25 ∧
      fld w 21 4 = v21 ∧
      fld w 17 4 = v17 ∧
      fld w 12 5 = v12 ∧
      fld w 0 12 = v0 := by
  unfold fld
  refine ⟨?_, ?_, ?_, ?_, ?_, ?_, ?_⟩ <;> omega

theorem fields_1_6_4_21 (w v31 v25 v21 v0 : Nat)
    (h31 : v31 < 2) (h25 : v25 < 64) (h21 : v21 < 16) (h0 : v0 < 2097152)
    (e : w = v31 * 2147483648 + v25 * 33554432 + v21 * 2097152 + v0) :
    w < 2 ^ 32 ∧
      fld w 31 1 = v31 ∧
      fld w 25 6 = v25 ∧
      fld w 21 4 = v21 ∧
      fld w 0 21 = v0 := by
  unfold fld
  refine ⟨?_, ?_, ?_, ?_, ?_⟩ <;> omega

theorem fields_1_6_4_4_2_15 (w v31 v25 v21 v17 v15 v0 : Nat)
    (h31 : v31 < 2) (h25 : v25 < 64) (h21 : v21 < 16) (h17 : v17 < 16) (h15 : v15 < 4) (h0 : v0 < 32768)
    (e : w = v31 * 2147483648 + v25 * 33554432 + v21 * 2097152 + v17 * 131072 + v15 * 32768 + v0) :
    w < 2 ^ 32 ∧
      fld w 31 1 = v31 ∧
      fld w 25 6 = v25 ∧
      fld w 21 4 = v21 ∧
      fld w 17 4 = v17 ∧
      fld w 15 2 = v15 ∧
      fld w 0 15 = v0 := by
  unfold fld
  refine ⟨?_, ?_, ?_, ?_, ?_, ?_, ?_⟩ <;> omega

theorem fields_1_6_4_2_19 (w v31 v25 v21 v19 v0 : Nat)
    (h31 : v31 < 2) (h25 : v25 < 64) (h21 : v21 < 16) (h19 : v19 < 4) (h0 : v0 < 524288)
    (e : w = v31 * 2147483648 + v25 * 33554432 + v21 * 2097152 + v19 * 524288 + v0) :
    w < 2 ^ 32 ∧
      fld w 31 1 = v31 ∧
      fld w 25 6 = v25 ∧
      fld w 21 4 = v21 ∧
      fld w 19 2 = v19 ∧
      fld w 0 19 = v0 := by
  unfold fld
  refine ⟨?_, ?_, ?_, ?_, ?_, ?_⟩ <;> omega

theorem fields_1_6_4_19_2 (w v31 v25 v21 v2 v0 : Nat)
    (h31 : v31 < 2) (h25 : v25 < 64) (h21 : v21 < 16) (h2 : v2 < 524288) (h0 : v0 < 4)
    (e : w = v31 * 2147483648 + v25 * 33554432 + v21 * 2097152 + v2 * 4 + v0) :
    w < 2 ^ 32 ∧
      fld w 31 1 = v31 ∧
      fld w 25 6 = v25 ∧
      fld w 21 4 = v21 ∧
      fld w 2 19 = v2 ∧
      fld w 0 2 = v0 := by
  unfold fld
  refine ⟨?_, ?_, ?_, ?_, ?_, ?_⟩ <;> omega

theorem fields_1_6_4_5_16 (w v31 v25 v21 v16 v0 : Nat)
    (h31 : v31 < 2) (h25 : v25 < 64) (h21 : v21 < 16) (h16 : v16 < 32) (h0 : v0 < 65536)
    (e : w = v31 * 2147483648 + v25 * 33554432 + v21 * 2097152 + v16 * 65536 + v0) :
    w < 2 ^ 32 ∧
      fld w 31 1 = v31 ∧
      fld w 25 6 = v25 ∧
      fld w 21 4 = v21 ∧
      fld w 16 5 = v16 ∧
      fld w 0 16 = v0 := by
  unfold fld
  refine ⟨?_, ?_, ?_, ?_, ?_, ?_⟩ <;> omega

theorem fields_5_3_5_19 (w v27 v24 v19 v0 : Nat)
    (h27 : v27 < 32) (h24 : v24 < 8) (h19 : v19 < 32) (h0 : v0 < 524288)
    (e : w = v27 * 134217728 + v24 * 16777216 + v19 * 524288 + v0) :
    w < 2 ^ 32 ∧
      fld w 27 5 = v27 ∧
      fld w 24 3 = v24 ∧
      fld w 19 5 = v19 ∧
      fld w 0 19 = v0 := by
  unfold fld
  refine ⟨?_, ?_, ?_, ?_, ?_⟩ <;> omega

theorem fields_5_3_7_17 (w v27 v24 v17 v0 : Nat)
    (h27 : v27 < 32) (h24 : v24 < 8) (h17 : v17 < 128) (h0 : v0 < 131072)
    (e : w = v27 * 134217728 + v24 * 16777216 + v17 * 131072 + v0) :
    w < 2 ^ 32 ∧
      fld w 27 5 = v27 ∧
      fld w 24 3 = v24 ∧
      fld w 17 7 = v17 ∧
      fld w 0 17 = v0 := by
  unfold fld
  refine ⟨?_, ?_, ?_, ?_, ?_⟩ <;> omega

theorem fields_5_3_5_1_1_5_12 (w v27 v24 v19 v18 v17 v12 v0 : Nat)
    (h27 : v27 < 32) (h24 : v24 < 8) (h19 : v19 < 32) (h18 : v18 < 2) (h17 : v17 < 2) (h12 : v12 < 32) (h0 : v0 < 4096)
    (e : w = v27 * 134217728 + v24 * 16777216 + v19 * 524288 + v18 * 262144 + v17 * 131072 + v12 * 4096 + v0) :
    w < 2 ^ 32 ∧
      fld w 27 5 = v27 ∧
      fld w 24 3 = v24 ∧
      fld w 19 5 = v19 ∧
      fld w 18 1 = v18 ∧
      fld w 17 1 = v17 ∧
      fld w 12 5 = v12 ∧
      fld w 0 12 = v0 := by
  unfold fld
  refine ⟨?_, ?_, ?_, ?_, ?_, ?_, ?_, ?_⟩ <;> omega

theorem fields_5_3_5_1_1_17 (w v27 v24 v19 v18 v17 v0 : Nat)
    (h27 : v27 < 32) (h24 : v24 < 8) (h19 : v19 < 32) (h18 : v18 < 2) (h17 : v17 < 2) (h0 : v0 < 131072)
    (e : w = v27 * 134217728 + v24 * 16777216 + v19 * 524288 + v18 * 262144 + v17 * 131072 + v0) :
    w < 2 ^ 32 ∧
      fld w 27 5 = v27 ∧
      fld w 24 3 = v24 ∧
      fld w 19 5 = v19 ∧
      fld w 18 1 = v18 ∧
      fld w 17 1 = v17 ∧
      fld w 0 17 = v0 := by
  unfold fld
  refine ⟨?_, ?_, ?_, ?_, ?_, ?_, ?_⟩ <;> omega

theorem fields_5_3_5_2_5_12 (w v27 v24 v19 v17 v12 v0 : Nat)
    (h27 : v27 < 32) (h24 : v24 < 8) (h19 : v19 < 32) (h17 : v17 < 4) (h12 : v12 < 32) (h0 : v0 < 4096)
    (e : w = v27 * 134217728 + v24 * 16777216 + v19 * 524288 + v17 * 131072 + v12 * 4096 + v0) :
    w < 2 ^ 32 ∧
      fld w 27 5 = v27 ∧
      fld w 24 3 = v24 ∧
      fld w 19 5 = v19 ∧
      fld w 17 2 = v17 ∧
      fld w 12 5 = v12 ∧
      fld w 0 12 = v0 := by
  unfold fld
  refine ⟨?_, ?_, ?_, ?_, ?_, ?_, ?_⟩ <;> omega

theorem fields_5_3_5_2_17 (w v27 v24 v19 v17 v0 : Nat)
    (h27 : v27 < 32) (h24 : v24 < 8) (h19 : v19 < 32) (h17 : v17 < 4) (h0 : v0 < 131072)
    (e : w = v27 * 134217728 + v24 * 16777216 + v19 * 524288 + v17 * 131072 + v0) :
    w < 2 ^ 32 ∧
      fld w 27 5 = v27 ∧
      fld w 24 3 = v24 ∧
      fld w 19 5 = v19 ∧
      fld w 17 2 = v17 ∧
      fld w 0 17 = v0 := by
  unfold fld
  refine ⟨?_, ?_, ?_, ?_, ?_, ?_⟩ <;> omega

theorem fields_5_3_5_5_14 (w v27 v24 v19 v14 v0 : Nat)
    (h27 : v27 < 32) (h24 : v24 < 8) (h19 : v19 < 32) (h14 : v14 < 32) (h0 : v0 < 16384)
    (e : w = v27 * 134217728 + v24 * 16777216 + v19 * 524288 + v14 * 16384 + v0) :
    w < 2 ^ 32 ∧
      fld w 27 5 = v27 ∧
      fld w 24 3 = v24 ∧
      fld w 19 5 = v19 ∧
      fld w 14 5 = v14 ∧
      fld w 0 14 = v0 := by
  unfold fld
  refine ⟨?_, ?_, ?_, ?_, ?_, ?_⟩ <;> omega

theorem fields_5_27 (w v27 v0 : Nat)
    (h27 : v27 < 32) (h0 : v0 < 134217728)
    (e : w = v27 * 134217728 + v0) :
    w < 2 ^ 32 ∧
      fld w 27 5 = v27 ∧
      fld w 0 27 = v0 := by
  unfold fld
  refine ⟨?_, ?_, ?_⟩ <;> omega

theorem decodeInt_op {w : Nat} (h : fld w 25 6 = 0) : decodeFields w = decodeInt w := by
  unfold decodeFields; rw [h]; rfl

theorem decodeAddi_op {w : Nat} (h : fld w 25 6 = 1) : decodeFields w = decodeAddi w := by
  unfold decodeFields; rw [h]; rfl

theorem decodeAndi_op {w : Nat} (h : fld w 25 6 = 2) : decodeFields w = decodeAndi w := by
  unfold decodeFields; rw [h]; rfl

theorem decodeOri_op {w : Nat} (h : fld w 25 6 = 3) : decodeFields w = decodeOri w := by
  unfold decodeFields; rw [h]; rfl

theorem decodeXori_op {w : Nat} (h : fld w 25 6 = 4) : decodeFields w = decodeXori w := by
  unfold decodeFields; rw [h]; rfl

theorem decodeShi_op {w : Nat} (h : fld w 25 6 = 5) : decodeFields w = decodeShi w := by
  unfold decodeFields; rw [h]; rfl

theorem decodeLdi_op {w : Nat} (h : fld w 25 6 = 6) : decodeFields w = decodeLdi w := by
  unfold decodeFields; rw [h]; rfl

theorem decodeCmpi_op {w : Nat} (h : fld w 25 6 = 7) : decodeFields w = decodeCmpi w := by
  unfold decodeFields; rw [h]; rfl

theorem decodeMul_op {w : Nat} (h : fld w 25 6 = 8) : decodeFields w = decodeMul w := by
  unfold decodeFields; rw [h]; rfl

theorem decodeBit_op {w : Nat} (h : fld w 25 6 = 9) : decodeFields w = decodeBit w := by
  unfold decodeFields; rw [h]; rfl

theorem decodeCmp_op {w : Nat} (h : fld w 25 6 = 10) : decodeFields w = decodeCmp w := by
  unfold decodeFields; rw [h]; rfl

theorem decodePred_op {w : Nat} (h : fld w 25 6 = 11) : decodeFields w = decodePred w := by
  unfold decodeFields; rw [h]; rfl

theorem decodeLd_op {w : Nat} (h : fld w 25 6 = 12) : decodeFields w = decodeLd w := by
  unfold decodeFields; rw [h]; rfl

theorem decodeSt_op {w : Nat} (h : fld w 25 6 = 13) : decodeFields w = decodeSt w := by
  unfold decodeFields; rw [h]; rfl

theorem decodeAtom_op {w : Nat} (h : fld w 25 6 = 14) : decodeFields w = decodeAtom w := by
  unfold decodeFields; rw [h]; rfl

theorem decodeFe_op {w : Nat} (h : fld w 25 6 = 15) : decodeFields w = decodeFe w := by
  unfold decodeFields; rw [h]; rfl

theorem decodeBr_op {w : Nat} (h : fld w 25 6 = 16) : decodeFields w = decodeBr w := by
  unfold decodeFields; rw [h]; rfl

theorem decodeJ_op {w : Nat} (h : fld w 25 6 = 17) : decodeFields w = decodeJ w := by
  unfold decodeFields; rw [h]; rfl

theorem decodeJal_op {w : Nat} (h : fld w 25 6 = 18) : decodeFields w = decodeJal w := by
  unfold decodeFields; rw [h]; rfl

theorem decodeJr_op {w : Nat} (h : fld w 25 6 = 19) : decodeFields w = decodeJr w := by
  unfold decodeFields; rw [h]; rfl

theorem decodeSpawn_op {w : Nat} (h : fld w 25 6 = 20) : decodeFields w = decodeSpawn w := by
  unfold decodeFields; rw [h]; rfl

theorem decodeZ_op {w : Nat} (h : fld w 25 6 = 21) : decodeFields w = decodeZ w := by
  unfold decodeFields; rw [h]; rfl

theorem decodeThr_op {w : Nat} (h : fld w 25 6 = 22) : decodeFields w = decodeThr w := by
  unfold decodeFields; rw [h]; rfl

theorem decodeFence_op {w : Nat} (h : fld w 25 6 = 23) : decodeFields w = decodeFence w := by
  unfold decodeFields; rw [h]; rfl

theorem decodeTx_op {w : Nat} (h : fld w 25 6 = 24) : decodeFields w = decodeTx w := by
  unfold decodeFields; rw [h]; rfl

theorem decodeVar_op {w : Nat} (h : fld w 25 6 = 25) : decodeFields w = decodeVar w := by
  unfold decodeFields; rw [h]; rfl

theorem decodeVbit_op {w : Nat} (h : fld w 25 6 = 26) : decodeFields w = decodeVbit w := by
  unfold decodeFields; rw [h]; rfl

theorem decodeVfma_op {w : Nat} (h : fld w 25 6 = 27) : decodeFields w = decodeVfma w := by
  unfold decodeFields; rw [h]; rfl

theorem decodeVcmp_op {w : Nat} (h : fld w 25 6 = 28) : decodeFields w = decodeVcmp w := by
  unfold decodeFields; rw [h]; rfl

theorem decodeVperm_op {w : Nat} (h : fld w 25 6 = 29) : decodeFields w = decodeVperm w := by
  unfold decodeFields; rw [h]; rfl

theorem decodeVcvt_op {w : Nat} (h : fld w 25 6 = 30) : decodeFields w = decodeVcvt w := by
  unfold decodeFields; rw [h]; rfl

theorem decodeVmem_op {w : Nat} (h : fld w 25 6 = 31) : decodeFields w = decodeVmem w := by
  unfold decodeFields; rw [h]; rfl

theorem decodeVgat_op {w : Nat} (h : fld w 25 6 = 32) : decodeFields w = decodeVgat w := by
  unfold decodeFields; rw [h]; rfl

theorem decodeVspc_op {w : Nat} (h : fld w 25 6 = 33) : decodeFields w = decodeVspc w := by
  unfold decodeFields; rw [h]; rfl

theorem decodeMxc_op {w : Nat} (h : fld w 25 6 = 34) : decodeFields w = decodeMxc w := by
  unfold decodeFields; rw [h]; rfl

theorem decodeMxm_op {w : Nat} (h : fld w 25 6 = 35) : decodeFields w = decodeMxm w := by
  unfold decodeFields; rw [h]; rfl

theorem decodeMxo_op {w : Nat} (h : fld w 25 6 = 36) : decodeFields w = decodeMxo w := by
  unfold decodeFields; rw [h]; rfl

theorem decodeTq_op {w : Nat} (h : fld w 25 6 = 37) : decodeFields w = decodeTq w := by
  unfold decodeFields; rw [h]; rfl

theorem decodePat_op {w : Nat} (h : fld w 25 6 = 38) : decodeFields w = decodePat w := by
  unfold decodeFields; rw [h]; rfl

theorem decodeCpy_op {w : Nat} (h : fld w 25 6 = 39) : decodeFields w = decodeCpy w := by
  unfold decodeFields; rw [h]; rfl

theorem decodeXg_op {w : Nat} (h : fld w 25 6 = 40) : decodeFields w = decodeXg w := by
  unfold decodeFields; rw [h]; rfl

theorem decodeJob_op {w : Nat} (h : fld w 25 6 = 41) : decodeFields w = decodeJob w := by
  unfold decodeFields; rw [h]; rfl

theorem decodeSpr_op {w : Nat} (h : fld w 25 6 = 42) : decodeFields w = decodeSpr w := by
  unfold decodeFields; rw [h]; rfl

theorem decodeSys_op {w : Nat} (h : fld w 25 6 = 43) : decodeFields w = decodeSys w := by
  unfold decodeFields; rw [h]; rfl

theorem decodeLse_op {w : Nat} (h : fld w 25 6 = 44) : decodeFields w = decodeLse w := by
  unfold decodeFields; rw [h]; rfl

theorem decodeNet_op {w : Nat} (h : fld w 25 6 = 45) : decodeFields w = decodeNet w := by
  unfold decodeFields; rw [h]; rfl

theorem decodeFpd_op {w : Nat} (h : fld w 25 6 = 46) : decodeFields w = decodeFpd w := by
  unfold decodeFields; rw [h]; rfl

theorem decodeFp_op {w : Nat} (h : fld w 25 6 = 47) : decodeFields w = decodeFp w := by
  unfold decodeFields; rw [h]; rfl

theorem decodeHint_op {w : Nat} (h : fld w 25 6 = 63) : decodeFields w = decodeHint w := by
  unfold decodeFields; rw [h]; rfl

theorem decodeWord_of {w : Nat} {i : Instr} (h : decodeFields w = .ok i) (wf : WellFormed i) : decodeWord w = .ok i := by
  unfold decodeWord; rw [h]; simp only [show check i = none from wf]

theorem decodeCirrus_of {w : Nat} {i : Instr} (h : decodeCirrusFields w = .ok i) (wf : WellFormed i) :
    decodeCirrus w = .ok i := by
  unfold decodeCirrus; rw [h]; simp only [show check i = none from wf]

end Sys2Proof.Laws
end

