-- ==== Sys2Proof/Laws/PerInstr.lean ====
section
/-! SUPPORT. The family RoundTrip: the word of an instruction has 32 bits, and the decoder of its word space reads the
instruction back from it (R52, R58, R246). One lemma per constructor. -/

namespace Sys2Proof.Laws

/-- The word of a well-formed instruction decodes to it; a step of the machine that is no instruction has no word. -/
def RoundTrip.Statement (i : Instr) : Prop :=
  encode i < 2 ^ 32 ∧ match wordSpace i with
    | .cpu => WellFormed i → decodeWord (encode i) = .ok i
    | .cirrus => WellFormed i → decodeCirrus (encode i) = .ok i
    | .event => encode i = 0

theorem RoundTrip.add (sm : Bool) (d : Fin 16) (a : Fin 16) (b : Fin 16) : RoundTrip.Statement (.add sm d a b) := by
  suffices H : ∀ wd, wd = 0x0 + sm.toNat * 2147483648 + d.val * 2097152 + a.val * 131072 + b.val * 8192 →
      wd < 2 ^ 32 ∧ decodeFields wd = .ok (.add sm d a b) from
    (H (encode (.add sm d a b)) rfl).imp_right decodeWord_of
  intro wd e
  obtain ⟨hw, f31, f25, f21, f17, f13, f7, f0⟩ :=
    fields_1_6_4_4_4_6_7 wd sm.toNat 0 d.val a.val b.val 0 0
      sm.toNat_lt (by decide) d.isLt a.isLt b.isLt (by decide) (by decide) (by subst e; omega)
  refine ⟨hw, ?_⟩
  rw [decodeInt_op f25]
  unfold decodeInt
  rw [f7]
  refine (if_pos f0).trans ?_
  rw [bit_of f31, finOf_of f21, finOf_of f17, finOf_of f13]

theorem RoundTrip.sub (sm : Bool) (d : Fin 16) (a : Fin 16) (b : Fin 16) : RoundTrip.Statement (.sub sm d a b) := by
  suffices H : ∀ wd, wd = 0x80 + sm.toNat * 2147483648 + d.val * 2097152 + a.val * 131072 + b.val * 8192 →
      wd < 2 ^ 32 ∧ decodeFields wd = .ok (.sub sm d a b) from
    (H (encode (.sub sm d a b)) rfl).imp_right decodeWord_of
  intro wd e
  obtain ⟨hw, f31, f25, f21, f17, f13, f7, f0⟩ :=
    fields_1_6_4_4_4_6_7 wd sm.toNat 0 d.val a.val b.val 1 0
      sm.toNat_lt (by decide) d.isLt a.isLt b.isLt (by decide) (by decide) (by subst e; omega)
  refine ⟨hw, ?_⟩
  rw [decodeInt_op f25]
  unfold decodeInt
  rw [f7]
  refine (if_pos f0).trans ?_
  rw [bit_of f31, finOf_of f21, finOf_of f17, finOf_of f13]

theorem RoundTrip.addw (sm : Bool) (d : Fin 16) (a : Fin 16) (b : Fin 16) : RoundTrip.Statement (.addw sm d a b) := by
  suffices H : ∀ wd, wd = 0x100 + sm.toNat * 2147483648 + d.val * 2097152 + a.val * 131072 + b.val * 8192 →
      wd < 2 ^ 32 ∧ decodeFields wd = .ok (.addw sm d a b) from
    (H (encode (.addw sm d a b)) rfl).imp_right decodeWord_of
  intro wd e
  obtain ⟨hw, f31, f25, f21, f17, f13, f7, f0⟩ :=
    fields_1_6_4_4_4_6_7 wd sm.toNat 0 d.val a.val b.val 2 0
      sm.toNat_lt (by decide) d.isLt a.isLt b.isLt (by decide) (by decide) (by subst e; omega)
  refine ⟨hw, ?_⟩
  rw [decodeInt_op f25]
  unfold decodeInt
  rw [f7]
  refine (if_pos f0).trans ?_
  rw [bit_of f31, finOf_of f21, finOf_of f17, finOf_of f13]

theorem RoundTrip.subw (sm : Bool) (d : Fin 16) (a : Fin 16) (b : Fin 16) : RoundTrip.Statement (.subw sm d a b) := by
  suffices H : ∀ wd, wd = 0x180 + sm.toNat * 2147483648 + d.val * 2097152 + a.val * 131072 + b.val * 8192 →
      wd < 2 ^ 32 ∧ decodeFields wd = .ok (.subw sm d a b) from
    (H (encode (.subw sm d a b)) rfl).imp_right decodeWord_of
  intro wd e
  obtain ⟨hw, f31, f25, f21, f17, f13, f7, f0⟩ :=
    fields_1_6_4_4_4_6_7 wd sm.toNat 0 d.val a.val b.val 3 0
      sm.toNat_lt (by decide) d.isLt a.isLt b.isLt (by decide) (by decide) (by subst e; omega)
  refine ⟨hw, ?_⟩
  rw [decodeInt_op f25]
  unfold decodeInt
  rw [f7]
  refine (if_pos f0).trans ?_
  rw [bit_of f31, finOf_of f21, finOf_of f17, finOf_of f13]

theorem RoundTrip.and (sm : Bool) (d : Fin 16) (a : Fin 16) (b : Fin 16) : RoundTrip.Statement (.and sm d a b) := by
  suffices H : ∀ wd, wd = 0x200 + sm.toNat * 2147483648 + d.val * 2097152 + a.val * 131072 + b.val * 8192 →
      wd < 2 ^ 32 ∧ decodeFields wd = .ok (.and sm d a b) from
    (H (encode (.and sm d a b)) rfl).imp_right decodeWord_of
  intro wd e
  obtain ⟨hw, f31, f25, f21, f17, f13, f7, f0⟩ :=
    fields_1_6_4_4_4_6_7 wd sm.toNat 0 d.val a.val b.val 4 0
      sm.toNat_lt (by decide) d.isLt a.isLt b.isLt (by decide) (by decide) (by subst e; omega)
  refine ⟨hw, ?_⟩
  rw [decodeInt_op f25]
  unfold decodeInt
  rw [f7]
  refine (if_pos f0).trans ?_
  rw [bit_of f31, finOf_of f21, finOf_of f17, finOf_of f13]

theorem RoundTrip.or (sm : Bool) (d : Fin 16) (a : Fin 16) (b : Fin 16) : RoundTrip.Statement (.or sm d a b) := by
  suffices H : ∀ wd, wd = 0x280 + sm.toNat * 2147483648 + d.val * 2097152 + a.val * 131072 + b.val * 8192 →
      wd < 2 ^ 32 ∧ decodeFields wd = .ok (.or sm d a b) from
    (H (encode (.or sm d a b)) rfl).imp_right decodeWord_of
  intro wd e
  obtain ⟨hw, f31, f25, f21, f17, f13, f7, f0⟩ :=
    fields_1_6_4_4_4_6_7 wd sm.toNat 0 d.val a.val b.val 5 0
      sm.toNat_lt (by decide) d.isLt a.isLt b.isLt (by decide) (by decide) (by subst e; omega)
  refine ⟨hw, ?_⟩
  rw [decodeInt_op f25]
  unfold decodeInt
  rw [f7]
  refine (if_pos f0).trans ?_
  rw [bit_of f31, finOf_of f21, finOf_of f17, finOf_of f13]

theorem RoundTrip.xor (sm : Bool) (d : Fin 16) (a : Fin 16) (b : Fin 16) : RoundTrip.Statement (.xor sm d a b) := by
  suffices H : ∀ wd, wd = 0x300 + sm.toNat * 2147483648 + d.val * 2097152 + a.val * 131072 + b.val * 8192 →
      wd < 2 ^ 32 ∧ decodeFields wd = .ok (.xor sm d a b) from
    (H (encode (.xor sm d a b)) rfl).imp_right decodeWord_of
  intro wd e
  obtain ⟨hw, f31, f25, f21, f17, f13, f7, f0⟩ :=
    fields_1_6_4_4_4_6_7 wd sm.toNat 0 d.val a.val b.val 6 0
      sm.toNat_lt (by decide) d.isLt a.isLt b.isLt (by decide) (by decide) (by subst e; omega)
  refine ⟨hw, ?_⟩
  rw [decodeInt_op f25]
  unfold decodeInt
  rw [f7]
  refine (if_pos f0).trans ?_
  rw [bit_of f31, finOf_of f21, finOf_of f17, finOf_of f13]

theorem RoundTrip.andn (sm : Bool) (d : Fin 16) (a : Fin 16) (b : Fin 16) : RoundTrip.Statement (.andn sm d a b) := by
  suffices H : ∀ wd, wd = 0x380 + sm.toNat * 2147483648 + d.val * 2097152 + a.val * 131072 + b.val * 8192 →
      wd < 2 ^ 32 ∧ decodeFields wd = .ok (.andn sm d a b) from
    (H (encode (.andn sm d a b)) rfl).imp_right decodeWord_of
  intro wd e
  obtain ⟨hw, f31, f25, f21, f17, f13, f7, f0⟩ :=
    fields_1_6_4_4_4_6_7 wd sm.toNat 0 d.val a.val b.val 7 0
      sm.toNat_lt (by decide) d.isLt a.isLt b.isLt (by decide) (by decide) (by subst e; omega)
  refine ⟨hw, ?_⟩
  rw [decodeInt_op f25]
  unfold decodeInt
  rw [f7]
  refine (if_pos f0).trans ?_
  rw [bit_of f31, finOf_of f21, finOf_of f17, finOf_of f13]

theorem RoundTrip.shl (sm : Bool) (d : Fin 16) (a : Fin 16) (b : Fin 16) : RoundTrip.Statement (.shl sm d a b) := by
  suffices H : ∀ wd, wd = 0x400 + sm.toNat * 2147483648 + d.val * 2097152 + a.val * 131072 + b.val * 8192 →
      wd < 2 ^ 32 ∧ decodeFields wd = .ok (.shl sm d a b) from
    (H (encode (.shl sm d a b)) rfl).imp_right decodeWord_of
  intro wd e
  obtain ⟨hw, f31, f25, f21, f17, f13, f7, f0⟩ :=
    fields_1_6_4_4_4_6_7 wd sm.toNat 0 d.val a.val b.val 8 0
      sm.toNat_lt (by decide) d.isLt a.isLt b.isLt (by decide) (by decide) (by subst e; omega)
  refine ⟨hw, ?_⟩
  rw [decodeInt_op f25]
  unfold decodeInt
  rw [f7]
  refine (if_pos f0).trans ?_
  rw [bit_of f31, finOf_of f21, finOf_of f17, finOf_of f13]

theorem RoundTrip.shr (sm : Bool) (d : Fin 16) (a : Fin 16) (b : Fin 16) : RoundTrip.Statement (.shr sm d a b) := by
  suffices H : ∀ wd, wd = 0x480 + sm.toNat * 2147483648 + d.val * 2097152 + a.val * 131072 + b.val * 8192 →
      wd < 2 ^ 32 ∧ decodeFields wd = .ok (.shr sm d a b) from
    (H (encode (.shr sm d a b)) rfl).imp_right decodeWord_of
  intro wd e
  obtain ⟨hw, f31, f25, f21, f17, f13, f7, f0⟩ :=
    fields_1_6_4_4_4_6_7 wd sm.toNat 0 d.val a.val b.val 9 0
      sm.toNat_lt (by decide) d.isLt a.isLt b.isLt (by decide) (by decide) (by subst e; omega)
  refine ⟨hw, ?_⟩
  rw [decodeInt_op f25]
  unfold decodeInt
  rw [f7]
  refine (if_pos f0).trans ?_
  rw [bit_of f31, finOf_of f21, finOf_of f17, finOf_of f13]

theorem RoundTrip.sar (sm : Bool) (d : Fin 16) (a : Fin 16) (b : Fin 16) : RoundTrip.Statement (.sar sm d a b) := by
  suffices H : ∀ wd, wd = 0x500 + sm.toNat * 2147483648 + d.val * 2097152 + a.val * 131072 + b.val * 8192 →
      wd < 2 ^ 32 ∧ decodeFields wd = .ok (.sar sm d a b) from
    (H (encode (.sar sm d a b)) rfl).imp_right decodeWord_of
  intro wd e
  obtain ⟨hw, f31, f25, f21, f17, f13, f7, f0⟩ :=
    fields_1_6_4_4_4_6_7 wd sm.toNat 0 d.val a.val b.val 10 0
      sm.toNat_lt (by decide) d.isLt a.isLt b.isLt (by decide) (by decide) (by subst e; omega)
  refine ⟨hw, ?_⟩
  rw [decodeInt_op f25]
  unfold decodeInt
  rw [f7]
  refine (if_pos f0).trans ?_
  rw [bit_of f31, finOf_of f21, finOf_of f17, finOf_of f13]

theorem RoundTrip.min (sm : Bool) (d : Fin 16) (a : Fin 16) (b : Fin 16) : RoundTrip.Statement (.min sm d a b) := by
  suffices H : ∀ wd, wd = 0x580 + sm.toNat * 2147483648 + d.val * 2097152 + a.val * 131072 + b.val * 8192 →
      wd < 2 ^ 32 ∧ decodeFields wd = .ok (.min sm d a b) from
    (H (encode (.min sm d a b)) rfl).imp_right decodeWord_of
  intro wd e
  obtain ⟨hw, f31, f25, f21, f17, f13, f7, f0⟩ :=
    fields_1_6_4_4_4_6_7 wd sm.toNat 0 d.val a.val b.val 11 0
      sm.toNat_lt (by decide) d.isLt a.isLt b.isLt (by decide) (by decide) (by subst e; omega)
  refine ⟨hw, ?_⟩
  rw [decodeInt_op f25]
  unfold decodeInt
  rw [f7]
  refine (if_pos f0).trans ?_
  rw [bit_of f31, finOf_of f21, finOf_of f17, finOf_of f13]

theorem RoundTrip.max (sm : Bool) (d : Fin 16) (a : Fin 16) (b : Fin 16) : RoundTrip.Statement (.max sm d a b) := by
  suffices H : ∀ wd, wd = 0x600 + sm.toNat * 2147483648 + d.val * 2097152 + a.val * 131072 + b.val * 8192 →
      wd < 2 ^ 32 ∧ decodeFields wd = .ok (.max sm d a b) from
    (H (encode (.max sm d a b)) rfl).imp_right decodeWord_of
  intro wd e
  obtain ⟨hw, f31, f25, f21, f17, f13, f7, f0⟩ :=
    fields_1_6_4_4_4_6_7 wd sm.toNat 0 d.val a.val b.val 12 0
      sm.toNat_lt (by decide) d.isLt a.isLt b.isLt (by decide) (by decide) (by subst e; omega)
  refine ⟨hw, ?_⟩
  rw [decodeInt_op f25]
  unfold decodeInt
  rw [f7]
  refine (if_pos f0).trans ?_
  rw [bit_of f31, finOf_of f21, finOf_of f17, finOf_of f13]

theorem RoundTrip.minu (sm : Bool) (d : Fin 16) (a : Fin 16) (b : Fin 16) : RoundTrip.Statement (.minu sm d a b) := by
  suffices H : ∀ wd, wd = 0x680 + sm.toNat * 2147483648 + d.val * 2097152 + a.val * 131072 + b.val * 8192 →
      wd < 2 ^ 32 ∧ decodeFields wd = .ok (.minu sm d a b) from
    (H (encode (.minu sm d a b)) rfl).imp_right decodeWord_of
  intro wd e
  obtain ⟨hw, f31, f25, f21, f17, f13, f7, f0⟩ :=
    fields_1_6_4_4_4_6_7 wd sm.toNat 0 d.val a.val b.val 13 0
      sm.toNat_lt (by decide) d.isLt a.isLt b.isLt (by decide) (by decide) (by subst e; omega)
  refine ⟨hw, ?_⟩
  rw [decodeInt_op f25]
  unfold decodeInt
  rw [f7]
  refine (if_pos f0).trans ?_
  rw [bit_of f31, finOf_of f21, finOf_of f17, finOf_of f13]

theorem RoundTrip.maxu (sm : Bool) (d : Fin 16) (a : Fin 16) (b : Fin 16) : RoundTrip.Statement (.maxu sm d a b) := by
  suffices H : ∀ wd, wd = 0x700 + sm.toNat * 2147483648 + d.val * 2097152 + a.val * 131072 + b.val * 8192 →
      wd < 2 ^ 32 ∧ decodeFields wd = .ok (.maxu sm d a b) from
    (H (encode (.maxu sm d a b)) rfl).imp_right decodeWord_of
  intro wd e
  obtain ⟨hw, f31, f25, f21, f17, f13, f7, f0⟩ :=
    fields_1_6_4_4_4_6_7 wd sm.toNat 0 d.val a.val b.val 14 0
      sm.toNat_lt (by decide) d.isLt a.isLt b.isLt (by decide) (by decide) (by subst e; omega)
  refine ⟨hw, ?_⟩
  rw [decodeInt_op f25]
  unfold decodeInt
  rw [f7]
  refine (if_pos f0).trans ?_
  rw [bit_of f31, finOf_of f21, finOf_of f17, finOf_of f13]

theorem RoundTrip.abs (sm : Bool) (d : Fin 16) (a : Fin 16) : RoundTrip.Statement (.abs sm d a) := by
  suffices H : ∀ wd, wd = 0x780 + sm.toNat * 2147483648 + d.val * 2097152 + a.val * 131072 →
      wd < 2 ^ 32 ∧ decodeFields wd = .ok (.abs sm d a) from
    (H (encode (.abs sm d a)) rfl).imp_right decodeWord_of
  intro wd e
  obtain ⟨hw, f31, f25, f21, f17, f13, f7, f0⟩ :=
    fields_1_6_4_4_4_6_7 wd sm.toNat 0 d.val a.val 0 15 0
      sm.toNat_lt (by decide) d.isLt a.isLt (by decide) (by decide) (by decide) (by subst e; omega)
  refine ⟨hw, ?_⟩
  rw [decodeInt_op f25]
  unfold decodeInt
  rw [f7]
  refine (if_pos ⟨f0, f13⟩).trans ?_
  rw [bit_of f31, finOf_of f21, finOf_of f17]

theorem RoundTrip.neg (sm : Bool) (d : Fin 16) (a : Fin 16) : RoundTrip.Statement (.neg sm d a) := by
  suffices H : ∀ wd, wd = 0x800 + sm.toNat * 2147483648 + d.val * 2097152 + a.val * 131072 →
      wd < 2 ^ 32 ∧ decodeFields wd = .ok (.neg sm d a) from
    (H (encode (.neg sm d a)) rfl).imp_right decodeWord_of
  intro wd e
  obtain ⟨hw, f31, f25, f21, f17, f13, f7, f0⟩ :=
    fields_1_6_4_4_4_6_7 wd sm.toNat 0 d.val a.val 0 16 0
      sm.toNat_lt (by decide) d.isLt a.isLt (by decide) (by decide) (by decide) (by subst e; omega)
  refine ⟨hw, ?_⟩
  rw [decodeInt_op f25]
  unfold decodeInt
  rw [f7]
  refine (if_pos ⟨f0, f13⟩).trans ?_
  rw [bit_of f31, finOf_of f21, finOf_of f17]

theorem RoundTrip.mov (sm : Bool) (d : Fin 16) (a : Fin 16) : RoundTrip.Statement (.mov sm d a) := by
  suffices H : ∀ wd, wd = 0x880 + sm.toNat * 2147483648 + d.val * 2097152 + a.val * 131072 →
      wd < 2 ^ 32 ∧ decodeFields wd = .ok (.mov sm d a) from
    (H (encode (.mov sm d a)) rfl).imp_right decodeWord_of
  intro wd e
  obtain ⟨hw, f31, f25, f21, f17, f13, f7, f0⟩ :=
    fields_1_6_4_4_4_6_7 wd sm.toNat 0 d.val a.val 0 17 0
      sm.toNat_lt (by decide) d.isLt a.isLt (by decide) (by decide) (by decide) (by subst e; omega)
  refine ⟨hw, ?_⟩
  rw [decodeInt_op f25]
  unfold decodeInt
  rw [f7]
  refine (if_pos ⟨f0, f13⟩).trans ?_
  rw [bit_of f31, finOf_of f21, finOf_of f17]

theorem RoundTrip.sh1add (sm : Bool) (d : Fin 16) (a : Fin 16) (b : Fin 16) : RoundTrip.Statement (.sh1add sm d a b) := by
  suffices H : ∀ wd, wd = 0x900 + sm.toNat * 2147483648 + d.val * 2097152 + a.val * 131072 + b.val * 8192 →
      wd < 2 ^ 32 ∧ decodeFields wd = .ok (.sh1add sm d a b) from
    (H (encode (.sh1add sm d a b)) rfl).imp_right decodeWord_of
  intro wd e
  obtain ⟨hw, f31, f25, f21, f17, f13, f7, f0⟩ :=
    fields_1_6_4_4_4_6_7 wd sm.toNat 0 d.val a.val b.val 18 0
      sm.toNat_lt (by decide) d.isLt a.isLt b.isLt (by decide) (by decide) (by subst e; omega)
  refine ⟨hw, ?_⟩
  rw [decodeInt_op f25]
  unfold decodeInt
  rw [f7]
  refine (if_pos f0).trans ?_
  rw [bit_of f31, finOf_of f21, finOf_of f17, finOf_of f13]

theorem RoundTrip.sh2add (sm : Bool) (d : Fin 16) (a : Fin 16) (b : Fin 16) : RoundTrip.Statement (.sh2add sm d a b) := by
  suffices H : ∀ wd, wd = 0x980 + sm.toNat * 2147483648 + d.val * 2097152 + a.val * 131072 + b.val * 8192 →
      wd < 2 ^ 32 ∧ decodeFields wd = .ok (.sh2add sm d a b) from
    (H (encode (.sh2add sm d a b)) rfl).imp_right decodeWord_of
  intro wd e
  obtain ⟨hw, f31, f25, f21, f17, f13, f7, f0⟩ :=
    fields_1_6_4_4_4_6_7 wd sm.toNat 0 d.val a.val b.val 19 0
      sm.toNat_lt (by decide) d.isLt a.isLt b.isLt (by decide) (by decide) (by subst e; omega)
  refine ⟨hw, ?_⟩
  rw [decodeInt_op f25]
  unfold decodeInt
  rw [f7]
  refine (if_pos f0).trans ?_
  rw [bit_of f31, finOf_of f21, finOf_of f17, finOf_of f13]

theorem RoundTrip.sh3add (sm : Bool) (d : Fin 16) (a : Fin 16) (b : Fin 16) : RoundTrip.Statement (.sh3add sm d a b) := by
  suffices H : ∀ wd, wd = 0xa00 + sm.toNat * 2147483648 + d.val * 2097152 + a.val * 131072 + b.val * 8192 →
      wd < 2 ^ 32 ∧ decodeFields wd = .ok (.sh3add sm d a b) from
    (H (encode (.sh3add sm d a b)) rfl).imp_right decodeWord_of
  intro wd e
  obtain ⟨hw, f31, f25, f21, f17, f13, f7, f0⟩ :=
    fields_1_6_4_4_4_6_7 wd sm.toNat 0 d.val a.val b.val 20 0
      sm.toNat_lt (by decide) d.isLt a.isLt b.isLt (by decide) (by decide) (by subst e; omega)
  refine ⟨hw, ?_⟩
  rw [decodeInt_op f25]
  unfold decodeInt
  rw [f7]
  refine (if_pos f0).trans ?_
  rw [bit_of f31, finOf_of f21, finOf_of f17, finOf_of f13]

theorem RoundTrip.addi (sm : Bool) (d : Fin 16) (a : Fin 16) (i : BitVec 17) : RoundTrip.Statement (.addi sm d a i) := by
  suffices H : ∀ wd, wd = 0x2000000 + sm.toNat * 2147483648 + d.val * 2097152 + a.val * 131072 + i.toNat →
      wd < 2 ^ 32 ∧ decodeFields wd = .ok (.addi sm d a i) from
    (H (encode (.addi sm d a i)) rfl).imp_right decodeWord_of
  intro wd e
  obtain ⟨hw, f31, f25, f21, f17, f0⟩ :=
    fields_1_6_4_4_17 wd sm.toNat 1 d.val a.val i.toNat
      sm.toNat_lt (by decide) d.isLt a.isLt i.isLt (by subst e; omega)
  refine ⟨hw, ?_⟩
  rw [decodeAddi_op f25]
  unfold decodeAddi
  rw [bit_of f31, finOf_of f21, finOf_of f17, ofNat_of f0]

theorem RoundTrip.andi (sm : Bool) (d : Fin 16) (a : Fin 16) (i : BitVec 17) : RoundTrip.Statement (.andi sm d a i) := by
  suffices H : ∀ wd, wd = 0x4000000 + sm.toNat * 2147483648 + d.val * 2097152 + a.val * 131072 + i.toNat →
      wd < 2 ^ 32 ∧ decodeFields wd = .ok (.andi sm d a i) from
    (H (encode (.andi sm d a i)) rfl).imp_right decodeWord_of
  intro wd e
  obtain ⟨hw, f31, f25, f21, f17, f0⟩ :=
    fields_1_6_4_4_17 wd sm.toNat 2 d.val a.val i.toNat
      sm.toNat_lt (by decide) d.isLt a.isLt i.isLt (by subst e; omega)
  refine ⟨hw, ?_⟩
  rw [decodeAndi_op f25]
  unfold decodeAndi
  rw [bit_of f31, finOf_of f21, finOf_of f17, ofNat_of f0]

theorem RoundTrip.ori (sm : Bool) (d : Fin 16) (a : Fin 16) (i : BitVec 17) : RoundTrip.Statement (.ori sm d a i) := by
  suffices H : ∀ wd, wd = 0x6000000 + sm.toNat * 2147483648 + d.val * 2097152 + a.val * 131072 + i.toNat →
      wd < 2 ^ 32 ∧ decodeFields wd = .ok (.ori sm d a i) from
    (H (encode (.ori sm d a i)) rfl).imp_right decodeWord_of
  intro wd e
  obtain ⟨hw, f31, f25, f21, f17, f0⟩ :=
    fields_1_6_4_4_17 wd sm.toNat 3 d.val a.val i.toNat
      sm.toNat_lt (by decide) d.isLt a.isLt i.isLt (by subst e; omega)
  refine ⟨hw, ?_⟩
  rw [decodeOri_op f25]
  unfold decodeOri
  rw [bit_of f31, finOf_of f21, finOf_of f17, ofNat_of f0]

theorem RoundTrip.xori (sm : Bool) (d : Fin 16) (a : Fin 16) (i : BitVec 17) : RoundTrip.Statement (.xori sm d a i) := by
  suffices H : ∀ wd, wd = 0x8000000 + sm.toNat * 2147483648 + d.val * 2097152 + a.val * 131072 + i.toNat →
      wd < 2 ^ 32 ∧ decodeFields wd = .ok (.xori sm d a i) from
    (H (encode (.xori sm d a i)) rfl).imp_right decodeWord_of
  intro wd e
  obtain ⟨hw, f31, f25, f21, f17, f0⟩ :=
    fields_1_6_4_4_17 wd sm.toNat 4 d.val a.val i.toNat
      sm.toNat_lt (by decide) d.isLt a.isLt i.isLt (by subst e; omega)
  refine ⟨hw, ?_⟩
  rw [decodeXori_op f25]
  unfold decodeXori
  rw [bit_of f31, finOf_of f21, finOf_of f17, ofNat_of f0]

theorem RoundTrip.shli (sm : Bool) (d : Fin 16) (a : Fin 16) (n : BitVec 6) : RoundTrip.Statement (.shli sm d a n) := by
  suffices H : ∀ wd, wd = 0xa000000 + sm.toNat * 2147483648 + d.val * 2097152 + a.val * 131072 + n.toNat →
      wd < 2 ^ 32 ∧ decodeFields wd = .ok (.shli sm d a n) from
    (H (encode (.shli sm d a n)) rfl).imp_right decodeWord_of
  intro wd e
  obtain ⟨hw, f31, f25, f21, f17, f13, f7, f6, f0⟩ :=
    fields_1_6_4_4_4_6_1_6 wd sm.toNat 5 d.val a.val 0 0 0 n.toNat
      sm.toNat_lt (by decide) d.isLt a.isLt (by decide) (by decide) (by decide) n.isLt (by subst e; omega)
  refine ⟨hw, ?_⟩
  rw [decodeShi_op f25]
  unfold decodeShi
  rw [f7]
  refine (if_pos ⟨f6, f13⟩).trans ?_
  rw [bit_of f31, finOf_of f21, finOf_of f17, ofNat_of f0]

theorem RoundTrip.shri (sm : Bool) (d : Fin 16) (a : Fin 16) (n : BitVec 6) : RoundTrip.Statement (.shri sm d a n) := by
  suffices H : ∀ wd, wd = 0xa000080 + sm.toNat * 2147483648 + d.val * 2097152 + a.val * 131072 + n.toNat →
      wd < 2 ^ 32 ∧ decodeFields wd = .ok (.shri sm d a n) from
    (H (encode (.shri sm d a n)) rfl).imp_right decodeWord_of
  intro wd e
  obtain ⟨hw, f31, f25, f21, f17, f13, f7, f6, f0⟩ :=
    fields_1_6_4_4_4_6_1_6 wd sm.toNat 5 d.val a.val 0 1 0 n.toNat
      sm.toNat_lt (by decide) d.isLt a.isLt (by decide) (by decide) (by decide) n.isLt (by subst e; omega)
  refine ⟨hw, ?_⟩
  rw [decodeShi_op f25]
  unfold decodeShi
  rw [f7]
  refine (if_pos ⟨f6, f13⟩).trans ?_
  rw [bit_of f31, finOf_of f21, finOf_of f17, ofNat_of f0]

theorem RoundTrip.sari (sm : Bool) (d : Fin 16) (a : Fin 16) (n : BitVec 6) : RoundTrip.Statement (.sari sm d a n) := by
  suffices H : ∀ wd, wd = 0xa000100 + sm.toNat * 2147483648 + d.val * 2097152 + a.val * 131072 + n.toNat →
      wd < 2 ^ 32 ∧ decodeFields wd = .ok (.sari sm d a n) from
    (H (encode (.sari sm d a n)) rfl).imp_right decodeWord_of
  intro wd e
  obtain ⟨hw, f31, f25, f21, f17, f13, f7, f6, f0⟩ :=
    fields_1_6_4_4_4_6_1_6 wd sm.toNat 5 d.val a.val 0 2 0 n.toNat
      sm.toNat_lt (by decide) d.isLt a.isLt (by decide) (by decide) (by decide) n.isLt (by subst e; omega)
  refine ⟨hw, ?_⟩
  rw [decodeShi_op f25]
  unfold decodeShi
  rw [f7]
  refine (if_pos ⟨f6, f13⟩).trans ?_
  rw [bit_of f31, finOf_of f21, finOf_of f17, ofNat_of f0]

theorem RoundTrip.ldi (sm : Bool) (d : Fin 16) (i : BitVec 17) : RoundTrip.Statement (.ldi sm d i) := by
  suffices H : ∀ wd, wd = 0xc000000 + sm.toNat * 2147483648 + d.val * 2097152 + i.toNat →
      wd < 2 ^ 32 ∧ decodeFields wd = .ok (.ldi sm d i) from
    (H (encode (.ldi sm d i)) rfl).imp_right decodeWord_of
  intro wd e
  obtain ⟨hw, f31, f25, f21, f17, f0⟩ :=
    fields_1_6_4_4_17 wd sm.toNat 6 d.val 0 i.toNat
      sm.toNat_lt (by decide) d.isLt (by decide) i.isLt (by subst e; omega)
  refine ⟨hw, ?_⟩
  rw [decodeLdi_op f25]
  unfold decodeLdi
  refine (if_pos f17).trans ?_
  rw [bit_of f31, finOf_of f21, ofNat_of f0]

theorem RoundTrip.cmpi (sm : Bool) (p : Fin 8) (c : Cond) (a : Fin 16) (i : BitVec 15) : RoundTrip.Statement (.cmpi sm p c a i) := by
  suffices H : ∀ wd, wd = 0xe000000 + sm.toNat * 2147483648 + p.val * 4194304 + condCode c * 524288 + a.val * 32768 + i.toNat →
      wd < 2 ^ 32 ∧ decodeFields wd = .ok (.cmpi sm p c a i) from
    (H (encode (.cmpi sm p c a i)) rfl).imp_right decodeWord_of
  intro wd e
  obtain ⟨hw, f31, f25, f22, f19, f15, f0⟩ :=
    fields_1_6_3_3_4_15 wd sm.toNat 7 p.val (condCode c) a.val i.toNat
      sm.toNat_lt (by decide) p.isLt (condCode_lt c) a.isLt i.isLt (by subst e; omega)
  refine ⟨hw, ?_⟩
  rw [decodeCmpi_op f25]
  unfold decodeCmpi
  rw [bit_of f31, finOf_of f22, condOf_of f19, finOf_of f15, ofNat_of f0]

theorem RoundTrip.mul (sm : Bool) (d : Fin 16) (a : Fin 16) (b : Fin 16) : RoundTrip.Statement (.mul sm d a b) := by
  suffices H : ∀ wd, wd = 0x10000000 + sm.toNat * 2147483648 + d.val * 2097152 + a.val * 131072 + b.val * 8192 →
      wd < 2 ^ 32 ∧ decodeFields wd = .ok (.mul sm d a b) from
    (H (encode (.mul sm d a b)) rfl).imp_right decodeWord_of
  intro wd e
  obtain ⟨hw, f31, f25, f21, f17, f13, f7, f0⟩ :=
    fields_1_6_4_4_4_6_7 wd sm.toNat 8 d.val a.val b.val 0 0
      sm.toNat_lt (by decide) d.isLt a.isLt b.isLt (by decide) (by decide) (by subst e; omega)
  refine ⟨hw, ?_⟩
  rw [decodeMul_op f25]
  unfold decodeMul
  rw [f7]
  refine (if_pos f0).trans ?_
  rw [bit_of f31, finOf_of f21, finOf_of f17, finOf_of f13]

theorem RoundTrip.mulh (sm : Bool) (d : Fin 16) (a : Fin 16) (b : Fin 16) : RoundTrip.Statement (.mulh sm d a b) := by
  suffices H : ∀ wd, wd = 0x10000080 + sm.toNat * 2147483648 + d.val * 2097152 + a.val * 131072 + b.val * 8192 →
      wd < 2 ^ 32 ∧ decodeFields wd = .ok (.mulh sm d a b) from
    (H (encode (.mulh sm d a b)) rfl).imp_right decodeWord_of
  intro wd e
  obtain ⟨hw, f31, f25, f21, f17, f13, f7, f0⟩ :=
    fields_1_6_4_4_4_6_7 wd sm.toNat 8 d.val a.val b.val 1 0
      sm.toNat_lt (by decide) d.isLt a.isLt b.isLt (by decide) (by decide) (by subst e; omega)
  refine ⟨hw, ?_⟩
  rw [decodeMul_op f25]
  unfold decodeMul
  rw [f7]
  refine (if_pos f0).trans ?_
  rw [bit_of f31, finOf_of f21, finOf_of f17, finOf_of f13]

theorem RoundTrip.mulhu (sm : Bool) (d : Fin 16) (a : Fin 16) (b : Fin 16) : RoundTrip.Statement (.mulhu sm d a b) := by
  suffices H : ∀ wd, wd = 0x10000100 + sm.toNat * 2147483648 + d.val * 2097152 + a.val * 131072 + b.val * 8192 →
      wd < 2 ^ 32 ∧ decodeFields wd = .ok (.mulhu sm d a b) from
    (H (encode (.mulhu sm d a b)) rfl).imp_right decodeWord_of
  intro wd e
  obtain ⟨hw, f31, f25, f21, f17, f13, f7, f0⟩ :=
    fields_1_6_4_4_4_6_7 wd sm.toNat 8 d.val a.val b.val 2 0
      sm.toNat_lt (by decide) d.isLt a.isLt b.isLt (by decide) (by decide) (by subst e; omega)
  refine ⟨hw, ?_⟩
  rw [decodeMul_op f25]
  unfold decodeMul
  rw [f7]
  refine (if_pos f0).trans ?_
  rw [bit_of f31, finOf_of f21, finOf_of f17, finOf_of f13]

theorem RoundTrip.mulw (sm : Bool) (d : Fin 16) (a : Fin 16) (b : Fin 16) : RoundTrip.Statement (.mulw sm d a b) := by
  suffices H : ∀ wd, wd = 0x10000180 + sm.toNat * 2147483648 + d.val * 2097152 + a.val * 131072 + b.val * 8192 →
      wd < 2 ^ 32 ∧ decodeFields wd = .ok (.mulw sm d a b) from
    (H (encode (.mulw sm d a b)) rfl).imp_right decodeWord_of
  intro wd e
  obtain ⟨hw, f31, f25, f21, f17, f13, f7, f0⟩ :=
    fields_1_6_4_4_4_6_7 wd sm.toNat 8 d.val a.val b.val 3 0
      sm.toNat_lt (by decide) d.isLt a.isLt b.isLt (by decide) (by decide) (by subst e; omega)
  refine ⟨hw, ?_⟩
  rw [decodeMul_op f25]
  unfold decodeMul
  rw [f7]
  refine (if_pos f0).trans ?_
  rw [bit_of f31, finOf_of f21, finOf_of f17, finOf_of f13]

theorem RoundTrip.div (sm : Bool) (d : Fin 16) (a : Fin 16) (b : Fin 16) : RoundTrip.Statement (.div sm d a b) := by
  suffices H : ∀ wd, wd = 0x10000200 + sm.toNat * 2147483648 + d.val * 2097152 + a.val * 131072 + b.val * 8192 →
      wd < 2 ^ 32 ∧ decodeFields wd = .ok (.div sm d a b) from
    (H (encode (.div sm d a b)) rfl).imp_right decodeWord_of
  intro wd e
  obtain ⟨hw, f31, f25, f21, f17, f13, f7, f0⟩ :=
    fields_1_6_4_4_4_6_7 wd sm.toNat 8 d.val a.val b.val 4 0
      sm.toNat_lt (by decide) d.isLt a.isLt b.isLt (by decide) (by decide) (by subst e; omega)
  refine ⟨hw, ?_⟩
  rw [decodeMul_op f25]
  unfold decodeMul
  rw [f7]
  refine (if_pos f0).trans ?_
  rw [bit_of f31, finOf_of f21, finOf_of f17, finOf_of f13]

theorem RoundTrip.divu (sm : Bool) (d : Fin 16) (a : Fin 16) (b : Fin 16) : RoundTrip.Statement (.divu sm d a b) := by
  suffices H : ∀ wd, wd = 0x10000280 + sm.toNat * 2147483648 + d.val * 2097152 + a.val * 131072 + b.val * 8192 →
      wd < 2 ^ 32 ∧ decodeFields wd = .ok (.divu sm d a b) from
    (H (encode (.divu sm d a b)) rfl).imp_right decodeWord_of
  intro wd e
  obtain ⟨hw, f31, f25, f21, f17, f13, f7, f0⟩ :=
    fields_1_6_4_4_4_6_7 wd sm.toNat 8 d.val a.val b.val 5 0
      sm.toNat_lt (by decide) d.isLt a.isLt b.isLt (by decide) (by decide) (by subst e; omega)
  refine ⟨hw, ?_⟩
  rw [decodeMul_op f25]
  unfold decodeMul
  rw [f7]
  refine (if_pos f0).trans ?_
  rw [bit_of f31, finOf_of f21, finOf_of f17, finOf_of f13]

theorem RoundTrip.rem (sm : Bool) (d : Fin 16) (a : Fin 16) (b : Fin 16) : RoundTrip.Statement (.rem sm d a b) := by
  suffices H : ∀ wd, wd = 0x10000300 + sm.toNat * 2147483648 + d.val * 2097152 + a.val * 131072 + b.val * 8192 →
      wd < 2 ^ 32 ∧ decodeFields wd = .ok (.rem sm d a b) from
    (H (encode (.rem sm d a b)) rfl).imp_right decodeWord_of
  intro wd e
  obtain ⟨hw, f31, f25, f21, f17, f13, f7, f0⟩ :=
    fields_1_6_4_4_4_6_7 wd sm.toNat 8 d.val a.val b.val 6 0
      sm.toNat_lt (by decide) d.isLt a.isLt b.isLt (by decide) (by decide) (by subst e; omega)
  refine ⟨hw, ?_⟩
  rw [decodeMul_op f25]
  unfold decodeMul
  rw [f7]
  refine (if_pos f0).trans ?_
  rw [bit_of f31, finOf_of f21, finOf_of f17, finOf_of f13]

theorem RoundTrip.remu (sm : Bool) (d : Fin 16) (a : Fin 16) (b : Fin 16) : RoundTrip.Statement (.remu sm d a b) := by
  suffices H : ∀ wd, wd = 0x10000380 + sm.toNat * 2147483648 + d.val * 2097152 + a.val * 131072 + b.val * 8192 →
      wd < 2 ^ 32 ∧ decodeFields wd = .ok (.remu sm d a b) from
    (H (encode (.remu sm d a b)) rfl).imp_right decodeWord_of
  intro wd e
  obtain ⟨hw, f31, f25, f21, f17, f13, f7, f0⟩ :=
    fields_1_6_4_4_4_6_7 wd sm.toNat 8 d.val a.val b.val 7 0
      sm.toNat_lt (by decide) d.isLt a.isLt b.isLt (by decide) (by decide) (by subst e; omega)
  refine ⟨hw, ?_⟩
  rw [decodeMul_op f25]
  unfold decodeMul
  rw [f7]
  refine (if_pos f0).trans ?_
  rw [bit_of f31, finOf_of f21, finOf_of f17, finOf_of f13]

theorem RoundTrip.clz (sm : Bool) (d : Fin 16) (a : Fin 16) : RoundTrip.Statement (.clz sm d a) := by
  suffices H : ∀ wd, wd = 0x12000000 + sm.toNat * 2147483648 + d.val * 2097152 + a.val * 131072 →
      wd < 2 ^ 32 ∧ decodeFields wd = .ok (.clz sm d a) from
    (H (encode (.clz sm d a)) rfl).imp_right decodeWord_of
  intro wd e
  obtain ⟨hw, f31, f25, f21, f17, f13, f7, f0⟩ :=
    fields_1_6_4_4_4_6_7 wd sm.toNat 9 d.val a.val 0 0 0
      sm.toNat_lt (by decide) d.isLt a.isLt (by decide) (by decide) (by decide) (by subst e; omega)
  refine ⟨hw, ?_⟩
  rw [decodeBit_op f25]
  unfold decodeBit
  rw [f7]
  refine (if_pos ⟨f0, f13⟩).trans ?_
  rw [bit_of f31, finOf_of f21, finOf_of f17]

theorem RoundTrip.ctz (sm : Bool) (d : Fin 16) (a : Fin 16) : RoundTrip.Statement (.ctz sm d a) := by
  suffices H : ∀ wd, wd = 0x12000080 + sm.toNat * 2147483648 + d.val * 2097152 + a.val * 131072 →
      wd < 2 ^ 32 ∧ decodeFields wd = .ok (.ctz sm d a) from
    (H (encode (.ctz sm d a)) rfl).imp_right decodeWord_of
  intro wd e
  obtain ⟨hw, f31, f25, f21, f17, f13, f7, f0⟩ :=
    fields_1_6_4_4_4_6_7 wd sm.toNat 9 d.val a.val 0 1 0
      sm.toNat_lt (by decide) d.isLt a.isLt (by decide) (by decide) (by decide) (by subst e; omega)
  refine ⟨hw, ?_⟩
  rw [decodeBit_op f25]
  unfold decodeBit
  rw [f7]
  refine (if_pos ⟨f0, f13⟩).trans ?_
  rw [bit_of f31, finOf_of f21, finOf_of f17]

theorem RoundTrip.popc (sm : Bool) (d : Fin 16) (a : Fin 16) : RoundTrip.Statement (.popc sm d a) := by
  suffices H : ∀ wd, wd = 0x12000100 + sm.toNat * 2147483648 + d.val * 2097152 + a.val * 131072 →
      wd < 2 ^ 32 ∧ decodeFields wd = .ok (.popc sm d a) from
    (H (encode (.popc sm d a)) rfl).imp_right decodeWord_of
  intro wd e
  obtain ⟨hw, f31, f25, f21, f17, f13, f7, f0⟩ :=
    fields_1_6_4_4_4_6_7 wd sm.toNat 9 d.val a.val 0 2 0
      sm.toNat_lt (by decide) d.isLt a.isLt (by decide) (by decide) (by decide) (by subst e; omega)
  refine ⟨hw, ?_⟩
  rw [decodeBit_op f25]
  unfold decodeBit
  rw [f7]
  refine (if_pos ⟨f0, f13⟩).trans ?_
  rw [bit_of f31, finOf_of f21, finOf_of f17]

theorem RoundTrip.bswap (sm : Bool) (d : Fin 16) (a : Fin 16) : RoundTrip.Statement (.bswap sm d a) := by
  suffices H : ∀ wd, wd = 0x12000180 + sm.toNat * 2147483648 + d.val * 2097152 + a.val * 131072 →
      wd < 2 ^ 32 ∧ decodeFields wd = .ok (.bswap sm d a) from
    (H (encode (.bswap sm d a)) rfl).imp_right decodeWord_of
  intro wd e
  obtain ⟨hw, f31, f25, f21, f17, f13, f7, f0⟩ :=
    fields_1_6_4_4_4_6_7 wd sm.toNat 9 d.val a.val 0 3 0
      sm.toNat_lt (by decide) d.isLt a.isLt (by decide) (by decide) (by decide) (by subst e; omega)
  refine ⟨hw, ?_⟩
  rw [decodeBit_op f25]
  unfold decodeBit
  rw [f7]
  refine (if_pos ⟨f0, f13⟩).trans ?_
  rw [bit_of f31, finOf_of f21, finOf_of f17]

theorem RoundTrip.bfx (sm : Bool) (d : Fin 16) (a : Fin 16) (b : Fin 16) : RoundTrip.Statement (.bfx sm d a b) := by
  suffices H : ∀ wd, wd = 0x12000200 + sm.toNat * 2147483648 + d.val * 2097152 + a.val * 131072 + b.val * 8192 →
      wd < 2 ^ 32 ∧ decodeFields wd = .ok (.bfx sm d a b) from
    (H (encode (.bfx sm d a b)) rfl).imp_right decodeWord_of
  intro wd e
  obtain ⟨hw, f31, f25, f21, f17, f13, f7, f0⟩ :=
    fields_1_6_4_4_4_6_7 wd sm.toNat 9 d.val a.val b.val 4 0
      sm.toNat_lt (by decide) d.isLt a.isLt b.isLt (by decide) (by decide) (by subst e; omega)
  refine ⟨hw, ?_⟩
  rw [decodeBit_op f25]
  unfold decodeBit
  rw [f7]
  refine (if_pos f0).trans ?_
  rw [bit_of f31, finOf_of f21, finOf_of f17, finOf_of f13]

theorem RoundTrip.bfxu (sm : Bool) (d : Fin 16) (a : Fin 16) (b : Fin 16) : RoundTrip.Statement (.bfxu sm d a b) := by
  suffices H : ∀ wd, wd = 0x12000280 + sm.toNat * 2147483648 + d.val * 2097152 + a.val * 131072 + b.val * 8192 →
      wd < 2 ^ 32 ∧ decodeFields wd = .ok (.bfxu sm d a b) from
    (H (encode (.bfxu sm d a b)) rfl).imp_right decodeWord_of
  intro wd e
  obtain ⟨hw, f31, f25, f21, f17, f13, f7, f0⟩ :=
    fields_1_6_4_4_4_6_7 wd sm.toNat 9 d.val a.val b.val 5 0
      sm.toNat_lt (by decide) d.isLt a.isLt b.isLt (by decide) (by decide) (by subst e; omega)
  refine ⟨hw, ?_⟩
  rw [decodeBit_op f25]
  unfold decodeBit
  rw [f7]
  refine (if_pos f0).trans ?_
  rw [bit_of f31, finOf_of f21, finOf_of f17, finOf_of f13]

theorem RoundTrip.bfi (sm : Bool) (d : Fin 16) (a : Fin 16) (b : Fin 16) : RoundTrip.Statement (.bfi sm d a b) := by
  suffices H : ∀ wd, wd = 0x12000300 + sm.toNat * 2147483648 + d.val * 2097152 + a.val * 131072 + b.val * 8192 →
      wd < 2 ^ 32 ∧ decodeFields wd = .ok (.bfi sm d a b) from
    (H (encode (.bfi sm d a b)) rfl).imp_right decodeWord_of
  intro wd e
  obtain ⟨hw, f31, f25, f21, f17, f13, f7, f0⟩ :=
    fields_1_6_4_4_4_6_7 wd sm.toNat 9 d.val a.val b.val 6 0
      sm.toNat_lt (by decide) d.isLt a.isLt b.isLt (by decide) (by decide) (by subst e; omega)
  refine ⟨hw, ?_⟩
  rw [decodeBit_op f25]
  unfold decodeBit
  rw [f7]
  refine (if_pos f0).trans ?_
  rw [bit_of f31, finOf_of f21, finOf_of f17, finOf_of f13]

theorem RoundTrip.cmp (sm : Bool) (d : Fin 8) (a : Fin 16) (b : Fin 16) (c : Cond) : RoundTrip.Statement (.cmp sm d a b c) := by
  suffices H : ∀ wd, wd = 0x14000000 + sm.toNat * 2147483648 + d.val * 2097152 + a.val * 131072 + b.val * 8192 + condCode c →
      wd < 2 ^ 32 ∧ decodeFields wd = .ok (.cmp sm d a b c) from
    (H (encode (.cmp sm d a b c)) rfl).imp_right decodeWord_of
  intro wd e
  obtain ⟨hw, f31, f25, f24, f21, f17, f13, f7, f3, f0⟩ :=
    fields_1_6_1_3_4_4_6_4_3 wd sm.toNat 10 0 d.val a.val b.val 0 0 (condCode c)
      sm.toNat_lt (by decide) (by decide) d.isLt a.isLt b.isLt (by decide) (by decide) (condCode_lt c) (by subst e; omega)
  refine ⟨hw, ?_⟩
  rw [decodeCmp_op f25]
  unfold decodeCmp
  rw [f7]
  refine (if_pos ⟨f3, f24⟩).trans ?_
  rw [bit_of f31, finOf_of f21, finOf_of f17, finOf_of f13, condOf_of f0]

theorem RoundTrip.test (sm : Bool) (d : Fin 8) (a : Fin 16) (b : Fin 16) (c : Bool) : RoundTrip.Statement (.test sm d a b c) := by
  suffices H : ∀ wd, wd = 0x14000080 + sm.toNat * 2147483648 + d.val * 2097152 + a.val * 131072 + b.val * 8192 + c.toNat →
      wd < 2 ^ 32 ∧ decodeFields wd = .ok (.test sm d a b c) from
    (H (encode (.test sm d a b c)) rfl).imp_right decodeWord_of
  intro wd e
  obtain ⟨hw, f31, f25, f24, f21, f17, f13, f7, f1, f0⟩ :=
    fields_1_6_1_3_4_4_6_6_1 wd sm.toNat 10 0 d.val a.val b.val 1 0 c.toNat
      sm.toNat_lt (by decide) (by decide) d.isLt a.isLt b.isLt (by decide) (by decide) c.toNat_lt (by subst e; omega)
  refine ⟨hw, ?_⟩
  rw [decodeCmp_op f25]
  unfold decodeCmp
  rw [f7]
  refine (if_pos ⟨f1, f24⟩).trans ?_
  rw [bit_of f31, finOf_of f21, finOf_of f17, finOf_of f13, bit_of f0]

theorem RoundTrip.sel (sm : Bool) (d : Fin 16) (a : Fin 16) (b : Fin 16) (k : Fin 8) : RoundTrip.Statement (.sel sm d a b k) := by
  suffices H : ∀ wd, wd = 0x16000000 + sm.toNat * 2147483648 + d.val * 2097152 + a.val * 131072 + b.val * 8192 + k.val →
      wd < 2 ^ 32 ∧ decodeFields wd = .ok (.sel sm d a b k) from
    (H (encode (.sel sm d a b k)) rfl).imp_right decodeWord_of
  intro wd e
  obtain ⟨hw, f31, f25, f21, f17, f13, f7, f3, f0⟩ :=
    fields_1_6_4_4_4_6_4_3 wd sm.toNat 11 d.val a.val b.val 0 0 k.val
      sm.toNat_lt (by decide) d.isLt a.isLt b.isLt (by decide) (by decide) k.isLt (by subst e; omega)
  refine ⟨hw, ?_⟩
  rw [decodePred_op f25]
  unfold decodePred
  rw [f7]
  refine (if_pos f3).trans ?_
  rw [bit_of f31, finOf_of f21, finOf_of f17, finOf_of f13, finOf_of f0]

theorem RoundTrip.pand (sm : Bool) (d : Fin 8) (a : Fin 8) (b : Fin 8) : RoundTrip.Statement (.pand sm d a b) := by
  suffices H : ∀ wd, wd = 0x16000080 + sm.toNat * 2147483648 + d.val * 2097152 + a.val * 131072 + b.val * 8192 →
      wd < 2 ^ 32 ∧ decodeFields wd = .ok (.pand sm d a b) from
    (H (encode (.pand sm d a b)) rfl).imp_right decodeWord_of
  intro wd e
  obtain ⟨hw, f31, f25, f24, f21, f20, f17, f16, f13, f7, f0⟩ :=
    fields_1_6_1_3_1_3_1_3_6_7 wd sm.toNat 11 0 d.val 0 a.val 0 b.val 1 0
      sm.toNat_lt (by decide) (by decide) d.isLt (by decide) a.isLt (by decide) b.isLt (by decide) (by decide) (by subst e; omega)
  refine ⟨hw, ?_⟩
  rw [decodePred_op f25]
  unfold decodePred
  rw [f7]
  refine (if_pos ⟨f0, f16, f20, f24⟩).trans ?_
  rw [bit_of f31, finOf_of f21, finOf_of f17, finOf_of f13]

theorem RoundTrip.por (sm : Bool) (d : Fin 8) (a : Fin 8) (b : Fin 8) : RoundTrip.Statement (.por sm d a b) := by
  suffices H : ∀ wd, wd = 0x16000100 + sm.toNat * 2147483648 + d.val * 2097152 + a.val * 131072 + b.val * 8192 →
      wd < 2 ^ 32 ∧ decodeFields wd = .ok (.por sm d a b) from
    (H (encode (.por sm d a b)) rfl).imp_right decodeWord_of
  intro wd e
  obtain ⟨hw, f31, f25, f24, f21, f20, f17, f16, f13, f7, f0⟩ :=
    fields_1_6_1_3_1_3_1_3_6_7 wd sm.toNat 11 0 d.val 0 a.val 0 b.val 2 0
      sm.toNat_lt (by decide) (by decide) d.isLt (by decide) a.isLt (by decide) b.isLt (by decide) (by decide) (by subst e; omega)
  refine ⟨hw, ?_⟩
  rw [decodePred_op f25]
  unfold decodePred
  rw [f7]
  refine (if_pos ⟨f0, f16, f20, f24⟩).trans ?_
  rw [bit_of f31, finOf_of f21, finOf_of f17, finOf_of f13]

theorem RoundTrip.pxor (sm : Bool) (d : Fin 8) (a : Fin 8) (b : Fin 8) : RoundTrip.Statement (.pxor sm d a b) := by
  suffices H : ∀ wd, wd = 0x16000180 + sm.toNat * 2147483648 + d.val * 2097152 + a.val * 131072 + b.val * 8192 →
      wd < 2 ^ 32 ∧ decodeFields wd = .ok (.pxor sm d a b) from
    (H (encode (.pxor sm d a b)) rfl).imp_right decodeWord_of
  intro wd e
  obtain ⟨hw, f31, f25, f24, f21, f20, f17, f16, f13, f7, f0⟩ :=
    fields_1_6_1_3_1_3_1_3_6_7 wd sm.toNat 11 0 d.val 0 a.val 0 b.val 3 0
      sm.toNat_lt (by decide) (by decide) d.isLt (by decide) a.isLt (by decide) b.isLt (by decide) (by decide) (by subst e; omega)
  refine ⟨hw, ?_⟩
  rw [decodePred_op f25]
  unfold decodePred
  rw [f7]
  refine (if_pos ⟨f0, f16, f20, f24⟩).trans ?_
  rw [bit_of f31, finOf_of f21, finOf_of f17, finOf_of f13]

theorem RoundTrip.pnot (sm : Bool) (d : Fin 8) (a : Fin 8) : RoundTrip.Statement (.pnot sm d a) := by
  suffices H : ∀ wd, wd = 0x16000200 + sm.toNat * 2147483648 + d.val * 2097152 + a.val * 131072 →
      wd < 2 ^ 32 ∧ decodeFields wd = .ok (.pnot sm d a) from
    (H (encode (.pnot sm d a)) rfl).imp_right decodeWord_of
  intro wd e
  obtain ⟨hw, f31, f25, f24, f21, f20, f17, f13, f7, f0⟩ :=
    fields_1_6_1_3_1_3_4_6_7 wd sm.toNat 11 0 d.val 0 a.val 0 4 0
      sm.toNat_lt (by decide) (by decide) d.isLt (by decide) a.isLt (by decide) (by decide) (by decide) (by subst e; omega)
  refine ⟨hw, ?_⟩
  rw [decodePred_op f25]
  unfold decodePred
  rw [f7]
  refine (if_pos ⟨f0, f13, f20, f24⟩).trans ?_
  rw [bit_of f31, finOf_of f21, finOf_of f17]

theorem RoundTrip.pget (sm : Bool) (d : Fin 16) : RoundTrip.Statement (.pget sm d) := by
  suffices H : ∀ wd, wd = 0x16000280 + sm.toNat * 2147483648 + d.val * 2097152 →
      wd < 2 ^ 32 ∧ decodeFields wd = .ok (.pget sm d) from
    (H (encode (.pget sm d)) rfl).imp_right decodeWord_of
  intro wd e
  obtain ⟨hw, f31, f25, f21, f13, f7, f0⟩ :=
    fields_1_6_4_8_6_7 wd sm.toNat 11 d.val 0 5 0
      sm.toNat_lt (by decide) d.isLt (by decide) (by decide) (by decide) (by subst e; omega)
  refine ⟨hw, ?_⟩
  rw [decodePred_op f25]
  unfold decodePred
  rw [f7]
  refine (if_pos ⟨f0, f13⟩).trans ?_
  rw [bit_of f31, finOf_of f21]

theorem RoundTrip.pset (sm : Bool) (a : Fin 16) : RoundTrip.Statement (.pset sm a) := by
  suffices H : ∀ wd, wd = 0x16000300 + sm.toNat * 2147483648 + a.val * 131072 →
      wd < 2 ^ 32 ∧ decodeFields wd = .ok (.pset sm a) from
    (H (encode (.pset sm a)) rfl).imp_right decodeWord_of
  intro wd e
  obtain ⟨hw, f31, f25, f21, f17, f13, f7, f0⟩ :=
    fields_1_6_4_4_4_6_7 wd sm.toNat 11 0 a.val 0 6 0
      sm.toNat_lt (by decide) (by decide) a.isLt (by decide) (by decide) (by decide) (by subst e; omega)
  refine ⟨hw, ?_⟩
  rw [decodePred_op f25]
  unfold decodePred
  rw [f7]
  refine (if_pos ⟨f0, f13, f21⟩).trans ?_
  rw [bit_of f31, finOf_of f17]

theorem RoundTrip.ld (sm : Bool) (d : Fin 16) (a : Fin 16) (z : Size) (x : Bool) (o : MOrd) (f : BitVec 12) : RoundTrip.Statement (.ld sm d a z x o f) := by
  suffices H : ∀ wd, wd = 0x18000000 + sm.toNat * 2147483648 + d.val * 2097152 + a.val * 131072 + sizeCode z * 32768 + x.toNat * 16384 + mordCode o * 4096 + f.toNat →
      wd < 2 ^ 32 ∧ decodeFields wd = .ok (.ld sm d a z x o f) from
    (H (encode (.ld sm d a z x o f)) rfl).imp_right decodeWord_of
  intro wd e
  obtain ⟨hw, f31, f25, f21, f17, f15, f14, f12, f0⟩ :=
    fields_1_6_4_4_2_1_2_12 wd sm.toNat 12 d.val a.val (sizeCode z) x.toNat (mordCode o) f.toNat
      sm.toNat_lt (by decide) d.isLt a.isLt (sizeCode_lt z) x.toNat_lt (mordCode_lt o) f.isLt (by subst e; omega)
  refine ⟨hw, ?_⟩
  rw [decodeLd_op f25]
  unfold decodeLd
  rw [bit_of f31, finOf_of f21, finOf_of f17, sizeOf_of f15, bit_of f14, mordOf_of f12, ofNat_of f0]

theorem RoundTrip.st (sm : Bool) (d : Fin 16) (a : Fin 16) (z : Size) (o : MOrd) (f : BitVec 12) : RoundTrip.Statement (.st sm d a z o f) := by
  suffices H : ∀ wd, wd = 0x1a000000 + sm.toNat * 2147483648 + d.val * 2097152 + a.val * 131072 + sizeCode z * 32768 + mordCode o * 4096 + f.toNat →
      wd < 2 ^ 32 ∧ decodeFields wd = .ok (.st sm d a z o f) from
    (H (encode (.st sm d a z o f)) rfl).imp_right decodeWord_of
  intro wd e
  obtain ⟨hw, f31, f25, f21, f17, f15, f14, f12, f0⟩ :=
    fields_1_6_4_4_2_1_2_12 wd sm.toNat 13 d.val a.val (sizeCode z) 0 (mordCode o) f.toNat
      sm.toNat_lt (by decide) d.isLt a.isLt (sizeCode_lt z) (by decide) (mordCode_lt o) f.isLt (by subst e; omega)
  refine ⟨hw, ?_⟩
  rw [decodeSt_op f25]
  unfold decodeSt
  refine (if_pos f14).trans ?_
  rw [bit_of f31, finOf_of f21, finOf_of f17, sizeOf_of f15, mordOf_of f12, ofNat_of f0]

theorem RoundTrip.aadd (sm : Bool) (d : Fin 16) (a : Fin 16) (b : Fin 16) (c : Scope) (o : Order) (z : Bool) : RoundTrip.Statement (.aadd sm d a b c o z) := by
  suffices H : ∀ wd, wd = 0x1c000002 + sm.toNat * 2147483648 + d.val * 2097152 + a.val * 131072 + b.val * 8192 + scopeCode c * 16 + orderCode o * 4 + z.toNat →
      wd < 2 ^ 32 ∧ decodeFields wd = .ok (.aadd sm d a b c o z) from
    (H (encode (.aadd sm d a b c o z)) rfl).imp_right decodeWord_of
  intro wd e
  obtain ⟨hw, f31, f25, f21, f17, f13, f7, f6, f4, f2, f1, f0⟩ :=
    fields_1_6_4_4_4_6_1_2_2_1_1 wd sm.toNat 14 d.val a.val b.val 0 0 (scopeCode c) (orderCode o) 1 z.toNat
      sm.toNat_lt (by decide) d.isLt a.isLt b.isLt (by decide) (by decide) (scopeCode_lt c) (orderCode_lt o) (by decide) z.toNat_lt (by subst e; omega)
  refine ⟨hw, ?_⟩
  rw [decodeAtom_op f25]
  unfold decodeAtom
  rw [f7]
  refine (if_pos ⟨f1, f6⟩).trans ?_
  rw [bit_of f31, finOf_of f21, finOf_of f17, finOf_of f13, scopeOf_of f4, orderOf_of f2, bit_of f0]

theorem RoundTrip.aand (sm : Bool) (d : Fin 16) (a : Fin 16) (b : Fin 16) (c : Scope) (o : Order) (z : Bool) : RoundTrip.Statement (.aand sm d a b c o z) := by
  suffices H : ∀ wd, wd = 0x1c000082 + sm.toNat * 2147483648 + d.val * 2097152 + a.val * 131072 + b.val * 8192 + scopeCode c * 16 + orderCode o * 4 + z.toNat →
      wd < 2 ^ 32 ∧ decodeFields wd = .ok (.aand sm d a b c o z) from
    (H (encode (.aand sm d a b c o z)) rfl).imp_right decodeWord_of
  intro wd e
  obtain ⟨hw, f31, f25, f21, f17, f13, f7, f6, f4, f2, f1, f0⟩ :=
    fields_1_6_4_4_4_6_1_2_2_1_1 wd sm.toNat 14 d.val a.val b.val 1 0 (scopeCode c) (orderCode o) 1 z.toNat
      sm.toNat_lt (by decide) d.isLt a.isLt b.isLt (by decide) (by decide) (scopeCode_lt c) (orderCode_lt o) (by decide) z.toNat_lt (by subst e; omega)
  refine ⟨hw, ?_⟩
  rw [decodeAtom_op f25]
  unfold decodeAtom
  rw [f7]
  refine (if_pos ⟨f1, f6⟩).trans ?_
  rw [bit_of f31, finOf_of f21, finOf_of f17, finOf_of f13, scopeOf_of f4, orderOf_of f2, bit_of f0]

theorem RoundTrip.aor (sm : Bool) (d : Fin 16) (a : Fin 16) (b : Fin 16) (c : Scope) (o : Order) (z : Bool) : RoundTrip.Statement (.aor sm d a b c o z) := by
  suffices H : ∀ wd, wd = 0x1c000102 + sm.toNat * 2147483648 + d.val * 2097152 + a.val * 131072 + b.val * 8192 + scopeCode c * 16 + orderCode o * 4 + z.toNat →
      wd < 2 ^ 32 ∧ decodeFields wd = .ok (.aor sm d a b c o z) from
    (H (encode (.aor sm d a b c o z)) rfl).imp_right decodeWord_of
  intro wd e
  obtain ⟨hw, f31, f25, f21, f17, f13, f7, f6, f4, f2, f1, f0⟩ :=
    fields_1_6_4_4_4_6_1_2_2_1_1 wd sm.toNat 14 d.val a.val b.val 2 0 (scopeCode c) (orderCode o) 1 z.toNat
      sm.toNat_lt (by decide) d.isLt a.isLt b.isLt (by decide) (by decide) (scopeCode_lt c) (orderCode_lt o) (by decide) z.toNat_lt (by subst e; omega)
  refine ⟨hw, ?_⟩
  rw [decodeAtom_op f25]
  unfold decodeAtom
  rw [f7]
  refine (if_pos ⟨f1, f6⟩).trans ?_
  rw [bit_of f31, finOf_of f21, finOf_of f17, finOf_of f13, scopeOf_of f4, orderOf_of f2, bit_of f0]

theorem RoundTrip.axor (sm : Bool) (d : Fin 16) (a : Fin 16) (b : Fin 16) (c : Scope) (o : Order) (z : Bool) : RoundTrip.Statement (.axor sm d a b c o z) := by
  suffices H : ∀ wd, wd = 0x1c000182 + sm.toNat * 2147483648 + d.val * 2097152 + a.val * 131072 + b.val * 8192 + scopeCode c * 16 + orderCode o * 4 + z.toNat →
      wd < 2 ^ 32 ∧ decodeFields wd = .ok (.axor sm d a b c o z) from
    (H (encode (.axor sm d a b c o z)) rfl).imp_right decodeWord_of
  intro wd e
  obtain ⟨hw, f31, f25, f21, f17, f13, f7, f6, f4, f2, f1, f0⟩ :=
    fields_1_6_4_4_4_6_1_2_2_1_1 wd sm.toNat 14 d.val a.val b.val 3 0 (scopeCode c) (orderCode o) 1 z.toNat
      sm.toNat_lt (by decide) d.isLt a.isLt b.isLt (by decide) (by decide) (scopeCode_lt c) (orderCode_lt o) (by decide) z.toNat_lt (by subst e; omega)
  refine ⟨hw, ?_⟩
  rw [decodeAtom_op f25]
  unfold decodeAtom
  rw [f7]
  refine (if_pos ⟨f1, f6⟩).trans ?_
  rw [bit_of f31, finOf_of f21, finOf_of f17, finOf_of f13, scopeOf_of f4, orderOf_of f2, bit_of f0]

theorem RoundTrip.amin (sm : Bool) (d : Fin 16) (a : Fin 16) (b : Fin 16) (c : Scope) (o : Order) (z : Bool) : RoundTrip.Statement (.amin sm d a b c o z) := by
  suffices H : ∀ wd, wd = 0x1c000202 + sm.toNat * 2147483648 + d.val * 2097152 + a.val * 131072 + b.val * 8192 + scopeCode c * 16 + orderCode o * 4 + z.toNat →
      wd < 2 ^ 32 ∧ decodeFields wd = .ok (.amin sm d a b c o z) from
    (H (encode (.amin sm d a b c o z)) rfl).imp_right decodeWord_of
  intro wd e
  obtain ⟨hw, f31, f25, f21, f17, f13, f7, f6, f4, f2, f1, f0⟩ :=
    fields_1_6_4_4_4_6_1_2_2_1_1 wd sm.toNat 14 d.val a.val b.val 4 0 (scopeCode c) (orderCode o) 1 z.toNat
      sm.toNat_lt (by decide) d.isLt a.isLt b.isLt (by decide) (by decide) (scopeCode_lt c) (orderCode_lt o) (by decide) z.toNat_lt (by subst e; omega)
  refine ⟨hw, ?_⟩
  rw [decodeAtom_op f25]
  unfold decodeAtom
  rw [f7]
  refine (if_pos ⟨f1, f6⟩).trans ?_
  rw [bit_of f31, finOf_of f21, finOf_of f17, finOf_of f13, scopeOf_of f4, orderOf_of f2, bit_of f0]

theorem RoundTrip.amax (sm : Bool) (d : Fin 16) (a : Fin 16) (b : Fin 16) (c : Scope) (o : Order) (z : Bool) : RoundTrip.Statement (.amax sm d a b c o z) := by
  suffices H : ∀ wd, wd = 0x1c000282 + sm.toNat * 2147483648 + d.val * 2097152 + a.val * 131072 + b.val * 8192 + scopeCode c * 16 + orderCode o * 4 + z.toNat →
      wd < 2 ^ 32 ∧ decodeFields wd = .ok (.amax sm d a b c o z) from
    (H (encode (.amax sm d a b c o z)) rfl).imp_right decodeWord_of
  intro wd e
  obtain ⟨hw, f31, f25, f21, f17, f13, f7, f6, f4, f2, f1, f0⟩ :=
    fields_1_6_4_4_4_6_1_2_2_1_1 wd sm.toNat 14 d.val a.val b.val 5 0 (scopeCode c) (orderCode o) 1 z.toNat
      sm.toNat_lt (by decide) d.isLt a.isLt b.isLt (by decide) (by decide) (scopeCode_lt c) (orderCode_lt o) (by decide) z.toNat_lt (by subst e; omega)
  refine ⟨hw, ?_⟩
  rw [decodeAtom_op f25]
  unfold decodeAtom
  rw [f7]
  refine (if_pos ⟨f1, f6⟩).trans ?_
  rw [bit_of f31, finOf_of f21, finOf_of f17, finOf_of f13, scopeOf_of f4, orderOf_of f2, bit_of f0]

theorem RoundTrip.aminu (sm : Bool) (d : Fin 16) (a : Fin 16) (b : Fin 16) (c : Scope) (o : Order) (z : Bool) : RoundTrip.Statement (.aminu sm d a b c o z) := by
  suffices H : ∀ wd, wd = 0x1c000302 + sm.toNat * 2147483648 + d.val * 2097152 + a.val * 131072 + b.val * 8192 + scopeCode c * 16 + orderCode o * 4 + z.toNat →
      wd < 2 ^ 32 ∧ decodeFields wd = .ok (.aminu sm d a b c o z) from
    (H (encode (.aminu sm d a b c o z)) rfl).imp_right decodeWord_of
  intro wd e
  obtain ⟨hw, f31, f25, f21, f17, f13, f7, f6, f4, f2, f1, f0⟩ :=
    fields_1_6_4_4_4_6_1_2_2_1_1 wd sm.toNat 14 d.val a.val b.val 6 0 (scopeCode c) (orderCode o) 1 z.toNat
      sm.toNat_lt (by decide) d.isLt a.isLt b.isLt (by decide) (by decide) (scopeCode_lt c) (orderCode_lt o) (by decide) z.toNat_lt (by subst e; omega)
  refine ⟨hw, ?_⟩
  rw [decodeAtom_op f25]
  unfold decodeAtom
  rw [f7]
  refine (if_pos ⟨f1, f6⟩).trans ?_
  rw [bit_of f31, finOf_of f21, finOf_of f17, finOf_of f13, scopeOf_of f4, orderOf_of f2, bit_of f0]

theorem RoundTrip.amaxu (sm : Bool) (d : Fin 16) (a : Fin 16) (b : Fin 16) (c : Scope) (o : Order) (z : Bool) : RoundTrip.Statement (.amaxu sm d a b c o z) := by
  suffices H : ∀ wd, wd = 0x1c000382 + sm.toNat * 2147483648 + d.val * 2097152 + a.val * 131072 + b.val * 8192 + scopeCode c * 16 + orderCode o * 4 + z.toNat →
      wd < 2 ^ 32 ∧ decodeFields wd = .ok (.amaxu sm d a b c o z) from
    (H (encode (.amaxu sm d a b c o z)) rfl).imp_right decodeWord_of
  intro wd e
  obtain ⟨hw, f31, f25, f21, f17, f13, f7, f6, f4, f2, f1, f0⟩ :=
    fields_1_6_4_4_4_6_1_2_2_1_1 wd sm.toNat 14 d.val a.val b.val 7 0 (scopeCode c) (orderCode o) 1 z.toNat
      sm.toNat_lt (by decide) d.isLt a.isLt b.isLt (by decide) (by decide) (scopeCode_lt c) (orderCode_lt o) (by decide) z.toNat_lt (by subst e; omega)
  refine ⟨hw, ?_⟩
  rw [decodeAtom_op f25]
  unfold decodeAtom
  rw [f7]
  refine (if_pos ⟨f1, f6⟩).trans ?_
  rw [bit_of f31, finOf_of f21, finOf_of f17, finOf_of f13, scopeOf_of f4, orderOf_of f2, bit_of f0]

theorem RoundTrip.aswp (sm : Bool) (d : Fin 16) (a : Fin 16) (b : Fin 16) (c : Scope) (o : Order) (z : Bool) : RoundTrip.Statement (.aswp sm d a b c o z) := by
  suffices H : ∀ wd, wd = 0x1c000402 + sm.toNat * 2147483648 + d.val * 2097152 + a.val * 131072 + b.val * 8192 + scopeCode c * 16 + orderCode o * 4 + z.toNat →
      wd < 2 ^ 32 ∧ decodeFields wd = .ok (.aswp sm d a b c o z) from
    (H (encode (.aswp sm d a b c o z)) rfl).imp_right decodeWord_of
  intro wd e
  obtain ⟨hw, f31, f25, f21, f17, f13, f7, f6, f4, f2, f1, f0⟩ :=
    fields_1_6_4_4_4_6_1_2_2_1_1 wd sm.toNat 14 d.val a.val b.val 8 0 (scopeCode c) (orderCode o) 1 z.toNat
      sm.toNat_lt (by decide) d.isLt a.isLt b.isLt (by decide) (by decide) (scopeCode_lt c) (orderCode_lt o) (by decide) z.toNat_lt (by subst e; omega)
  refine ⟨hw, ?_⟩
  rw [decodeAtom_op f25]
  unfold decodeAtom
  rw [f7]
  refine (if_pos ⟨f1, f6⟩).trans ?_
  rw [bit_of f31, finOf_of f21, finOf_of f17, finOf_of f13, scopeOf_of f4, orderOf_of f2, bit_of f0]

theorem RoundTrip.acas (sm : Bool) (d : Fin 16) (a : Fin 16) (b : Fin 16) (c : Scope) (o : Order) (z : Bool) : RoundTrip.Statement (.acas sm d a b c o z) := by
  suffices H : ∀ wd, wd = 0x1c000482 + sm.toNat * 2147483648 + d.val * 2097152 + a.val * 131072 + b.val * 8192 + scopeCode c * 16 + orderCode o * 4 + z.toNat →
      wd < 2 ^ 32 ∧ decodeFields wd = .ok (.acas sm d a b c o z) from
    (H (encode (.acas sm d a b c o z)) rfl).imp_right decodeWord_of
  intro wd e
  obtain ⟨hw, f31, f25, f21, f17, f13, f7, f6, f4, f2, f1, f0⟩ :=
    fields_1_6_4_4_4_6_1_2_2_1_1 wd sm.toNat 14 d.val a.val b.val 9 0 (scopeCode c) (orderCode o) 1 z.toNat
      sm.toNat_lt (by decide) d.isLt a.isLt b.isLt (by decide) (by decide) (scopeCode_lt c) (orderCode_lt o) (by decide) z.toNat_lt (by subst e; omega)
  refine ⟨hw, ?_⟩
  rw [decodeAtom_op f25]
  unfold decodeAtom
  rw [f7]
  refine (if_pos ⟨f1, f6⟩).trans ?_
  rw [bit_of f31, finOf_of f21, finOf_of f17, finOf_of f13, scopeOf_of f4, orderOf_of f2, bit_of f0]

theorem RoundTrip.aincb (sm : Bool) (d : Fin 16) (a : Fin 16) (b : Fin 16) (c : Scope) (o : Order) (z : Bool) : RoundTrip.Statement (.aincb sm d a b c o z) := by
  suffices H : ∀ wd, wd = 0x1c000502 + sm.toNat * 2147483648 + d.val * 2097152 + a.val * 131072 + b.val * 8192 + scopeCode c * 16 + orderCode o * 4 + z.toNat →
      wd < 2 ^ 32 ∧ decodeFields wd = .ok (.aincb sm d a b c o z) from
    (H (encode (.aincb sm d a b c o z)) rfl).imp_right decodeWord_of
  intro wd e
  obtain ⟨hw, f31, f25, f21, f17, f13, f7, f6, f4, f2, f1, f0⟩ :=
    fields_1_6_4_4_4_6_1_2_2_1_1 wd sm.toNat 14 d.val a.val b.val 10 0 (scopeCode c) (orderCode o) 1 z.toNat
      sm.toNat_lt (by decide) d.isLt a.isLt b.isLt (by decide) (by decide) (scopeCode_lt c) (orderCode_lt o) (by decide) z.toNat_lt (by subst e; omega)
  refine ⟨hw, ?_⟩
  rw [decodeAtom_op f25]
  unfold decodeAtom
  rw [f7]
  refine (if_pos ⟨f1, f6⟩).trans ?_
  rw [bit_of f31, finOf_of f21, finOf_of f17, finOf_of f13, scopeOf_of f4, orderOf_of f2, bit_of f0]

theorem RoundTrip.afadd (sm : Bool) (d : Fin 16) (a : Fin 16) (b : Fin 16) (c : Scope) (o : Order) : RoundTrip.Statement (.afadd sm d a b c o) := by
  suffices H : ∀ wd, wd = 0x1c000582 + sm.toNat * 2147483648 + d.val * 2097152 + a.val * 131072 + b.val * 8192 + scopeCode c * 16 + orderCode o * 4 →
      wd < 2 ^ 32 ∧ decodeFields wd = .ok (.afadd sm d a b c o) from
    (H (encode (.afadd sm d a b c o)) rfl).imp_right decodeWord_of
  intro wd e
  obtain ⟨hw, f31, f25, f21, f17, f13, f7, f6, f4, f2, f0⟩ :=
    fields_1_6_4_4_4_6_1_2_2_2 wd sm.toNat 14 d.val a.val b.val 11 0 (scopeCode c) (orderCode o) 2
      sm.toNat_lt (by decide) d.isLt a.isLt b.isLt (by decide) (by decide) (scopeCode_lt c) (orderCode_lt o) (by decide) (by subst e; omega)
  refine ⟨hw, ?_⟩
  rw [decodeAtom_op f25]
  unfold decodeAtom
  rw [f7]
  refine (if_pos ⟨f0, f6⟩).trans ?_
  rw [bit_of f31, finOf_of f21, finOf_of f17, finOf_of f13, scopeOf_of f4, orderOf_of f2]

theorem RoundTrip.afmax (sm : Bool) (d : Fin 16) (a : Fin 16) (b : Fin 16) (c : Scope) (o : Order) : RoundTrip.Statement (.afmax sm d a b c o) := by
  suffices H : ∀ wd, wd = 0x1c000602 + sm.toNat * 2147483648 + d.val * 2097152 + a.val * 131072 + b.val * 8192 + scopeCode c * 16 + orderCode o * 4 →
      wd < 2 ^ 32 ∧ decodeFields wd = .ok (.afmax sm d a b c o) from
    (H (encode (.afmax sm d a b c o)) rfl).imp_right decodeWord_of
  intro wd e
  obtain ⟨hw, f31, f25, f21, f17, f13, f7, f6, f4, f2, f0⟩ :=
    fields_1_6_4_4_4_6_1_2_2_2 wd sm.toNat 14 d.val a.val b.val 12 0 (scopeCode c) (orderCode o) 2
      sm.toNat_lt (by decide) d.isLt a.isLt b.isLt (by decide) (by decide) (scopeCode_lt c) (orderCode_lt o) (by decide) (by subst e; omega)
  refine ⟨hw, ?_⟩
  rw [decodeAtom_op f25]
  unfold decodeAtom
  rw [f7]
  refine (if_pos ⟨f0, f6⟩).trans ?_
  rw [bit_of f31, finOf_of f21, finOf_of f17, finOf_of f13, scopeOf_of f4, orderOf_of f2]

theorem RoundTrip.ldfe (sm : Bool) (d : Fin 16) (a : Fin 16) : RoundTrip.Statement (.ldfe sm d a) := by
  suffices H : ∀ wd, wd = 0x1e000000 + sm.toNat * 2147483648 + d.val * 2097152 + a.val * 131072 →
      wd < 2 ^ 32 ∧ decodeFields wd = .ok (.ldfe sm d a) from
    (H (encode (.ldfe sm d a)) rfl).imp_right decodeWord_of
  intro wd e
  obtain ⟨hw, f31, f25, f21, f17, f13, f7, f0⟩ :=
    fields_1_6_4_4_4_6_7 wd sm.toNat 15 d.val a.val 0 0 0
      sm.toNat_lt (by decide) d.isLt a.isLt (by decide) (by decide) (by decide) (by subst e; omega)
  refine ⟨hw, ?_⟩
  rw [decodeFe_op f25]
  unfold decodeFe
  rw [f7]
  refine (if_pos ⟨f0, f13⟩).trans ?_
  rw [bit_of f31, finOf_of f21, finOf_of f17]

theorem RoundTrip.ldff (sm : Bool) (d : Fin 16) (a : Fin 16) : RoundTrip.Statement (.ldff sm d a) := by
  suffices H : ∀ wd, wd = 0x1e000080 + sm.toNat * 2147483648 + d.val * 2097152 + a.val * 131072 →
      wd < 2 ^ 32 ∧ decodeFields wd = .ok (.ldff sm d a) from
    (H (encode (.ldff sm d a)) rfl).imp_right decodeWord_of
  intro wd e
  obtain ⟨hw, f31, f25, f21, f17, f13, f7, f0⟩ :=
    fields_1_6_4_4_4_6_7 wd sm.toNat 15 d.val a.val 0 1 0
      sm.toNat_lt (by decide) d.isLt a.isLt (by decide) (by decide) (by decide) (by subst e; omega)
  refine ⟨hw, ?_⟩
  rw [decodeFe_op f25]
  unfold decodeFe
  rw [f7]
  refine (if_pos ⟨f0, f13⟩).trans ?_
  rw [bit_of f31, finOf_of f21, finOf_of f17]

theorem RoundTrip.stfe (sm : Bool) (d : Fin 16) (a : Fin 16) : RoundTrip.Statement (.stfe sm d a) := by
  suffices H : ∀ wd, wd = 0x1e000100 + sm.toNat * 2147483648 + d.val * 2097152 + a.val * 131072 →
      wd < 2 ^ 32 ∧ decodeFields wd = .ok (.stfe sm d a) from
    (H (encode (.stfe sm d a)) rfl).imp_right decodeWord_of
  intro wd e
  obtain ⟨hw, f31, f25, f21, f17, f13, f7, f0⟩ :=
    fields_1_6_4_4_4_6_7 wd sm.toNat 15 d.val a.val 0 2 0
      sm.toNat_lt (by decide) d.isLt a.isLt (by decide) (by decide) (by decide) (by subst e; omega)
  refine ⟨hw, ?_⟩
  rw [decodeFe_op f25]
  unfold decodeFe
  rw [f7]
  refine (if_pos ⟨f0, f13⟩).trans ?_
  rw [bit_of f31, finOf_of f21, finOf_of f17]

theorem RoundTrip.stef (sm : Bool) (d : Fin 16) (a : Fin 16) : RoundTrip.Statement (.stef sm d a) := by
  suffices H : ∀ wd, wd = 0x1e000180 + sm.toNat * 2147483648 + d.val * 2097152 + a.val * 131072 →
      wd < 2 ^ 32 ∧ decodeFields wd = .ok (.stef sm d a) from
    (H (encode (.stef sm d a)) rfl).imp_right decodeWord_of
  intro wd e
  obtain ⟨hw, f31, f25, f21, f17, f13, f7, f0⟩ :=
    fields_1_6_4_4_4_6_7 wd sm.toNat 15 d.val a.val 0 3 0
      sm.toNat_lt (by decide) d.isLt a.isLt (by decide) (by decide) (by decide) (by subst e; omega)
  refine ⟨hw, ?_⟩
  rw [decodeFe_op f25]
  unfold decodeFe
  rw [f7]
  refine (if_pos ⟨f0, f13⟩).trans ?_
  rw [bit_of f31, finOf_of f21, finOf_of f17]

theorem RoundTrip.fen (sm : Bool) (a : Fin 16) (b : Fin 16) : RoundTrip.Statement (.fen sm a b) := by
  suffices H : ∀ wd, wd = 0x1e000200 + sm.toNat * 2147483648 + a.val * 131072 + b.val * 8192 →
      wd < 2 ^ 32 ∧ decodeFields wd = .ok (.fen sm a b) from
    (H (encode (.fen sm a b)) rfl).imp_right decodeWord_of
  intro wd e
  obtain ⟨hw, f31, f25, f21, f17, f13, f7, f0⟩ :=
    fields_1_6_4_4_4_6_7 wd sm.toNat 15 0 a.val b.val 4 0
      sm.toNat_lt (by decide) (by decide) a.isLt b.isLt (by decide) (by decide) (by subst e; omega)
  refine ⟨hw, ?_⟩
  rw [decodeFe_op f25]
  unfold decodeFe
  rw [f7]
  refine (if_pos ⟨f0, f21⟩).trans ?_
  rw [bit_of f31, finOf_of f17, finOf_of f13]

theorem RoundTrip.fstat (sm : Bool) (d : Fin 16) (a : Fin 16) : RoundTrip.Statement (.fstat sm d a) := by
  suffices H : ∀ wd, wd = 0x1e000280 + sm.toNat * 2147483648 + d.val * 2097152 + a.val * 131072 →
      wd < 2 ^ 32 ∧ decodeFields wd = .ok (.fstat sm d a) from
    (H (encode (.fstat sm d a)) rfl).imp_right decodeWord_of
  intro wd e
  obtain ⟨hw, f31, f25, f21, f17, f13, f7, f0⟩ :=
    fields_1_6_4_4_4_6_7 wd sm.toNat 15 d.val a.val 0 5 0
      sm.toNat_lt (by decide) d.isLt a.isLt (by decide) (by decide) (by decide) (by subst e; omega)
  refine ⟨hw, ?_⟩
  rw [decodeFe_op f25]
  unfold decodeFe
  rw [f7]
  refine (if_pos ⟨f0, f13⟩).trans ?_
  rw [bit_of f31, finOf_of f21, finOf_of f17]

theorem RoundTrip.remp (sm : Bool) (d : Fin 16) : RoundTrip.Statement (.remp sm d) := by
  suffices H : ∀ wd, wd = 0x1e000300 + sm.toNat * 2147483648 + d.val * 2097152 →
      wd < 2 ^ 32 ∧ decodeFields wd = .ok (.remp sm d) from
    (H (encode (.remp sm d)) rfl).imp_right decodeWord_of
  intro wd e
  obtain ⟨hw, f31, f25, f21, f13, f7, f0⟩ :=
    fields_1_6_4_8_6_7 wd sm.toNat 15 d.val 0 6 0
      sm.toNat_lt (by decide) d.isLt (by decide) (by decide) (by decide) (by subst e; omega)
  refine ⟨hw, ?_⟩
  rw [decodeFe_op f25]
  unfold decodeFe
  rw [f7]
  refine (if_pos ⟨f0, f13⟩).trans ?_
  rw [bit_of f31, finOf_of f21]

theorem RoundTrip.bp (sm : Bool) (p : Fin 8) (f : BitVec 18) : RoundTrip.Statement (.bp sm p f) := by
  suffices H : ∀ wd, wd = 0x20000000 + sm.toNat * 2147483648 + p.val * 262144 + f.toNat →
      wd < 2 ^ 32 ∧ decodeFields wd = .ok (.bp sm p f) from
    (H (encode (.bp sm p f)) rfl).imp_right decodeWord_of
  intro wd e
  obtain ⟨hw, f31, f25, f22, f21, f18, f0⟩ :=
    fields_1_6_3_1_3_18 wd sm.toNat 16 0 0 p.val f.toNat
      sm.toNat_lt (by decide) (by decide) (by decide) p.isLt f.isLt (by subst e; omega)
  refine ⟨hw, ?_⟩
  rw [decodeBr_op f25]
  unfold decodeBr
  rw [f22]
  refine (if_pos f21).trans ?_
  rw [bit_of f31, finOf_of f18, ofNat_of f0]

theorem RoundTrip.bnp (sm : Bool) (p : Fin 8) (f : BitVec 18) : RoundTrip.Statement (.bnp sm p f) := by
  suffices H : ∀ wd, wd = 0x20400000 + sm.toNat * 2147483648 + p.val * 262144 + f.toNat →
      wd < 2 ^ 32 ∧ decodeFields wd = .ok (.bnp sm p f) from
    (H (encode (.bnp sm p f)) rfl).imp_right decodeWord_of
  intro wd e
  obtain ⟨hw, f31, f25, f22, f21, f18, f0⟩ :=
    fields_1_6_3_1_3_18 wd sm.toNat 16 1 0 p.val f.toNat
      sm.toNat_lt (by decide) (by decide) (by decide) p.isLt f.isLt (by subst e; omega)
  refine ⟨hw, ?_⟩
  rw [decodeBr_op f25]
  unfold decodeBr
  rw [f22]
  refine (if_pos f21).trans ?_
  rw [bit_of f31, finOf_of f18, ofNat_of f0]

theorem RoundTrip.bz (sm : Bool) (k : Fin 16) (f : BitVec 18) : RoundTrip.Statement (.bz sm k f) := by
  suffices H : ∀ wd, wd = 0x20800000 + sm.toNat * 2147483648 + k.val * 262144 + f.toNat →
      wd < 2 ^ 32 ∧ decodeFields wd = .ok (.bz sm k f) from
    (H (encode (.bz sm k f)) rfl).imp_right decodeWord_of
  intro wd e
  obtain ⟨hw, f31, f25, f22, f18, f0⟩ :=
    fields_1_6_3_4_18 wd sm.toNat 16 2 k.val f.toNat
      sm.toNat_lt (by decide) (by decide) k.isLt f.isLt (by subst e; omega)
  refine ⟨hw, ?_⟩
  rw [decodeBr_op f25]
  unfold decodeBr
  rw [f22]
  rw [bit_of f31, finOf_of f18, ofNat_of f0]
  rfl

theorem RoundTrip.bnz (sm : Bool) (k : Fin 16) (f : BitVec 18) : RoundTrip.Statement (.bnz sm k f) := by
  suffices H : ∀ wd, wd = 0x20c00000 + sm.toNat * 2147483648 + k.val * 262144 + f.toNat →
      wd < 2 ^ 32 ∧ decodeFields wd = .ok (.bnz sm k f) from
    (H (encode (.bnz sm k f)) rfl).imp_right decodeWord_of
  intro wd e
  obtain ⟨hw, f31, f25, f22, f18, f0⟩ :=
    fields_1_6_3_4_18 wd sm.toNat 16 3 k.val f.toNat
      sm.toNat_lt (by decide) (by decide) k.isLt f.isLt (by subst e; omega)
  refine ⟨hw, ?_⟩
  rw [decodeBr_op f25]
  unfold decodeBr
  rw [f22]
  rw [bit_of f31, finOf_of f18, ofNat_of f0]
  rfl

theorem RoundTrip.dbnz (sm : Bool) (k : Fin 16) (f : BitVec 18) : RoundTrip.Statement (.dbnz sm k f) := by
  suffices H : ∀ wd, wd = 0x21000000 + sm.toNat * 2147483648 + k.val * 262144 + f.toNat →
      wd < 2 ^ 32 ∧ decodeFields wd = .ok (.dbnz sm k f) from
    (H (encode (.dbnz sm k f)) rfl).imp_right decodeWord_of
  intro wd e
  obtain ⟨hw, f31, f25, f22, f18, f0⟩ :=
    fields_1_6_3_4_18 wd sm.toNat 16 4 k.val f.toNat
      sm.toNat_lt (by decide) (by decide) k.isLt f.isLt (by subst e; omega)
  refine ⟨hw, ?_⟩
  rw [decodeBr_op f25]
  unfold decodeBr
  rw [f22]
  rw [bit_of f31, finOf_of f18, ofNat_of f0]
  rfl

theorem RoundTrip.j (sm : Bool) (f : BitVec 25) : RoundTrip.Statement (.j sm f) := by
  suffices H : ∀ wd, wd = 0x22000000 + sm.toNat * 2147483648 + f.toNat →
      wd < 2 ^ 32 ∧ decodeFields wd = .ok (.j sm f) from
    (H (encode (.j sm f)) rfl).imp_right decodeWord_of
  intro wd e
  obtain ⟨hw, f31, f25, f0⟩ :=
    fields_1_6_25 wd sm.toNat 17 f.toNat
      sm.toNat_lt (by decide) f.isLt (by subst e; omega)
  refine ⟨hw, ?_⟩
  rw [decodeJ_op f25]
  unfold decodeJ
  rw [bit_of f31, ofNat_of f0]

theorem RoundTrip.jal (sm : Bool) (f : BitVec 25) : RoundTrip.Statement (.jal sm f) := by
  suffices H : ∀ wd, wd = 0x24000000 + sm.toNat * 2147483648 + f.toNat →
      wd < 2 ^ 32 ∧ decodeFields wd = .ok (.jal sm f) from
    (H (encode (.jal sm f)) rfl).imp_right decodeWord_of
  intro wd e
  obtain ⟨hw, f31, f25, f0⟩ :=
    fields_1_6_25 wd sm.toNat 18 f.toNat
      sm.toNat_lt (by decide) f.isLt (by subst e; omega)
  refine ⟨hw, ?_⟩
  rw [decodeJal_op f25]
  unfold decodeJal
  rw [bit_of f31, ofNat_of f0]

theorem RoundTrip.jr (sm : Bool) (a : Fin 16) : RoundTrip.Statement (.jr sm a) := by
  suffices H : ∀ wd, wd = 0x26000000 + sm.toNat * 2147483648 + a.val * 131072 →
      wd < 2 ^ 32 ∧ decodeFields wd = .ok (.jr sm a) from
    (H (encode (.jr sm a)) rfl).imp_right decodeWord_of
  intro wd e
  obtain ⟨hw, f31, f25, f21, f17, f13, f7, f0⟩ :=
    fields_1_6_4_4_4_6_7 wd sm.toNat 19 0 a.val 0 0 0
      sm.toNat_lt (by decide) (by decide) a.isLt (by decide) (by decide) (by decide) (by subst e; omega)
  refine ⟨hw, ?_⟩
  rw [decodeJr_op f25]
  unfold decodeJr
  rw [f7]
  refine (if_pos ⟨f0, f13, f21⟩).trans ?_
  rw [bit_of f31, finOf_of f17]

theorem RoundTrip.jalr (sm : Bool) (a : Fin 16) : RoundTrip.Statement (.jalr sm a) := by
  suffices H : ∀ wd, wd = 0x26000080 + sm.toNat * 2147483648 + a.val * 131072 →
      wd < 2 ^ 32 ∧ decodeFields wd = .ok (.jalr sm a) from
    (H (encode (.jalr sm a)) rfl).imp_right decodeWord_of
  intro wd e
  obtain ⟨hw, f31, f25, f21, f17, f13, f7, f0⟩ :=
    fields_1_6_4_4_4_6_7 wd sm.toNat 19 0 a.val 0 1 0
      sm.toNat_lt (by decide) (by decide) a.isLt (by decide) (by decide) (by decide) (by subst e; omega)
  refine ⟨hw, ?_⟩
  rw [decodeJr_op f25]
  unfold decodeJr
  rw [f7]
  refine (if_pos ⟨f0, f13, f21⟩).trans ?_
  rw [bit_of f31, finOf_of f17]

theorem RoundTrip.spawn (sm : Bool) (d : Fin 16) (a : Fin 16) : RoundTrip.Statement (.spawn sm d a) := by
  suffices H : ∀ wd, wd = 0x28000000 + sm.toNat * 2147483648 + d.val * 2097152 + a.val * 131072 →
      wd < 2 ^ 32 ∧ decodeFields wd = .ok (.spawn sm d a) from
    (H (encode (.spawn sm d a)) rfl).imp_right decodeWord_of
  intro wd e
  obtain ⟨hw, f31, f25, f21, f17, f13, f7, f0⟩ :=
    fields_1_6_4_4_4_6_7 wd sm.toNat 20 d.val a.val 0 0 0
      sm.toNat_lt (by decide) d.isLt a.isLt (by decide) (by decide) (by decide) (by subst e; omega)
  refine ⟨hw, ?_⟩
  rw [decodeSpawn_op f25]
  unfold decodeSpawn
  rw [f7]
  refine (if_pos ⟨f0, f13⟩).trans ?_
  rw [bit_of f31, finOf_of f21, finOf_of f17]

theorem RoundTrip.spawnn (sm : Bool) (d : Fin 16) (a : Fin 16) : RoundTrip.Statement (.spawnn sm d a) := by
  suffices H : ∀ wd, wd = 0x28000080 + sm.toNat * 2147483648 + d.val * 2097152 + a.val * 131072 →
      wd < 2 ^ 32 ∧ decodeFields wd = .ok (.spawnn sm d a) from
    (H (encode (.spawnn sm d a)) rfl).imp_right decodeWord_of
  intro wd e
  obtain ⟨hw, f31, f25, f21, f17, f13, f7, f0⟩ :=
    fields_1_6_4_4_4_6_7 wd sm.toNat 20 d.val a.val 0 1 0
      sm.toNat_lt (by decide) d.isLt a.isLt (by decide) (by decide) (by decide) (by subst e; omega)
  refine ⟨hw, ?_⟩
  rw [decodeSpawn_op f25]
  unfold decodeSpawn
  rw [f7]
  refine (if_pos ⟨f0, f13⟩).trans ?_
  rw [bit_of f31, finOf_of f21, finOf_of f17]

theorem RoundTrip.join (sm : Bool) (d : Fin 16) (a : Fin 16) : RoundTrip.Statement (.join sm d a) := by
  suffices H : ∀ wd, wd = 0x28000100 + sm.toNat * 2147483648 + d.val * 2097152 + a.val * 131072 →
      wd < 2 ^ 32 ∧ decodeFields wd = .ok (.join sm d a) from
    (H (encode (.join sm d a)) rfl).imp_right decodeWord_of
  intro wd e
  obtain ⟨hw, f31, f25, f21, f17, f13, f7, f0⟩ :=
    fields_1_6_4_4_4_6_7 wd sm.toNat 20 d.val a.val 0 2 0
      sm.toNat_lt (by decide) d.isLt a.isLt (by decide) (by decide) (by decide) (by subst e; omega)
  refine ⟨hw, ?_⟩
  rw [decodeSpawn_op f25]
  unfold decodeSpawn
  rw [f7]
  refine (if_pos ⟨f0, f13⟩).trans ?_
  rw [bit_of f31, finOf_of f21, finOf_of f17]

theorem RoundTrip.jtest (sm : Bool) (d : Fin 16) (a : Fin 16) : RoundTrip.Statement (.jtest sm d a) := by
  suffices H : ∀ wd, wd = 0x28000180 + sm.toNat * 2147483648 + d.val * 2097152 + a.val * 131072 →
      wd < 2 ^ 32 ∧ decodeFields wd = .ok (.jtest sm d a) from
    (H (encode (.jtest sm d a)) rfl).imp_right decodeWord_of
  intro wd e
  obtain ⟨hw, f31, f25, f21, f17, f13, f7, f0⟩ :=
    fields_1_6_4_4_4_6_7 wd sm.toNat 20 d.val a.val 0 3 0
      sm.toNat_lt (by decide) d.isLt a.isLt (by decide) (by decide) (by decide) (by subst e; omega)
  refine ⟨hw, ?_⟩
  rw [decodeSpawn_op f25]
  unfold decodeSpawn
  rw [f7]
  refine (if_pos ⟨f0, f13⟩).trans ?_
  rw [bit_of f31, finOf_of f21, finOf_of f17]

theorem RoundTrip.spabort (sm : Bool) (a : Fin 16) : RoundTrip.Statement (.spabort sm a) := by
  suffices H : ∀ wd, wd = 0x28000200 + sm.toNat * 2147483648 + a.val * 131072 →
      wd < 2 ^ 32 ∧ decodeFields wd = .ok (.spabort sm a) from
    (H (encode (.spabort sm a)) rfl).imp_right decodeWord_of
  intro wd e
  obtain ⟨hw, f31, f25, f21, f17, f13, f7, f0⟩ :=
    fields_1_6_4_4_4_6_7 wd sm.toNat 20 0 a.val 0 4 0
      sm.toNat_lt (by decide) (by decide) a.isLt (by decide) (by decide) (by decide) (by subst e; omega)
  refine ⟨hw, ?_⟩
  rw [decodeSpawn_op f25]
  unfold decodeSpawn
  rw [f7]
  refine (if_pos ⟨f0, f13, f21⟩).trans ?_
  rw [bit_of f31, finOf_of f17]

theorem RoundTrip.tres (sm : Bool) (d : Fin 16) (a : Fin 16) (b : Fin 16) (k : Bool) : RoundTrip.Statement (.tres sm d a b k) := by
  suffices H : ∀ wd, wd = 0x28000280 + sm.toNat * 2147483648 + d.val * 2097152 + a.val * 131072 + b.val * 8192 + k.toNat →
      wd < 2 ^ 32 ∧ decodeFields wd = .ok (.tres sm d a b k) from
    (H (encode (.tres sm d a b k)) rfl).imp_right decodeWord_of
  intro wd e
  obtain ⟨hw, f31, f25, f21, f17, f13, f7, f1, f0⟩ :=
    fields_1_6_4_4_4_6_6_1 wd sm.toNat 20 d.val a.val b.val 5 0 k.toNat
      sm.toNat_lt (by decide) d.isLt a.isLt b.isLt (by decide) (by decide) k.toNat_lt (by subst e; omega)
  refine ⟨hw, ?_⟩
  rw [decodeSpawn_op f25]
  unfold decodeSpawn
  rw [f7]
  refine (if_pos f1).trans ?_
  rw [bit_of f31, finOf_of f21, finOf_of f17, finOf_of f13, bit_of f0]

theorem RoundTrip.psm (sm : Bool) (d : Fin 16) (a : Fin 16) (z : Fin 16) (o : Order) : RoundTrip.Statement (.psm sm d a z o) := by
  suffices H : ∀ wd, wd = 0x2a000000 + sm.toNat * 2147483648 + d.val * 2097152 + a.val * 131072 + z.val * 8192 + orderCode o * 4 →
      wd < 2 ^ 32 ∧ decodeFields wd = .ok (.psm sm d a z o) from
    (H (encode (.psm sm d a z o)) rfl).imp_right decodeWord_of
  intro wd e
  obtain ⟨hw, f31, f25, f21, f17, f13, f7, f4, f2, f0⟩ :=
    fields_1_6_4_4_4_6_3_2_2 wd sm.toNat 21 d.val a.val z.val 0 0 (orderCode o) 0
      sm.toNat_lt (by decide) d.isLt a.isLt z.isLt (by decide) (by decide) (orderCode_lt o) (by decide) (by subst e; omega)
  refine ⟨hw, ?_⟩
  rw [decodeZ_op f25]
  unfold decodeZ
  rw [f7]
  refine (if_pos ⟨f0, f4⟩).trans ?_
  rw [bit_of f31, finOf_of f21, finOf_of f17, finOf_of f13, orderOf_of f2]

theorem RoundTrip.psmb (sm : Bool) (d : Fin 16) (a : Fin 16) (z : Fin 16) (k : Fin 8) (o : Order) : RoundTrip.Statement (.psmb sm d a z k o) := by
  suffices H : ∀ wd, wd = 0x2a000080 + sm.toNat * 2147483648 + d.val * 2097152 + a.val * 131072 + z.val * 8192 + k.val * 16 + orderCode o * 4 →
      wd < 2 ^ 32 ∧ decodeFields wd = .ok (.psmb sm d a z k o) from
    (H (encode (.psmb sm d a z k o)) rfl).imp_right decodeWord_of
  intro wd e
  obtain ⟨hw, f31, f25, f21, f17, f13, f7, f4, f2, f0⟩ :=
    fields_1_6_4_4_4_6_3_2_2 wd sm.toNat 21 d.val a.val z.val 1 k.val (orderCode o) 0
      sm.toNat_lt (by decide) d.isLt a.isLt z.isLt (by decide) k.isLt (orderCode_lt o) (by decide) (by subst e; omega)
  refine ⟨hw, ?_⟩
  rw [decodeZ_op f25]
  unfold decodeZ
  rw [f7]
  refine (if_pos f0).trans ?_
  rw [bit_of f31, finOf_of f21, finOf_of f17, finOf_of f13, finOf_of f4, orderOf_of f2]

theorem RoundTrip.zset (sm : Bool) (a : Fin 16) (z : Fin 16) (o : Order) : RoundTrip.Statement (.zset sm a z o) := by
  suffices H : ∀ wd, wd = 0x2a000100 + sm.toNat * 2147483648 + a.val * 131072 + z.val * 8192 + orderCode o * 4 →
      wd < 2 ^ 32 ∧ decodeFields wd = .ok (.zset sm a z o) from
    (H (encode (.zset sm a z o)) rfl).imp_right decodeWord_of
  intro wd e
  obtain ⟨hw, f31, f25, f21, f17, f13, f7, f4, f2, f0⟩ :=
    fields_1_6_4_4_4_6_3_2_2 wd sm.toNat 21 0 a.val z.val 2 0 (orderCode o) 0
      sm.toNat_lt (by decide) (by decide) a.isLt z.isLt (by decide) (by decide) (orderCode_lt o) (by decide) (by subst e; omega)
  refine ⟨hw, ?_⟩
  rw [decodeZ_op f25]
  unfold decodeZ
  rw [f7]
  refine (if_pos ⟨f0, f4, f21⟩).trans ?_
  rw [bit_of f31, finOf_of f17, finOf_of f13, orderOf_of f2]

theorem RoundTrip.zget (sm : Bool) (d : Fin 16) (z : Fin 16) (o : Order) : RoundTrip.Statement (.zget sm d z o) := by
  suffices H : ∀ wd, wd = 0x2a000180 + sm.toNat * 2147483648 + d.val * 2097152 + z.val * 8192 + orderCode o * 4 →
      wd < 2 ^ 32 ∧ decodeFields wd = .ok (.zget sm d z o) from
    (H (encode (.zget sm d z o)) rfl).imp_right decodeWord_of
  intro wd e
  obtain ⟨hw, f31, f25, f21, f17, f13, f7, f4, f2, f0⟩ :=
    fields_1_6_4_4_4_6_3_2_2 wd sm.toNat 21 d.val 0 z.val 3 0 (orderCode o) 0
      sm.toNat_lt (by decide) d.isLt (by decide) z.isLt (by decide) (by decide) (orderCode_lt o) (by decide) (by subst e; omega)
  refine ⟨hw, ?_⟩
  rw [decodeZ_op f25]
  unfold decodeZ
  rw [f7]
  refine (if_pos ⟨f0, f4, f17⟩).trans ?_
  rw [bit_of f31, finOf_of f21, finOf_of f13, orderOf_of f2]

theorem RoundTrip.done (sm : Bool) : RoundTrip.Statement (.done sm) := by
  suffices H : ∀ wd, wd = 0x2c000000 + sm.toNat * 2147483648 →
      wd < 2 ^ 32 ∧ decodeFields wd = .ok (.done sm) from
    (H (encode (.done sm)) rfl).imp_right decodeWord_of
  intro wd e
  obtain ⟨hw, f31, f25, f13, f7, f0⟩ :=
    fields_1_6_12_6_7 wd sm.toNat 22 0 0 0
      sm.toNat_lt (by decide) (by decide) (by decide) (by decide) (by subst e; omega)
  refine ⟨hw, ?_⟩
  rw [decodeThr_op f25]
  unfold decodeThr
  rw [f7]
  refine (if_pos ⟨f0, f13⟩).trans ?_
  rw [bit_of f31]

theorem RoundTrip.yield (sm : Bool) : RoundTrip.Statement (.yield sm) := by
  suffices H : ∀ wd, wd = 0x2c000080 + sm.toNat * 2147483648 →
      wd < 2 ^ 32 ∧ decodeFields wd = .ok (.yield sm) from
    (H (encode (.yield sm)) rfl).imp_right decodeWord_of
  intro wd e
  obtain ⟨hw, f31, f25, f13, f7, f0⟩ :=
    fields_1_6_12_6_7 wd sm.toNat 22 0 1 0
      sm.toNat_lt (by decide) (by decide) (by decide) (by decide) (by subst e; omega)
  refine ⟨hw, ?_⟩
  rw [decodeThr_op f25]
  unfold decodeThr
  rw [f7]
  refine (if_pos ⟨f0, f13⟩).trans ?_
  rw [bit_of f31]

theorem RoundTrip.go (sm : Bool) (a : Fin 16) : RoundTrip.Statement (.go sm a) := by
  suffices H : ∀ wd, wd = 0x2c000100 + sm.toNat * 2147483648 + a.val * 131072 →
      wd < 2 ^ 32 ∧ decodeFields wd = .ok (.go sm a) from
    (H (encode (.go sm a)) rfl).imp_right decodeWord_of
  intro wd e
  obtain ⟨hw, f31, f25, f21, f17, f13, f7, f0⟩ :=
    fields_1_6_4_4_4_6_7 wd sm.toNat 22 0 a.val 0 2 0
      sm.toNat_lt (by decide) (by decide) a.isLt (by decide) (by decide) (by decide) (by subst e; omega)
  refine ⟨hw, ?_⟩
  rw [decodeThr_op f25]
  unfold decodeThr
  rw [f7]
  refine (if_pos ⟨f0, f13, f21⟩).trans ?_
  rw [bit_of f31, finOf_of f17]

theorem RoundTrip.goh (sm : Bool) (a : Fin 16) : RoundTrip.Statement (.goh sm a) := by
  suffices H : ∀ wd, wd = 0x2c000180 + sm.toNat * 2147483648 + a.val * 131072 →
      wd < 2 ^ 32 ∧ decodeFields wd = .ok (.goh sm a) from
    (H (encode (.goh sm a)) rfl).imp_right decodeWord_of
  intro wd e
  obtain ⟨hw, f31, f25, f21, f17, f13, f7, f0⟩ :=
    fields_1_6_4_4_4_6_7 wd sm.toNat 22 0 a.val 0 3 0
      sm.toNat_lt (by decide) (by decide) a.isLt (by decide) (by decide) (by decide) (by subst e; omega)
  refine ⟨hw, ?_⟩
  rw [decodeThr_op f25]
  unfold decodeThr
  rw [f7]
  refine (if_pos ⟨f0, f13, f21⟩).trans ?_
  rw [bit_of f31, finOf_of f17]

theorem RoundTrip.gohome (sm : Bool) : RoundTrip.Statement (.gohome sm) := by
  suffices H : ∀ wd, wd = 0x2c000200 + sm.toNat * 2147483648 →
      wd < 2 ^ 32 ∧ decodeFields wd = .ok (.gohome sm) from
    (H (encode (.gohome sm)) rfl).imp_right decodeWord_of
  intro wd e
  obtain ⟨hw, f31, f25, f13, f7, f0⟩ :=
    fields_1_6_12_6_7 wd sm.toNat 22 0 4 0
      sm.toNat_lt (by decide) (by decide) (by decide) (by decide) (by subst e; omega)
  refine ⟨hw, ?_⟩
  rw [decodeThr_op f25]
  unfold decodeThr
  rw [f7]
  refine (if_pos ⟨f0, f13⟩).trans ?_
  rw [bit_of f31]

theorem RoundTrip.sleep (sm : Bool) (a : Fin 16) (b : Fin 16) : RoundTrip.Statement (.sleep sm a b) := by
  suffices H : ∀ wd, wd = 0x2c000280 + sm.toNat * 2147483648 + a.val * 131072 + b.val * 8192 →
      wd < 2 ^ 32 ∧ decodeFields wd = .ok (.sleep sm a b) from
    (H (encode (.sleep sm a b)) rfl).imp_right decodeWord_of
  intro wd e
  obtain ⟨hw, f31, f25, f21, f17, f13, f7, f0⟩ :=
    fields_1_6_4_4_4_6_7 wd sm.toNat 22 0 a.val b.val 5 0
      sm.toNat_lt (by decide) (by decide) a.isLt b.isLt (by decide) (by decide) (by subst e; omega)
  refine ⟨hw, ?_⟩
  rw [decodeThr_op f25]
  unfold decodeThr
  rw [f7]
  refine (if_pos ⟨f0, f21⟩).trans ?_
  rw [bit_of f31, finOf_of f17, finOf_of f13]

theorem RoundTrip.fence (sm : Bool) (c : Scope) (o : Order) : RoundTrip.Statement (.fence sm c o) := by
  suffices H : ∀ wd, wd = 0x2e000000 + sm.toNat * 2147483648 + scopeCode c * 16 + orderCode o * 4 →
      wd < 2 ^ 32 ∧ decodeFields wd = .ok (.fence sm c o) from
    (H (encode (.fence sm c o)) rfl).imp_right decodeWord_of
  intro wd e
  obtain ⟨hw, f31, f25, f13, f7, f6, f4, f2, f0⟩ :=
    fields_1_6_12_6_1_2_2_2 wd sm.toNat 23 0 0 0 (scopeCode c) (orderCode o) 0
      sm.toNat_lt (by decide) (by decide) (by decide) (by decide) (scopeCode_lt c) (orderCode_lt o) (by decide) (by subst e; omega)
  refine ⟨hw, ?_⟩
  rw [decodeFence_op f25]
  unfold decodeFence
  rw [f7]
  refine (if_pos ⟨f0, f6, f13⟩).trans ?_
  rw [bit_of f31, scopeOf_of f4, orderOf_of f2]

theorem RoundTrip.fpush (sm : Bool) : RoundTrip.Statement (.fpush sm) := by
  suffices H : ∀ wd, wd = 0x2e000080 + sm.toNat * 2147483648 →
      wd < 2 ^ 32 ∧ decodeFields wd = .ok (.fpush sm) from
    (H (encode (.fpush sm)) rfl).imp_right decodeWord_of
  intro wd e
  obtain ⟨hw, f31, f25, f13, f7, f0⟩ :=
    fields_1_6_12_6_7 wd sm.toNat 23 0 1 0
      sm.toNat_lt (by decide) (by decide) (by decide) (by decide) (by subst e; omega)
  refine ⟨hw, ?_⟩
  rw [decodeFence_op f25]
  unfold decodeFence
  rw [f7]
  refine (if_pos ⟨f0, f13⟩).trans ?_
  rw [bit_of f31]

theorem RoundTrip.fwait (sm : Bool) : RoundTrip.Statement (.fwait sm) := by
  suffices H : ∀ wd, wd = 0x2e000100 + sm.toNat * 2147483648 →
      wd < 2 ^ 32 ∧ decodeFields wd = .ok (.fwait sm) from
    (H (encode (.fwait sm)) rfl).imp_right decodeWord_of
  intro wd e
  obtain ⟨hw, f31, f25, f13, f7, f0⟩ :=
    fields_1_6_12_6_7 wd sm.toNat 23 0 2 0
      sm.toNat_lt (by decide) (by decide) (by decide) (by decide) (by subst e; omega)
  refine ⟨hw, ?_⟩
  rw [decodeFence_op f25]
  unfold decodeFence
  rw [f7]
  refine (if_pos ⟨f0, f13⟩).trans ?_
  rw [bit_of f31]

theorem RoundTrip.xbeg (sm : Bool) (d : Fin 16) : RoundTrip.Statement (.xbeg sm d) := by
  suffices H : ∀ wd, wd = 0x30000000 + sm.toNat * 2147483648 + d.val * 2097152 →
      wd < 2 ^ 32 ∧ decodeFields wd = .ok (.xbeg sm d) from
    (H (encode (.xbeg sm d)) rfl).imp_right decodeWord_of
  intro wd e
  obtain ⟨hw, f31, f25, f21, f13, f7, f0⟩ :=
    fields_1_6_4_8_6_7 wd sm.toNat 24 d.val 0 0 0
      sm.toNat_lt (by decide) d.isLt (by decide) (by decide) (by decide) (by subst e; omega)
  refine ⟨hw, ?_⟩
  rw [decodeTx_op f25]
  unfold decodeTx
  rw [f7]
  refine (if_pos ⟨f0, f13⟩).trans ?_
  rw [bit_of f31, finOf_of f21]

theorem RoundTrip.xcom (sm : Bool) : RoundTrip.Statement (.xcom sm) := by
  suffices H : ∀ wd, wd = 0x30000080 + sm.toNat * 2147483648 →
      wd < 2 ^ 32 ∧ decodeFields wd = .ok (.xcom sm) from
    (H (encode (.xcom sm)) rfl).imp_right decodeWord_of
  intro wd e
  obtain ⟨hw, f31, f25, f13, f7, f0⟩ :=
    fields_1_6_12_6_7 wd sm.toNat 24 0 1 0
      sm.toNat_lt (by decide) (by decide) (by decide) (by decide) (by subst e; omega)
  refine ⟨hw, ?_⟩
  rw [decodeTx_op f25]
  unfold decodeTx
  rw [f7]
  refine (if_pos ⟨f0, f13⟩).trans ?_
  rw [bit_of f31]

theorem RoundTrip.xabt (sm : Bool) (a : Fin 16) : RoundTrip.Statement (.xabt sm a) := by
  suffices H : ∀ wd, wd = 0x30000100 + sm.toNat * 2147483648 + a.val * 131072 →
      wd < 2 ^ 32 ∧ decodeFields wd = .ok (.xabt sm a) from
    (H (encode (.xabt sm a)) rfl).imp_right decodeWord_of
  intro wd e
  obtain ⟨hw, f31, f25, f21, f17, f13, f7, f0⟩ :=
    fields_1_6_4_4_4_6_7 wd sm.toNat 24 0 a.val 0 2 0
      sm.toNat_lt (by decide) (by decide) a.isLt (by decide) (by decide) (by decide) (by subst e; omega)
  refine ⟨hw, ?_⟩
  rw [decodeTx_op f25]
  unfold decodeTx
  rw [f7]
  refine (if_pos ⟨f0, f13, f21⟩).trans ?_
  rw [bit_of f31, finOf_of f17]

theorem RoundTrip.vadd (sm : Bool) (d : Fin 16) (a : Fin 16) (b : Fin 16) (m : Fin 8) (x : Bool) : RoundTrip.Statement (.vadd sm d a b m x) := by
  suffices H : ∀ wd, wd = 0x32000000 + sm.toNat * 2147483648 + d.val * 2097152 + a.val * 131072 + b.val * 8192 + m.val * 1024 + x.toNat →
      wd < 2 ^ 32 ∧ decodeFields wd = .ok (.vadd sm d a b m x) from
    (H (encode (.vadd sm d a b m x)) rfl).imp_right decodeWord_of
  intro wd e
  obtain ⟨hw, f31, f25, f21, f17, f13, f10, f4, f1, f0⟩ :=
    fields_1_6_4_4_4_3_6_3_1 wd sm.toNat 25 d.val a.val b.val m.val 0 0 x.toNat
      sm.toNat_lt (by decide) d.isLt a.isLt b.isLt m.isLt (by decide) (by decide) x.toNat_lt (by subst e; omega)
  refine ⟨hw, ?_⟩
  rw [decodeVar_op f25]
  unfold decodeVar
  rw [f4]
  refine (if_pos f1).trans ?_
  rw [bit_of f31, finOf_of f21, finOf_of f17, finOf_of f13, finOf_of f10, bit_of f0]

theorem RoundTrip.vsub (sm : Bool) (d : Fin 16) (a : Fin 16) (b : Fin 16) (m : Fin 8) (x : Bool) : RoundTrip.Statement (.vsub sm d a b m x) := by
  suffices H : ∀ wd, wd = 0x32000010 + sm.toNat * 2147483648 + d.val * 2097152 + a.val * 131072 + b.val * 8192 + m.val * 1024 + x.toNat →
      wd < 2 ^ 32 ∧ decodeFields wd = .ok (.vsub sm d a b m x) from
    (H (encode (.vsub sm d a b m x)) rfl).imp_right decodeWord_of
  intro wd e
  obtain ⟨hw, f31, f25, f21, f17, f13, f10, f4, f1, f0⟩ :=
    fields_1_6_4_4_4_3_6_3_1 wd sm.toNat 25 d.val a.val b.val m.val 1 0 x.toNat
      sm.toNat_lt (by decide) d.isLt a.isLt b.isLt m.isLt (by decide) (by decide) x.toNat_lt (by subst e; omega)
  refine ⟨hw, ?_⟩
  rw [decodeVar_op f25]
  unfold decodeVar
  rw [f4]
  refine (if_pos f1).trans ?_
  rw [bit_of f31, finOf_of f21, finOf_of f17, finOf_of f13, finOf_of f10, bit_of f0]

theorem RoundTrip.vmul (sm : Bool) (d : Fin 16) (a : Fin 16) (b : Fin 16) (m : Fin 8) (x : Bool) : RoundTrip.Statement (.vmul sm d a b m x) := by
  suffices H : ∀ wd, wd = 0x32000020 + sm.toNat * 2147483648 + d.val * 2097152 + a.val * 131072 + b.val * 8192 + m.val * 1024 + x.toNat →
      wd < 2 ^ 32 ∧ decodeFields wd = .ok (.vmul sm d a b m x) from
    (H (encode (.vmul sm d a b m x)) rfl).imp_right decodeWord_of
  intro wd e
  obtain ⟨hw, f31, f25, f21, f17, f13, f10, f4, f1, f0⟩ :=
    fields_1_6_4_4_4_3_6_3_1 wd sm.toNat 25 d.val a.val b.val m.val 2 0 x.toNat
      sm.toNat_lt (by decide) d.isLt a.isLt b.isLt m.isLt (by decide) (by decide) x.toNat_lt (by subst e; omega)
  refine ⟨hw, ?_⟩
  rw [decodeVar_op f25]
  unfold decodeVar
  rw [f4]
  refine (if_pos f1).trans ?_
  rw [bit_of f31, finOf_of f21, finOf_of f17, finOf_of f13, finOf_of f10, bit_of f0]

theorem RoundTrip.vmulh (sm : Bool) (d : Fin 16) (a : Fin 16) (b : Fin 16) (m : Fin 8) (x : Bool) : RoundTrip.Statement (.vmulh sm d a b m x) := by
  suffices H : ∀ wd, wd = 0x32000030 + sm.toNat * 2147483648 + d.val * 2097152 + a.val * 131072 + b.val * 8192 + m.val * 1024 + x.toNat →
      wd < 2 ^ 32 ∧ decodeFields wd = .ok (.vmulh sm d a b m x) from
    (H (encode (.vmulh sm d a b m x)) rfl).imp_right decodeWord_of
  intro wd e
  obtain ⟨hw, f31, f25, f21, f17, f13, f10, f4, f1, f0⟩ :=
    fields_1_6_4_4_4_3_6_3_1 wd sm.toNat 25 d.val a.val b.val m.val 3 0 x.toNat
      sm.toNat_lt (by decide) d.isLt a.isLt b.isLt m.isLt (by decide) (by decide) x.toNat_lt (by subst e; omega)
  refine ⟨hw, ?_⟩
  rw [decodeVar_op f25]
  unfold decodeVar
  rw [f4]
  refine (if_pos f1).trans ?_
  rw [bit_of f31, finOf_of f21, finOf_of f17, finOf_of f13, finOf_of f10, bit_of f0]

theorem RoundTrip.vmin (sm : Bool) (d : Fin 16) (a : Fin 16) (b : Fin 16) (m : Fin 8) (x : Bool) : RoundTrip.Statement (.vmin sm d a b m x) := by
  suffices H : ∀ wd, wd = 0x32000040 + sm.toNat * 2147483648 + d.val * 2097152 + a.val * 131072 + b.val * 8192 + m.val * 1024 + x.toNat →
      wd < 2 ^ 32 ∧ decodeFields wd = .ok (.vmin sm d a b m x) from
    (H (encode (.vmin sm d a b m x)) rfl).imp_right decodeWord_of
  intro wd e
  obtain ⟨hw, f31, f25, f21, f17, f13, f10, f4, f1, f0⟩ :=
    fields_1_6_4_4_4_3_6_3_1 wd sm.toNat 25 d.val a.val b.val m.val 4 0 x.toNat
      sm.toNat_lt (by decide) d.isLt a.isLt b.isLt m.isLt (by decide) (by decide) x.toNat_lt (by subst e; omega)
  refine ⟨hw, ?_⟩
  rw [decodeVar_op f25]
  unfold decodeVar
  rw [f4]
  refine (if_pos f1).trans ?_
  rw [bit_of f31, finOf_of f21, finOf_of f17, finOf_of f13, finOf_of f10, bit_of f0]

theorem RoundTrip.vmax (sm : Bool) (d : Fin 16) (a : Fin 16) (b : Fin 16) (m : Fin 8) (x : Bool) : RoundTrip.Statement (.vmax sm d a b m x) := by
  suffices H : ∀ wd, wd = 0x32000050 + sm.toNat * 2147483648 + d.val * 2097152 + a.val * 131072 + b.val * 8192 + m.val * 1024 + x.toNat →
      wd < 2 ^ 32 ∧ decodeFields wd = .ok (.vmax sm d a b m x) from
    (H (encode (.vmax sm d a b m x)) rfl).imp_right decodeWord_of
  intro wd e
  obtain ⟨hw, f31, f25, f21, f17, f13, f10, f4, f1, f0⟩ :=
    fields_1_6_4_4_4_3_6_3_1 wd sm.toNat 25 d.val a.val b.val m.val 5 0 x.toNat
      sm.toNat_lt (by decide) d.isLt a.isLt b.isLt m.isLt (by decide) (by decide) x.toNat_lt (by subst e; omega)
  refine ⟨hw, ?_⟩
  rw [decodeVar_op f25]
  unfold decodeVar
  rw [f4]
  refine (if_pos f1).trans ?_
  rw [bit_of f31, finOf_of f21, finOf_of f17, finOf_of f13, finOf_of f10, bit_of f0]

theorem RoundTrip.vabs (sm : Bool) (d : Fin 16) (a : Fin 16) (m : Fin 8) : RoundTrip.Statement (.vabs sm d a m) := by
  suffices H : ∀ wd, wd = 0x32000060 + sm.toNat * 2147483648 + d.val * 2097152 + a.val * 131072 + m.val * 1024 →
      wd < 2 ^ 32 ∧ decodeFields wd = .ok (.vabs sm d a m) from
    (H (encode (.vabs sm d a m)) rfl).imp_right decodeWord_of
  intro wd e
  obtain ⟨hw, f31, f25, f21, f17, f13, f10, f4, f0⟩ :=
    fields_1_6_4_4_4_3_6_4 wd sm.toNat 25 d.val a.val 0 m.val 6 0
      sm.toNat_lt (by decide) d.isLt a.isLt (by decide) m.isLt (by decide) (by decide) (by subst e; omega)
  refine ⟨hw, ?_⟩
  rw [decodeVar_op f25]
  unfold decodeVar
  rw [f4]
  refine (if_pos ⟨f0, f13⟩).trans ?_
  rw [bit_of f31, finOf_of f21, finOf_of f17, finOf_of f10]

theorem RoundTrip.vneg (sm : Bool) (d : Fin 16) (a : Fin 16) (m : Fin 8) : RoundTrip.Statement (.vneg sm d a m) := by
  suffices H : ∀ wd, wd = 0x32000070 + sm.toNat * 2147483648 + d.val * 2097152 + a.val * 131072 + m.val * 1024 →
      wd < 2 ^ 32 ∧ decodeFields wd = .ok (.vneg sm d a m) from
    (H (encode (.vneg sm d a m)) rfl).imp_right decodeWord_of
  intro wd e
  obtain ⟨hw, f31, f25, f21, f17, f13, f10, f4, f0⟩ :=
    fields_1_6_4_4_4_3_6_4 wd sm.toNat 25 d.val a.val 0 m.val 7 0
      sm.toNat_lt (by decide) d.isLt a.isLt (by decide) m.isLt (by decide) (by decide) (by subst e; omega)
  refine ⟨hw, ?_⟩
  rw [decodeVar_op f25]
  unfold decodeVar
  rw [f4]
  refine (if_pos ⟨f0, f13⟩).trans ?_
  rw [bit_of f31, finOf_of f21, finOf_of f17, finOf_of f10]

theorem RoundTrip.vaddsat (sm : Bool) (d : Fin 16) (a : Fin 16) (b : Fin 16) (m : Fin 8) (x : Bool) : RoundTrip.Statement (.vaddsat sm d a b m x) := by
  suffices H : ∀ wd, wd = 0x32000080 + sm.toNat * 2147483648 + d.val * 2097152 + a.val * 131072 + b.val * 8192 + m.val * 1024 + x.toNat →
      wd < 2 ^ 32 ∧ decodeFields wd = .ok (.vaddsat sm d a b m x) from
    (H (encode (.vaddsat sm d a b m x)) rfl).imp_right decodeWord_of
  intro wd e
  obtain ⟨hw, f31, f25, f21, f17, f13, f10, f4, f1, f0⟩ :=
    fields_1_6_4_4_4_3_6_3_1 wd sm.toNat 25 d.val a.val b.val m.val 8 0 x.toNat
      sm.toNat_lt (by decide) d.isLt a.isLt b.isLt m.isLt (by decide) (by decide) x.toNat_lt (by subst e; omega)
  refine ⟨hw, ?_⟩
  rw [decodeVar_op f25]
  unfold decodeVar
  rw [f4]
  refine (if_pos f1).trans ?_
  rw [bit_of f31, finOf_of f21, finOf_of f17, finOf_of f13, finOf_of f10, bit_of f0]

theorem RoundTrip.vsubsat (sm : Bool) (d : Fin 16) (a : Fin 16) (b : Fin 16) (m : Fin 8) (x : Bool) : RoundTrip.Statement (.vsubsat sm d a b m x) := by
  suffices H : ∀ wd, wd = 0x32000090 + sm.toNat * 2147483648 + d.val * 2097152 + a.val * 131072 + b.val * 8192 + m.val * 1024 + x.toNat →
      wd < 2 ^ 32 ∧ decodeFields wd = .ok (.vsubsat sm d a b m x) from
    (H (encode (.vsubsat sm d a b m x)) rfl).imp_right decodeWord_of
  intro wd e
  obtain ⟨hw, f31, f25, f21, f17, f13, f10, f4, f1, f0⟩ :=
    fields_1_6_4_4_4_3_6_3_1 wd sm.toNat 25 d.val a.val b.val m.val 9 0 x.toNat
      sm.toNat_lt (by decide) d.isLt a.isLt b.isLt m.isLt (by decide) (by decide) x.toNat_lt (by subst e; omega)
  refine ⟨hw, ?_⟩
  rw [decodeVar_op f25]
  unfold decodeVar
  rw [f4]
  refine (if_pos f1).trans ?_
  rw [bit_of f31, finOf_of f21, finOf_of f17, finOf_of f13, finOf_of f10, bit_of f0]

theorem RoundTrip.vsqrt (sm : Bool) (d : Fin 16) (a : Fin 16) (m : Fin 8) : RoundTrip.Statement (.vsqrt sm d a m) := by
  suffices H : ∀ wd, wd = 0x320000a0 + sm.toNat * 2147483648 + d.val * 2097152 + a.val * 131072 + m.val * 1024 →
      wd < 2 ^ 32 ∧ decodeFields wd = .ok (.vsqrt sm d a m) from
    (H (encode (.vsqrt sm d a m)) rfl).imp_right decodeWord_of
  intro wd e
  obtain ⟨hw, f31, f25, f21, f17, f13, f10, f4, f0⟩ :=
    fields_1_6_4_4_4_3_6_4 wd sm.toNat 25 d.val a.val 0 m.val 10 0
      sm.toNat_lt (by decide) d.isLt a.isLt (by decide) m.isLt (by decide) (by decide) (by subst e; omega)
  refine ⟨hw, ?_⟩
  rw [decodeVar_op f25]
  unfold decodeVar
  rw [f4]
  refine (if_pos ⟨f0, f13⟩).trans ?_
  rw [bit_of f31, finOf_of f21, finOf_of f17, finOf_of f10]

theorem RoundTrip.vrcp (sm : Bool) (d : Fin 16) (a : Fin 16) (m : Fin 8) : RoundTrip.Statement (.vrcp sm d a m) := by
  suffices H : ∀ wd, wd = 0x320000b0 + sm.toNat * 2147483648 + d.val * 2097152 + a.val * 131072 + m.val * 1024 →
      wd < 2 ^ 32 ∧ decodeFields wd = .ok (.vrcp sm d a m) from
    (H (encode (.vrcp sm d a m)) rfl).imp_right decodeWord_of
  intro wd e
  obtain ⟨hw, f31, f25, f21, f17, f13, f10, f4, f0⟩ :=
    fields_1_6_4_4_4_3_6_4 wd sm.toNat 25 d.val a.val 0 m.val 11 0
      sm.toNat_lt (by decide) d.isLt a.isLt (by decide) m.isLt (by decide) (by decide) (by subst e; omega)
  refine ⟨hw, ?_⟩
  rw [decodeVar_op f25]
  unfold decodeVar
  rw [f4]
  refine (if_pos ⟨f0, f13⟩).trans ?_
  rw [bit_of f31, finOf_of f21, finOf_of f17, finOf_of f10]

theorem RoundTrip.vrsq (sm : Bool) (d : Fin 16) (a : Fin 16) (m : Fin 8) : RoundTrip.Statement (.vrsq sm d a m) := by
  suffices H : ∀ wd, wd = 0x320000c0 + sm.toNat * 2147483648 + d.val * 2097152 + a.val * 131072 + m.val * 1024 →
      wd < 2 ^ 32 ∧ decodeFields wd = .ok (.vrsq sm d a m) from
    (H (encode (.vrsq sm d a m)) rfl).imp_right decodeWord_of
  intro wd e
  obtain ⟨hw, f31, f25, f21, f17, f13, f10, f4, f0⟩ :=
    fields_1_6_4_4_4_3_6_4 wd sm.toNat 25 d.val a.val 0 m.val 12 0
      sm.toNat_lt (by decide) d.isLt a.isLt (by decide) m.isLt (by decide) (by decide) (by subst e; omega)
  refine ⟨hw, ?_⟩
  rw [decodeVar_op f25]
  unfold decodeVar
  rw [f4]
  refine (if_pos ⟨f0, f13⟩).trans ?_
  rw [bit_of f31, finOf_of f21, finOf_of f17, finOf_of f10]

theorem RoundTrip.vexp2 (sm : Bool) (d : Fin 16) (a : Fin 16) (m : Fin 8) : RoundTrip.Statement (.vexp2 sm d a m) := by
  suffices H : ∀ wd, wd = 0x320000d0 + sm.toNat * 2147483648 + d.val * 2097152 + a.val * 131072 + m.val * 1024 →
      wd < 2 ^ 32 ∧ decodeFields wd = .ok (.vexp2 sm d a m) from
    (H (encode (.vexp2 sm d a m)) rfl).imp_right decodeWord_of
  intro wd e
  obtain ⟨hw, f31, f25, f21, f17, f13, f10, f4, f0⟩ :=
    fields_1_6_4_4_4_3_6_4 wd sm.toNat 25 d.val a.val 0 m.val 13 0
      sm.toNat_lt (by decide) d.isLt a.isLt (by decide) m.isLt (by decide) (by decide) (by subst e; omega)
  refine ⟨hw, ?_⟩
  rw [decodeVar_op f25]
  unfold decodeVar
  rw [f4]
  refine (if_pos ⟨f0, f13⟩).trans ?_
  rw [bit_of f31, finOf_of f21, finOf_of f17, finOf_of f10]

theorem RoundTrip.vand (sm : Bool) (d : Fin 16) (a : Fin 16) (b : Fin 16) (m : Fin 8) (x : Bool) : RoundTrip.Statement (.vand sm d a b m x) := by
  suffices H : ∀ wd, wd = 0x34000000 + sm.toNat * 2147483648 + d.val * 2097152 + a.val * 131072 + b.val * 8192 + m.val * 1024 + x.toNat →
      wd < 2 ^ 32 ∧ decodeFields wd = .ok (.vand sm d a b m x) from
    (H (encode (.vand sm d a b m x)) rfl).imp_right decodeWord_of
  intro wd e
  obtain ⟨hw, f31, f25, f21, f17, f13, f10, f4, f1, f0⟩ :=
    fields_1_6_4_4_4_3_6_3_1 wd sm.toNat 26 d.val a.val b.val m.val 0 0 x.toNat
      sm.toNat_lt (by decide) d.isLt a.isLt b.isLt m.isLt (by decide) (by decide) x.toNat_lt (by subst e; omega)
  refine ⟨hw, ?_⟩
  rw [decodeVbit_op f25]
  unfold decodeVbit
  rw [f4]
  refine (if_pos f1).trans ?_
  rw [bit_of f31, finOf_of f21, finOf_of f17, finOf_of f13, finOf_of f10, bit_of f0]

theorem RoundTrip.vor (sm : Bool) (d : Fin 16) (a : Fin 16) (b : Fin 16) (m : Fin 8) (x : Bool) : RoundTrip.Statement (.vor sm d a b m x) := by
  suffices H : ∀ wd, wd = 0x34000010 + sm.toNat * 2147483648 + d.val * 2097152 + a.val * 131072 + b.val * 8192 + m.val * 1024 + x.toNat →
      wd < 2 ^ 32 ∧ decodeFields wd = .ok (.vor sm d a b m x) from
    (H (encode (.vor sm d a b m x)) rfl).imp_right decodeWord_of
  intro wd e
  obtain ⟨hw, f31, f25, f21, f17, f13, f10, f4, f1, f0⟩ :=
    fields_1_6_4_4_4_3_6_3_1 wd sm.toNat 26 d.val a.val b.val m.val 1 0 x.toNat
      sm.toNat_lt (by decide) d.isLt a.isLt b.isLt m.isLt (by decide) (by decide) x.toNat_lt (by subst e; omega)
  refine ⟨hw, ?_⟩
  rw [decodeVbit_op f25]
  unfold decodeVbit
  rw [f4]
  refine (if_pos f1).trans ?_
  rw [bit_of f31, finOf_of f21, finOf_of f17, finOf_of f13, finOf_of f10, bit_of f0]

theorem RoundTrip.vxor (sm : Bool) (d : Fin 16) (a : Fin 16) (b : Fin 16) (m : Fin 8) (x : Bool) : RoundTrip.Statement (.vxor sm d a b m x) := by
  suffices H : ∀ wd, wd = 0x34000020 + sm.toNat * 2147483648 + d.val * 2097152 + a.val * 131072 + b.val * 8192 + m.val * 1024 + x.toNat →
      wd < 2 ^ 32 ∧ decodeFields wd = .ok (.vxor sm d a b m x) from
    (H (encode (.vxor sm d a b m x)) rfl).imp_right decodeWord_of
  intro wd e
  obtain ⟨hw, f31, f25, f21, f17, f13, f10, f4, f1, f0⟩ :=
    fields_1_6_4_4_4_3_6_3_1 wd sm.toNat 26 d.val a.val b.val m.val 2 0 x.toNat
      sm.toNat_lt (by decide) d.isLt a.isLt b.isLt m.isLt (by decide) (by decide) x.toNat_lt (by subst e; omega)
  refine ⟨hw, ?_⟩
  rw [decodeVbit_op f25]
  unfold decodeVbit
  rw [f4]
  refine (if_pos f1).trans ?_
  rw [bit_of f31, finOf_of f21, finOf_of f17, finOf_of f13, finOf_of f10, bit_of f0]

theorem RoundTrip.vandn (sm : Bool) (d : Fin 16) (a : Fin 16) (b : Fin 16) (m : Fin 8) (x : Bool) : RoundTrip.Statement (.vandn sm d a b m x) := by
  suffices H : ∀ wd, wd = 0x34000030 + sm.toNat * 2147483648 + d.val * 2097152 + a.val * 131072 + b.val * 8192 + m.val * 1024 + x.toNat →
      wd < 2 ^ 32 ∧ decodeFields wd = .ok (.vandn sm d a b m x) from
    (H (encode (.vandn sm d a b m x)) rfl).imp_right decodeWord_of
  intro wd e
  obtain ⟨hw, f31, f25, f21, f17, f13, f10, f4, f1, f0⟩ :=
    fields_1_6_4_4_4_3_6_3_1 wd sm.toNat 26 d.val a.val b.val m.val 3 0 x.toNat
      sm.toNat_lt (by decide) d.isLt a.isLt b.isLt m.isLt (by decide) (by decide) x.toNat_lt (by subst e; omega)
  refine ⟨hw, ?_⟩
  rw [decodeVbit_op f25]
  unfold decodeVbit
  rw [f4]
  refine (if_pos f1).trans ?_
  rw [bit_of f31, finOf_of f21, finOf_of f17, finOf_of f13, finOf_of f10, bit_of f0]

theorem RoundTrip.vshl (sm : Bool) (d : Fin 16) (a : Fin 16) (b : Fin 16) (m : Fin 8) (x : Bool) : RoundTrip.Statement (.vshl sm d a b m x) := by
  suffices H : ∀ wd, wd = 0x34000040 + sm.toNat * 2147483648 + d.val * 2097152 + a.val * 131072 + b.val * 8192 + m.val * 1024 + x.toNat →
      wd < 2 ^ 32 ∧ decodeFields wd = .ok (.vshl sm d a b m x) from
    (H (encode (.vshl sm d a b m x)) rfl).imp_right decodeWord_of
  intro wd e
  obtain ⟨hw, f31, f25, f21, f17, f13, f10, f4, f1, f0⟩ :=
    fields_1_6_4_4_4_3_6_3_1 wd sm.toNat 26 d.val a.val b.val m.val 4 0 x.toNat
      sm.toNat_lt (by decide) d.isLt a.isLt b.isLt m.isLt (by decide) (by decide) x.toNat_lt (by subst e; omega)
  refine ⟨hw, ?_⟩
  rw [decodeVbit_op f25]
  unfold decodeVbit
  rw [f4]
  refine (if_pos f1).trans ?_
  rw [bit_of f31, finOf_of f21, finOf_of f17, finOf_of f13, finOf_of f10, bit_of f0]

theorem RoundTrip.vshr (sm : Bool) (d : Fin 16) (a : Fin 16) (b : Fin 16) (m : Fin 8) (x : Bool) : RoundTrip.Statement (.vshr sm d a b m x) := by
  suffices H : ∀ wd, wd = 0x34000050 + sm.toNat * 2147483648 + d.val * 2097152 + a.val * 131072 + b.val * 8192 + m.val * 1024 + x.toNat →
      wd < 2 ^ 32 ∧ decodeFields wd = .ok (.vshr sm d a b m x) from
    (H (encode (.vshr sm d a b m x)) rfl).imp_right decodeWord_of
  intro wd e
  obtain ⟨hw, f31, f25, f21, f17, f13, f10, f4, f1, f0⟩ :=
    fields_1_6_4_4_4_3_6_3_1 wd sm.toNat 26 d.val a.val b.val m.val 5 0 x.toNat
      sm.toNat_lt (by decide) d.isLt a.isLt b.isLt m.isLt (by decide) (by decide) x.toNat_lt (by subst e; omega)
  refine ⟨hw, ?_⟩
  rw [decodeVbit_op f25]
  unfold decodeVbit
  rw [f4]
  refine (if_pos f1).trans ?_
  rw [bit_of f31, finOf_of f21, finOf_of f17, finOf_of f13, finOf_of f10, bit_of f0]

theorem RoundTrip.vsar (sm : Bool) (d : Fin 16) (a : Fin 16) (b : Fin 16) (m : Fin 8) (x : Bool) : RoundTrip.Statement (.vsar sm d a b m x) := by
  suffices H : ∀ wd, wd = 0x34000060 + sm.toNat * 2147483648 + d.val * 2097152 + a.val * 131072 + b.val * 8192 + m.val * 1024 + x.toNat →
      wd < 2 ^ 32 ∧ decodeFields wd = .ok (.vsar sm d a b m x) from
    (H (encode (.vsar sm d a b m x)) rfl).imp_right decodeWord_of
  intro wd e
  obtain ⟨hw, f31, f25, f21, f17, f13, f10, f4, f1, f0⟩ :=
    fields_1_6_4_4_4_3_6_3_1 wd sm.toNat 26 d.val a.val b.val m.val 6 0 x.toNat
      sm.toNat_lt (by decide) d.isLt a.isLt b.isLt m.isLt (by decide) (by decide) x.toNat_lt (by subst e; omega)
  refine ⟨hw, ?_⟩
  rw [decodeVbit_op f25]
  unfold decodeVbit
  rw [f4]
  refine (if_pos f1).trans ?_
  rw [bit_of f31, finOf_of f21, finOf_of f17, finOf_of f13, finOf_of f10, bit_of f0]

theorem RoundTrip.vclz (sm : Bool) (d : Fin 16) (a : Fin 16) (m : Fin 8) : RoundTrip.Statement (.vclz sm d a m) := by
  suffices H : ∀ wd, wd = 0x34000070 + sm.toNat * 2147483648 + d.val * 2097152 + a.val * 131072 + m.val * 1024 →
      wd < 2 ^ 32 ∧ decodeFields wd = .ok (.vclz sm d a m) from
    (H (encode (.vclz sm d a m)) rfl).imp_right decodeWord_of
  intro wd e
  obtain ⟨hw, f31, f25, f21, f17, f13, f10, f4, f0⟩ :=
    fields_1_6_4_4_4_3_6_4 wd sm.toNat 26 d.val a.val 0 m.val 7 0
      sm.toNat_lt (by decide) d.isLt a.isLt (by decide) m.isLt (by decide) (by decide) (by subst e; omega)
  refine ⟨hw, ?_⟩
  rw [decodeVbit_op f25]
  unfold decodeVbit
  rw [f4]
  refine (if_pos ⟨f0, f13⟩).trans ?_
  rw [bit_of f31, finOf_of f21, finOf_of f17, finOf_of f10]

theorem RoundTrip.vpopc (sm : Bool) (d : Fin 16) (a : Fin 16) (m : Fin 8) : RoundTrip.Statement (.vpopc sm d a m) := by
  suffices H : ∀ wd, wd = 0x34000080 + sm.toNat * 2147483648 + d.val * 2097152 + a.val * 131072 + m.val * 1024 →
      wd < 2 ^ 32 ∧ decodeFields wd = .ok (.vpopc sm d a m) from
    (H (encode (.vpopc sm d a m)) rfl).imp_right decodeWord_of
  intro wd e
  obtain ⟨hw, f31, f25, f21, f17, f13, f10, f4, f0⟩ :=
    fields_1_6_4_4_4_3_6_4 wd sm.toNat 26 d.val a.val 0 m.val 8 0
      sm.toNat_lt (by decide) d.isLt a.isLt (by decide) m.isLt (by decide) (by decide) (by subst e; omega)
  refine ⟨hw, ?_⟩
  rw [decodeVbit_op f25]
  unfold decodeVbit
  rw [f4]
  refine (if_pos ⟨f0, f13⟩).trans ?_
  rw [bit_of f31, finOf_of f21, finOf_of f17, finOf_of f10]

theorem RoundTrip.vfma (sm : Bool) (d : Fin 16) (a : Fin 16) (b : Fin 16) (m : Fin 8) : RoundTrip.Statement (.vfma sm d a b m) := by
  suffices H : ∀ wd, wd = 0x36000000 + sm.toNat * 2147483648 + d.val * 2097152 + a.val * 131072 + b.val * 8192 + m.val * 1024 →
      wd < 2 ^ 32 ∧ decodeFields wd = .ok (.vfma sm d a b m) from
    (H (encode (.vfma sm d a b m)) rfl).imp_right decodeWord_of
  intro wd e
  obtain ⟨hw, f31, f25, f21, f17, f13, f10, f4, f0⟩ :=
    fields_1_6_4_4_4_3_6_4 wd sm.toNat 27 d.val a.val b.val m.val 0 0
      sm.toNat_lt (by decide) d.isLt a.isLt b.isLt m.isLt (by decide) (by decide) (by subst e; omega)
  refine ⟨hw, ?_⟩
  rw [decodeVfma_op f25]
  unfold decodeVfma
  rw [f4]
  refine (if_pos f0).trans ?_
  rw [bit_of f31, finOf_of f21, finOf_of f17, finOf_of f13, finOf_of f10]

theorem RoundTrip.vfms (sm : Bool) (d : Fin 16) (a : Fin 16) (b : Fin 16) (m : Fin 8) : RoundTrip.Statement (.vfms sm d a b m) := by
  suffices H : ∀ wd, wd = 0x36000010 + sm.toNat * 2147483648 + d.val * 2097152 + a.val * 131072 + b.val * 8192 + m.val * 1024 →
      wd < 2 ^ 32 ∧ decodeFields wd = .ok (.vfms sm d a b m) from
    (H (encode (.vfms sm d a b m)) rfl).imp_right decodeWord_of
  intro wd e
  obtain ⟨hw, f31, f25, f21, f17, f13, f10, f4, f0⟩ :=
    fields_1_6_4_4_4_3_6_4 wd sm.toNat 27 d.val a.val b.val m.val 1 0
      sm.toNat_lt (by decide) d.isLt a.isLt b.isLt m.isLt (by decide) (by decide) (by subst e; omega)
  refine ⟨hw, ?_⟩
  rw [decodeVfma_op f25]
  unfold decodeVfma
  rw [f4]
  refine (if_pos f0).trans ?_
  rw [bit_of f31, finOf_of f21, finOf_of f17, finOf_of f13, finOf_of f10]

theorem RoundTrip.vfnma (sm : Bool) (d : Fin 16) (a : Fin 16) (b : Fin 16) (m : Fin 8) : RoundTrip.Statement (.vfnma sm d a b m) := by
  suffices H : ∀ wd, wd = 0x36000020 + sm.toNat * 2147483648 + d.val * 2097152 + a.val * 131072 + b.val * 8192 + m.val * 1024 →
      wd < 2 ^ 32 ∧ decodeFields wd = .ok (.vfnma sm d a b m) from
    (H (encode (.vfnma sm d a b m)) rfl).imp_right decodeWord_of
  intro wd e
  obtain ⟨hw, f31, f25, f21, f17, f13, f10, f4, f0⟩ :=
    fields_1_6_4_4_4_3_6_4 wd sm.toNat 27 d.val a.val b.val m.val 2 0
      sm.toNat_lt (by decide) d.isLt a.isLt b.isLt m.isLt (by decide) (by decide) (by subst e; omega)
  refine ⟨hw, ?_⟩
  rw [decodeVfma_op f25]
  unfold decodeVfma
  rw [f4]
  refine (if_pos f0).trans ?_
  rw [bit_of f31, finOf_of f21, finOf_of f17, finOf_of f13, finOf_of f10]

theorem RoundTrip.vfnms (sm : Bool) (d : Fin 16) (a : Fin 16) (b : Fin 16) (m : Fin 8) : RoundTrip.Statement (.vfnms sm d a b m) := by
  suffices H : ∀ wd, wd = 0x36000030 + sm.toNat * 2147483648 + d.val * 2097152 + a.val * 131072 + b.val * 8192 + m.val * 1024 →
      wd < 2 ^ 32 ∧ decodeFields wd = .ok (.vfnms sm d a b m) from
    (H (encode (.vfnms sm d a b m)) rfl).imp_right decodeWord_of
  intro wd e
  obtain ⟨hw, f31, f25, f21, f17, f13, f10, f4, f0⟩ :=
    fields_1_6_4_4_4_3_6_4 wd sm.toNat 27 d.val a.val b.val m.val 3 0
      sm.toNat_lt (by decide) d.isLt a.isLt b.isLt m.isLt (by decide) (by decide) (by subst e; omega)
  refine ⟨hw, ?_⟩
  rw [decodeVfma_op f25]
  unfold decodeVfma
  rw [f4]
  refine (if_pos f0).trans ?_
  rw [bit_of f31, finOf_of f21, finOf_of f17, finOf_of f13, finOf_of f10]

theorem RoundTrip.vdot2 (sm : Bool) (d : Fin 16) (a : Fin 16) (b : Fin 16) (m : Fin 8) : RoundTrip.Statement (.vdot2 sm d a b m) := by
  suffices H : ∀ wd, wd = 0x36000040 + sm.toNat * 2147483648 + d.val * 2097152 + a.val * 131072 + b.val * 8192 + m.val * 1024 →
      wd < 2 ^ 32 ∧ decodeFields wd = .ok (.vdot2 sm d a b m) from
    (H (encode (.vdot2 sm d a b m)) rfl).imp_right decodeWord_of
  intro wd e
  obtain ⟨hw, f31, f25, f21, f17, f13, f10, f4, f0⟩ :=
    fields_1_6_4_4_4_3_6_4 wd sm.toNat 27 d.val a.val b.val m.val 4 0
      sm.toNat_lt (by decide) d.isLt a.isLt b.isLt m.isLt (by decide) (by decide) (by subst e; omega)
  refine ⟨hw, ?_⟩
  rw [decodeVfma_op f25]
  unfold decodeVfma
  rw [f4]
  refine (if_pos f0).trans ?_
  rw [bit_of f31, finOf_of f21, finOf_of f17, finOf_of f13, finOf_of f10]

theorem RoundTrip.vdot4 (sm : Bool) (d : Fin 16) (a : Fin 16) (b : Fin 16) (m : Fin 8) : RoundTrip.Statement (.vdot4 sm d a b m) := by
  suffices H : ∀ wd, wd = 0x36000050 + sm.toNat * 2147483648 + d.val * 2097152 + a.val * 131072 + b.val * 8192 + m.val * 1024 →
      wd < 2 ^ 32 ∧ decodeFields wd = .ok (.vdot4 sm d a b m) from
    (H (encode (.vdot4 sm d a b m)) rfl).imp_right decodeWord_of
  intro wd e
  obtain ⟨hw, f31, f25, f21, f17, f13, f10, f4, f0⟩ :=
    fields_1_6_4_4_4_3_6_4 wd sm.toNat 27 d.val a.val b.val m.val 5 0
      sm.toNat_lt (by decide) d.isLt a.isLt b.isLt m.isLt (by decide) (by decide) (by subst e; omega)
  refine ⟨hw, ?_⟩
  rw [decodeVfma_op f25]
  unfold decodeVfma
  rw [f4]
  refine (if_pos f0).trans ?_
  rw [bit_of f31, finOf_of f21, finOf_of f17, finOf_of f13, finOf_of f10]

theorem RoundTrip.vcmp (sm : Bool) (d : Fin 8) (a : Fin 16) (b : Fin 16) (m : Fin 8) (x : Bool) (c : Cond) : RoundTrip.Statement (.vcmp sm d a b m x c) := by
  suffices H : ∀ wd, wd = 0x38000000 + sm.toNat * 2147483648 + d.val * 2097152 + a.val * 131072 + b.val * 8192 + m.val * 1024 + x.toNat * 8 + condCode c →
      wd < 2 ^ 32 ∧ decodeFields wd = .ok (.vcmp sm d a b m x c) from
    (H (encode (.vcmp sm d a b m x c)) rfl).imp_right decodeWord_of
  intro wd e
  obtain ⟨hw, f31, f25, f24, f21, f17, f13, f10, f4, f3, f0⟩ :=
    fields_1_6_1_3_4_4_3_6_1_3 wd sm.toNat 28 0 d.val a.val b.val m.val 0 x.toNat (condCode c)
      sm.toNat_lt (by decide) (by decide) d.isLt a.isLt b.isLt m.isLt (by decide) x.toNat_lt (condCode_lt c) (by subst e; omega)
  refine ⟨hw, ?_⟩
  rw [decodeVcmp_op f25]
  unfold decodeVcmp
  rw [f4]
  refine (if_pos f24).trans ?_
  rw [bit_of f31, finOf_of f21, finOf_of f17, finOf_of f13, finOf_of f10, bit_of f3, condOf_of f0]

theorem RoundTrip.vclass (sm : Bool) (d : Fin 8) (a : Fin 16) (m : Fin 8) (k : VClass) : RoundTrip.Statement (.vclass sm d a m k) := by
  suffices H : ∀ wd, wd = 0x38000010 + sm.toNat * 2147483648 + d.val * 2097152 + a.val * 131072 + m.val * 1024 + vclassCode k →
      wd < 2 ^ 32 ∧ decodeFields wd = .ok (.vclass sm d a m k) from
    (H (encode (.vclass sm d a m k)) rfl).imp_right decodeWord_of
  intro wd e
  obtain ⟨hw, f31, f25, f24, f21, f17, f13, f10, f4, f0⟩ :=
    fields_1_6_1_3_4_4_3_6_4 wd sm.toNat 28 0 d.val a.val 0 m.val 1 (vclassCode k)
      sm.toNat_lt (by decide) (by decide) d.isLt a.isLt (by decide) m.isLt (by decide) (vclassCode_lt k) (by subst e; omega)
  refine ⟨hw, ?_⟩
  rw [decodeVcmp_op f25]
  unfold decodeVcmp
  rw [f4]
  refine (if_pos ⟨f13, f24⟩).trans ?_
  rw [bit_of f31, finOf_of f21, finOf_of f17, finOf_of f10, vclassOf_of f0]

theorem RoundTrip.vsel (sm : Bool) (d : Fin 16) (a : Fin 16) (b : Fin 16) (k : Fin 8) : RoundTrip.Statement (.vsel sm d a b k) := by
  suffices H : ∀ wd, wd = 0x38000020 + sm.toNat * 2147483648 + d.val * 2097152 + a.val * 131072 + b.val * 8192 + k.val * 1024 →
      wd < 2 ^ 32 ∧ decodeFields wd = .ok (.vsel sm d a b k) from
    (H (encode (.vsel sm d a b k)) rfl).imp_right decodeWord_of
  intro wd e
  obtain ⟨hw, f31, f25, f21, f17, f13, f10, f4, f0⟩ :=
    fields_1_6_4_4_4_3_6_4 wd sm.toNat 28 d.val a.val b.val k.val 2 0
      sm.toNat_lt (by decide) d.isLt a.isLt b.isLt k.isLt (by decide) (by decide) (by subst e; omega)
  refine ⟨hw, ?_⟩
  rw [decodeVcmp_op f25]
  unfold decodeVcmp
  rw [f4]
  refine (if_pos f0).trans ?_
  rw [bit_of f31, finOf_of f21, finOf_of f17, finOf_of f13, finOf_of f10]

theorem RoundTrip.mand (sm : Bool) (d : Fin 8) (a : Fin 8) (b : Fin 8) : RoundTrip.Statement (.mand sm d a b) := by
  suffices H : ∀ wd, wd = 0x38000030 + sm.toNat * 2147483648 + d.val * 2097152 + a.val * 131072 + b.val * 8192 →
      wd < 2 ^ 32 ∧ decodeFields wd = .ok (.mand sm d a b) from
    (H (encode (.mand sm d a b)) rfl).imp_right decodeWord_of
  intro wd e
  obtain ⟨hw, f31, f25, f24, f21, f20, f17, f16, f13, f10, f4, f0⟩ :=
    fields_1_6_1_3_1_3_1_3_3_6_4 wd sm.toNat 28 0 d.val 0 a.val 0 b.val 0 3 0
      sm.toNat_lt (by decide) (by decide) d.isLt (by decide) a.isLt (by decide) b.isLt (by decide) (by decide) (by decide) (by subst e; omega)
  refine ⟨hw, ?_⟩
  rw [decodeVcmp_op f25]
  unfold decodeVcmp
  rw [f4]
  refine (if_pos ⟨f0, f10, f16, f20, f24⟩).trans ?_
  rw [bit_of f31, finOf_of f21, finOf_of f17, finOf_of f13]

theorem RoundTrip.mor (sm : Bool) (d : Fin 8) (a : Fin 8) (b : Fin 8) : RoundTrip.Statement (.mor sm d a b) := by
  suffices H : ∀ wd, wd = 0x38000040 + sm.toNat * 2147483648 + d.val * 2097152 + a.val * 131072 + b.val * 8192 →
      wd < 2 ^ 32 ∧ decodeFields wd = .ok (.mor sm d a b) from
    (H (encode (.mor sm d a b)) rfl).imp_right decodeWord_of
  intro wd e
  obtain ⟨hw, f31, f25, f24, f21, f20, f17, f16, f13, f10, f4, f0⟩ :=
    fields_1_6_1_3_1_3_1_3_3_6_4 wd sm.toNat 28 0 d.val 0 a.val 0 b.val 0 4 0
      sm.toNat_lt (by decide) (by decide) d.isLt (by decide) a.isLt (by decide) b.isLt (by decide) (by decide) (by decide) (by subst e; omega)
  refine ⟨hw, ?_⟩
  rw [decodeVcmp_op f25]
  unfold decodeVcmp
  rw [f4]
  refine (if_pos ⟨f0, f10, f16, f20, f24⟩).trans ?_
  rw [bit_of f31, finOf_of f21, finOf_of f17, finOf_of f13]

theorem RoundTrip.mnot (sm : Bool) (d : Fin 8) (a : Fin 8) : RoundTrip.Statement (.mnot sm d a) := by
  suffices H : ∀ wd, wd = 0x38000050 + sm.toNat * 2147483648 + d.val * 2097152 + a.val * 131072 →
      wd < 2 ^ 32 ∧ decodeFields wd = .ok (.mnot sm d a) from
    (H (encode (.mnot sm d a)) rfl).imp_right decodeWord_of
  intro wd e
  obtain ⟨hw, f31, f25, f24, f21, f20, f17, f10, f4, f0⟩ :=
    fields_1_6_1_3_1_3_7_6_4 wd sm.toNat 28 0 d.val 0 a.val 0 5 0
      sm.toNat_lt (by decide) (by decide) d.isLt (by decide) a.isLt (by decide) (by decide) (by decide) (by subst e; omega)
  refine ⟨hw, ?_⟩
  rw [decodeVcmp_op f25]
  unfold decodeVcmp
  rw [f4]
  refine (if_pos ⟨f0, f10, f20, f24⟩).trans ?_
  rw [bit_of f31, finOf_of f21, finOf_of f17]

theorem RoundTrip.mcount (sm : Bool) (d : Fin 16) (a : Fin 8) : RoundTrip.Statement (.mcount sm d a) := by
  suffices H : ∀ wd, wd = 0x38000060 + sm.toNat * 2147483648 + d.val * 2097152 + a.val * 131072 →
      wd < 2 ^ 32 ∧ decodeFields wd = .ok (.mcount sm d a) from
    (H (encode (.mcount sm d a)) rfl).imp_right decodeWord_of
  intro wd e
  obtain ⟨hw, f31, f25, f21, f20, f17, f10, f4, f0⟩ :=
    fields_1_6_4_1_3_7_6_4 wd sm.toNat 28 d.val 0 a.val 0 6 0
      sm.toNat_lt (by decide) d.isLt (by decide) a.isLt (by decide) (by decide) (by decide) (by subst e; omega)
  refine ⟨hw, ?_⟩
  rw [decodeVcmp_op f25]
  unfold decodeVcmp
  rw [f4]
  refine (if_pos ⟨f0, f10, f20⟩).trans ?_
  rw [bit_of f31, finOf_of f21, finOf_of f17]

theorem RoundTrip.mfirst (sm : Bool) (d : Fin 16) (a : Fin 8) : RoundTrip.Statement (.mfirst sm d a) := by
  suffices H : ∀ wd, wd = 0x38000070 + sm.toNat * 2147483648 + d.val * 2097152 + a.val * 131072 →
      wd < 2 ^ 32 ∧ decodeFields wd = .ok (.mfirst sm d a) from
    (H (encode (.mfirst sm d a)) rfl).imp_right decodeWord_of
  intro wd e
  obtain ⟨hw, f31, f25, f21, f20, f17, f10, f4, f0⟩ :=
    fields_1_6_4_1_3_7_6_4 wd sm.toNat 28 d.val 0 a.val 0 7 0
      sm.toNat_lt (by decide) d.isLt (by decide) a.isLt (by decide) (by decide) (by decide) (by subst e; omega)
  refine ⟨hw, ?_⟩
  rw [decodeVcmp_op f25]
  unfold decodeVcmp
  rw [f4]
  refine (if_pos ⟨f0, f10, f20⟩).trans ?_
  rw [bit_of f31, finOf_of f21, finOf_of f17]

theorem RoundTrip.vbcast (sm : Bool) (d : Fin 16) (a : Fin 16) (m : Fin 8) (t : Tag) : RoundTrip.Statement (.vbcast sm d a m t) := by
  suffices H : ∀ wd, wd = 0x3a000000 + sm.toNat * 2147483648 + d.val * 2097152 + a.val * 131072 + m.val * 1024 + tagCode t →
      wd < 2 ^ 32 ∧ decodeFields wd = .ok (.vbcast sm d a m t) from
    (H (encode (.vbcast sm d a m t)) rfl).imp_right decodeWord_of
  intro wd e
  obtain ⟨hw, f31, f25, f21, f17, f13, f10, f4, f0⟩ :=
    fields_1_6_4_4_4_3_6_4 wd sm.toNat 29 d.val a.val 0 m.val 0 (tagCode t)
      sm.toNat_lt (by decide) d.isLt a.isLt (by decide) m.isLt (by decide) (tagCode_lt t) (by subst e; omega)
  refine ⟨hw, ?_⟩
  rw [decodeVperm_op f25]
  unfold decodeVperm
  rw [f4]
  refine (if_pos f13).trans ?_
  rw [bit_of f31, finOf_of f21, finOf_of f17, finOf_of f10, tagOf_of f0]

theorem RoundTrip.vins (sm : Bool) (d : Fin 16) (a : Fin 16) (b : Fin 16) : RoundTrip.Statement (.vins sm d a b) := by
  suffices H : ∀ wd, wd = 0x3a000010 + sm.toNat * 2147483648 + d.val * 2097152 + a.val * 131072 + b.val * 8192 →
      wd < 2 ^ 32 ∧ decodeFields wd = .ok (.vins sm d a b) from
    (H (encode (.vins sm d a b)) rfl).imp_right decodeWord_of
  intro wd e
  obtain ⟨hw, f31, f25, f21, f17, f13, f10, f4, f0⟩ :=
    fields_1_6_4_4_4_3_6_4 wd sm.toNat 29 d.val a.val b.val 0 1 0
      sm.toNat_lt (by decide) d.isLt a.isLt b.isLt (by decide) (by decide) (by decide) (by subst e; omega)
  refine ⟨hw, ?_⟩
  rw [decodeVperm_op f25]
  unfold decodeVperm
  rw [f4]
  refine (if_pos ⟨f0, f10⟩).trans ?_
  rw [bit_of f31, finOf_of f21, finOf_of f17, finOf_of f13]

theorem RoundTrip.vext (sm : Bool) (d : Fin 16) (a : Fin 16) (b : Fin 16) : RoundTrip.Statement (.vext sm d a b) := by
  suffices H : ∀ wd, wd = 0x3a000020 + sm.toNat * 2147483648 + d.val * 2097152 + a.val * 131072 + b.val * 8192 →
      wd < 2 ^ 32 ∧ decodeFields wd = .ok (.vext sm d a b) from
    (H (encode (.vext sm d a b)) rfl).imp_right decodeWord_of
  intro wd e
  obtain ⟨hw, f31, f25, f21, f17, f13, f10, f4, f0⟩ :=
    fields_1_6_4_4_4_3_6_4 wd sm.toNat 29 d.val a.val b.val 0 2 0
      sm.toNat_lt (by decide) d.isLt a.isLt b.isLt (by decide) (by decide) (by decide) (by subst e; omega)
  refine ⟨hw, ?_⟩
  rw [decodeVperm_op f25]
  unfold decodeVperm
  rw [f4]
  refine (if_pos ⟨f0, f10⟩).trans ?_
  rw [bit_of f31, finOf_of f21, finOf_of f17, finOf_of f13]

theorem RoundTrip.vperm (sm : Bool) (d : Fin 16) (a : Fin 16) (b : Fin 16) (m : Fin 8) : RoundTrip.Statement (.vperm sm d a b m) := by
  suffices H : ∀ wd, wd = 0x3a000030 + sm.toNat * 2147483648 + d.val * 2097152 + a.val * 131072 + b.val * 8192 + m.val * 1024 →
      wd < 2 ^ 32 ∧ decodeFields wd = .ok (.vperm sm d a b m) from
    (H (encode (.vperm sm d a b m)) rfl).imp_right decodeWord_of
  intro wd e
  obtain ⟨hw, f31, f25, f21, f17, f13, f10, f4, f0⟩ :=
    fields_1_6_4_4_4_3_6_4 wd sm.toNat 29 d.val a.val b.val m.val 3 0
      sm.toNat_lt (by decide) d.isLt a.isLt b.isLt m.isLt (by decide) (by decide) (by subst e; omega)
  refine ⟨hw, ?_⟩
  rw [decodeVperm_op f25]
  unfold decodeVperm
  rw [f4]
  refine (if_pos f0).trans ?_
  rw [bit_of f31, finOf_of f21, finOf_of f17, finOf_of f13, finOf_of f10]

theorem RoundTrip.vcompress (sm : Bool) (d : Fin 16) (a : Fin 16) (m : Fin 8) : RoundTrip.Statement (.vcompress sm d a m) := by
  suffices H : ∀ wd, wd = 0x3a000040 + sm.toNat * 2147483648 + d.val * 2097152 + a.val * 131072 + m.val * 1024 →
      wd < 2 ^ 32 ∧ decodeFields wd = .ok (.vcompress sm d a m) from
    (H (encode (.vcompress sm d a m)) rfl).imp_right decodeWord_of
  intro wd e
  obtain ⟨hw, f31, f25, f21, f17, f13, f10, f4, f0⟩ :=
    fields_1_6_4_4_4_3_6_4 wd sm.toNat 29 d.val a.val 0 m.val 4 0
      sm.toNat_lt (by decide) d.isLt a.isLt (by decide) m.isLt (by decide) (by decide) (by subst e; omega)
  refine ⟨hw, ?_⟩
  rw [decodeVperm_op f25]
  unfold decodeVperm
  rw [f4]
  refine (if_pos ⟨f0, f13⟩).trans ?_
  rw [bit_of f31, finOf_of f21, finOf_of f17, finOf_of f10]

theorem RoundTrip.vexpand (sm : Bool) (d : Fin 16) (a : Fin 16) (m : Fin 8) : RoundTrip.Statement (.vexpand sm d a m) := by
  suffices H : ∀ wd, wd = 0x3a000050 + sm.toNat * 2147483648 + d.val * 2097152 + a.val * 131072 + m.val * 1024 →
      wd < 2 ^ 32 ∧ decodeFields wd = .ok (.vexpand sm d a m) from
    (H (encode (.vexpand sm d a m)) rfl).imp_right decodeWord_of
  intro wd e
  obtain ⟨hw, f31, f25, f21, f17, f13, f10, f4, f0⟩ :=
    fields_1_6_4_4_4_3_6_4 wd sm.toNat 29 d.val a.val 0 m.val 5 0
      sm.toNat_lt (by decide) d.isLt a.isLt (by decide) m.isLt (by decide) (by decide) (by subst e; omega)
  refine ⟨hw, ?_⟩
  rw [decodeVperm_op f25]
  unfold decodeVperm
  rw [f4]
  refine (if_pos ⟨f0, f13⟩).trans ?_
  rw [bit_of f31, finOf_of f21, finOf_of f17, finOf_of f10]

theorem RoundTrip.vredadd (sm : Bool) (d : Fin 16) (a : Fin 16) (m : Fin 8) : RoundTrip.Statement (.vredadd sm d a m) := by
  suffices H : ∀ wd, wd = 0x3a000060 + sm.toNat * 2147483648 + d.val * 2097152 + a.val * 131072 + m.val * 1024 →
      wd < 2 ^ 32 ∧ decodeFields wd = .ok (.vredadd sm d a m) from
    (H (encode (.vredadd sm d a m)) rfl).imp_right decodeWord_of
  intro wd e
  obtain ⟨hw, f31, f25, f21, f17, f13, f10, f4, f0⟩ :=
    fields_1_6_4_4_4_3_6_4 wd sm.toNat 29 d.val a.val 0 m.val 6 0
      sm.toNat_lt (by decide) d.isLt a.isLt (by decide) m.isLt (by decide) (by decide) (by subst e; omega)
  refine ⟨hw, ?_⟩
  rw [decodeVperm_op f25]
  unfold decodeVperm
  rw [f4]
  refine (if_pos ⟨f0, f13⟩).trans ?_
  rw [bit_of f31, finOf_of f21, finOf_of f17, finOf_of f10]

theorem RoundTrip.vredmax (sm : Bool) (d : Fin 16) (a : Fin 16) (m : Fin 8) : RoundTrip.Statement (.vredmax sm d a m) := by
  suffices H : ∀ wd, wd = 0x3a000070 + sm.toNat * 2147483648 + d.val * 2097152 + a.val * 131072 + m.val * 1024 →
      wd < 2 ^ 32 ∧ decodeFields wd = .ok (.vredmax sm d a m) from
    (H (encode (.vredmax sm d a m)) rfl).imp_right decodeWord_of
  intro wd e
  obtain ⟨hw, f31, f25, f21, f17, f13, f10, f4, f0⟩ :=
    fields_1_6_4_4_4_3_6_4 wd sm.toNat 29 d.val a.val 0 m.val 7 0
      sm.toNat_lt (by decide) d.isLt a.isLt (by decide) m.isLt (by decide) (by decide) (by subst e; omega)
  refine ⟨hw, ?_⟩
  rw [decodeVperm_op f25]
  unfold decodeVperm
  rw [f4]
  refine (if_pos ⟨f0, f13⟩).trans ?_
  rw [bit_of f31, finOf_of f21, finOf_of f17, finOf_of f10]

theorem RoundTrip.vredmin (sm : Bool) (d : Fin 16) (a : Fin 16) (m : Fin 8) : RoundTrip.Statement (.vredmin sm d a m) := by
  suffices H : ∀ wd, wd = 0x3a000080 + sm.toNat * 2147483648 + d.val * 2097152 + a.val * 131072 + m.val * 1024 →
      wd < 2 ^ 32 ∧ decodeFields wd = .ok (.vredmin sm d a m) from
    (H (encode (.vredmin sm d a m)) rfl).imp_right decodeWord_of
  intro wd e
  obtain ⟨hw, f31, f25, f21, f17, f13, f10, f4, f0⟩ :=
    fields_1_6_4_4_4_3_6_4 wd sm.toNat 29 d.val a.val 0 m.val 8 0
      sm.toNat_lt (by decide) d.isLt a.isLt (by decide) m.isLt (by decide) (by decide) (by subst e; omega)
  refine ⟨hw, ?_⟩
  rw [decodeVperm_op f25]
  unfold decodeVperm
  rw [f4]
  refine (if_pos ⟨f0, f13⟩).trans ?_
  rw [bit_of f31, finOf_of f21, finOf_of f17, finOf_of f10]

theorem RoundTrip.vscan (sm : Bool) (d : Fin 16) (a : Fin 16) (m : Fin 8) (x : Bool) : RoundTrip.Statement (.vscan sm d a m x) := by
  suffices H : ∀ wd, wd = 0x3a000090 + sm.toNat * 2147483648 + d.val * 2097152 + a.val * 131072 + m.val * 1024 + x.toNat →
      wd < 2 ^ 32 ∧ decodeFields wd = .ok (.vscan sm d a m x) from
    (H (encode (.vscan sm d a m x)) rfl).imp_right decodeWord_of
  intro wd e
  obtain ⟨hw, f31, f25, f21, f17, f13, f10, f4, f1, f0⟩ :=
    fields_1_6_4_4_4_3_6_3_1 wd sm.toNat 29 d.val a.val 0 m.val 9 0 x.toNat
      sm.toNat_lt (by decide) d.isLt a.isLt (by decide) m.isLt (by decide) (by decide) x.toNat_lt (by subst e; omega)
  refine ⟨hw, ?_⟩
  rw [decodeVperm_op f25]
  unfold decodeVperm
  rw [f4]
  refine (if_pos ⟨f1, f13⟩).trans ?_
  rw [bit_of f31, finOf_of f21, finOf_of f17, finOf_of f10, bit_of f0]

theorem RoundTrip.vcvt (sm : Bool) (d : Fin 16) (a : Fin 16) (p : Fin 8) (m : Fin 8) (f : Tag) : RoundTrip.Statement (.vcvt sm d a p m f) := by
  suffices H : ∀ wd, wd = 0x3c000000 + sm.toNat * 2147483648 + d.val * 2097152 + a.val * 131072 + p.val * 8192 + m.val * 1024 + tagCode f →
      wd < 2 ^ 32 ∧ decodeFields wd = .ok (.vcvt sm d a p m f) from
    (H (encode (.vcvt sm d a p m f)) rfl).imp_right decodeWord_of
  intro wd e
  obtain ⟨hw, f31, f25, f21, f17, f16, f13, f10, f4, f0⟩ :=
    fields_1_6_4_4_1_3_3_6_4 wd sm.toNat 30 d.val a.val 0 p.val m.val 0 (tagCode f)
      sm.toNat_lt (by decide) d.isLt a.isLt (by decide) p.isLt m.isLt (by decide) (tagCode_lt f) (by subst e; omega)
  refine ⟨hw, ?_⟩
  rw [decodeVcvt_op f25]
  unfold decodeVcvt
  rw [f4]
  refine (if_pos f16).trans ?_
  rw [bit_of f31, finOf_of f21, finOf_of f17, finOf_of f13, finOf_of f10, tagOf_of f0]

theorem RoundTrip.vquant (sm : Bool) (d : Fin 16) (a : Fin 16) (p : Fin 4) (f : Bool) : RoundTrip.Statement (.vquant sm d a p f) := by
  suffices H : ∀ wd, wd = 0x3c00001c + sm.toNat * 2147483648 + d.val * 2097152 + a.val * 131072 + p.val * 8192 + f.toNat →
      wd < 2 ^ 32 ∧ decodeFields wd = .ok (.vquant sm d a p f) from
    (H (encode (.vquant sm d a p f)) rfl).imp_right decodeWord_of
  intro wd e
  obtain ⟨hw, f31, f25, f21, f17, f15, f13, f10, f4, f1, f0⟩ :=
    fields_1_6_4_4_2_2_3_6_3_1 wd sm.toNat 30 d.val a.val 0 p.val 0 1 6 f.toNat
      sm.toNat_lt (by decide) d.isLt a.isLt (by decide) p.isLt (by decide) (by decide) (by decide) f.toNat_lt (by subst e; omega)
  refine ⟨hw, ?_⟩
  rw [decodeVcvt_op f25]
  unfold decodeVcvt
  rw [f4]
  refine (if_pos ⟨f1, f10, f15⟩).trans ?_
  rw [bit_of f31, finOf_of f21, finOf_of f17, finOf_of f13, bit_of f0]

theorem RoundTrip.vdequant (sm : Bool) (d : Fin 16) (a : Fin 16) (p : Fin 8) (m : Fin 8) (f : Tag) : RoundTrip.Statement (.vdequant sm d a p m f) := by
  suffices H : ∀ wd, wd = 0x3c000020 + sm.toNat * 2147483648 + d.val * 2097152 + a.val * 131072 + p.val * 8192 + m.val * 1024 + tagCode f →
      wd < 2 ^ 32 ∧ decodeFields wd = .ok (.vdequant sm d a p m f) from
    (H (encode (.vdequant sm d a p m f)) rfl).imp_right decodeWord_of
  intro wd e
  obtain ⟨hw, f31, f25, f21, f17, f16, f13, f10, f4, f0⟩ :=
    fields_1_6_4_4_1_3_3_6_4 wd sm.toNat 30 d.val a.val 0 p.val m.val 2 (tagCode f)
      sm.toNat_lt (by decide) d.isLt a.isLt (by decide) p.isLt m.isLt (by decide) (tagCode_lt f) (by subst e; omega)
  refine ⟨hw, ?_⟩
  rw [decodeVcvt_op f25]
  unfold decodeVcvt
  rw [f4]
  refine (if_pos f16).trans ?_
  rw [bit_of f31, finOf_of f21, finOf_of f17, finOf_of f13, finOf_of f10, tagOf_of f0]

theorem RoundTrip.vtag (sm : Bool) (d : Fin 16) (a : Fin 16) (t : Tag) : RoundTrip.Statement (.vtag sm d a t) := by
  suffices H : ∀ wd, wd = 0x3c000030 + sm.toNat * 2147483648 + d.val * 2097152 + a.val * 131072 + tagCode t →
      wd < 2 ^ 32 ∧ decodeFields wd = .ok (.vtag sm d a t) from
    (H (encode (.vtag sm d a t)) rfl).imp_right decodeWord_of
  intro wd e
  obtain ⟨hw, f31, f25, f21, f17, f10, f4, f0⟩ :=
    fields_1_6_4_4_7_6_4 wd sm.toNat 30 d.val a.val 0 3 (tagCode t)
      sm.toNat_lt (by decide) d.isLt a.isLt (by decide) (by decide) (tagCode_lt t) (by subst e; omega)
  refine ⟨hw, ?_⟩
  rw [decodeVcvt_op f25]
  unfold decodeVcvt
  rw [f4]
  refine (if_pos f10).trans ?_
  rw [bit_of f31, finOf_of f21, finOf_of f17, tagOf_of f0]

theorem RoundTrip.vseed (sm : Bool) (d : Fin 16) (m : Fin 8) : RoundTrip.Statement (.vseed sm d m) := by
  suffices H : ∀ wd, wd = 0x3c000040 + sm.toNat * 2147483648 + d.val * 2097152 + m.val * 1024 →
      wd < 2 ^ 32 ∧ decodeFields wd = .ok (.vseed sm d m) from
    (H (encode (.vseed sm d m)) rfl).imp_right decodeWord_of
  intro wd e
  obtain ⟨hw, f31, f25, f21, f13, f10, f4, f0⟩ :=
    fields_1_6_4_8_3_6_4 wd sm.toNat 30 d.val 0 m.val 4 0
      sm.toNat_lt (by decide) d.isLt (by decide) m.isLt (by decide) (by decide) (by subst e; omega)
  refine ⟨hw, ?_⟩
  rw [decodeVcvt_op f25]
  unfold decodeVcvt
  rw [f4]
  refine (if_pos ⟨f0, f13⟩).trans ?_
  rw [bit_of f31, finOf_of f21, finOf_of f10]

theorem RoundTrip.vld (sm : Bool) (d : Fin 16) (a : Fin 16) (m : Fin 8) (f : Tag) (o : BitVec 7) : RoundTrip.Statement (.vld sm d a m f o) := by
  suffices H : ∀ wd, wd = 0x3e000000 + sm.toNat * 2147483648 + d.val * 2097152 + a.val * 131072 + m.val * 16384 + tagCode f * 128 + o.toNat →
      wd < 2 ^ 32 ∧ decodeFields wd = .ok (.vld sm d a m f o) from
    (H (encode (.vld sm d a m f o)) rfl).imp_right decodeWord_of
  intro wd e
  obtain ⟨hw, f31, f25, f21, f17, f14, f11, f7, f0⟩ :=
    fields_1_6_4_4_3_3_4_7 wd sm.toNat 31 d.val a.val m.val 0 (tagCode f) o.toNat
      sm.toNat_lt (by decide) d.isLt a.isLt m.isLt (by decide) (tagCode_lt f) o.isLt (by subst e; omega)
  refine ⟨hw, ?_⟩
  rw [decodeVmem_op f25]
  unfold decodeVmem
  rw [f11]
  rw [bit_of f31, finOf_of f21, finOf_of f17, finOf_of f14, tagOf_of f7, ofNat_of f0]
  rfl

theorem RoundTrip.vst (sm : Bool) (d : Fin 16) (a : Fin 16) (m : Fin 8) (f : Tag) (o : BitVec 7) : RoundTrip.Statement (.vst sm d a m f o) := by
  suffices H : ∀ wd, wd = 0x3e000800 + sm.toNat * 2147483648 + d.val * 2097152 + a.val * 131072 + m.val * 16384 + tagCode f * 128 + o.toNat →
      wd < 2 ^ 32 ∧ decodeFields wd = .ok (.vst sm d a m f o) from
    (H (encode (.vst sm d a m f o)) rfl).imp_right decodeWord_of
  intro wd e
  obtain ⟨hw, f31, f25, f21, f17, f14, f11, f7, f0⟩ :=
    fields_1_6_4_4_3_3_4_7 wd sm.toNat 31 d.val a.val m.val 1 (tagCode f) o.toNat
      sm.toNat_lt (by decide) d.isLt a.isLt m.isLt (by decide) (tagCode_lt f) o.isLt (by subst e; omega)
  refine ⟨hw, ?_⟩
  rw [decodeVmem_op f25]
  unfold decodeVmem
  rw [f11]
  rw [bit_of f31, finOf_of f21, finOf_of f17, finOf_of f14, tagOf_of f7, ofNat_of f0]
  rfl

theorem RoundTrip.vldbc (sm : Bool) (d : Fin 16) (a : Fin 16) (m : Fin 8) (f : Tag) (o : BitVec 7) : RoundTrip.Statement (.vldbc sm d a m f o) := by
  suffices H : ∀ wd, wd = 0x3e001000 + sm.toNat * 2147483648 + d.val * 2097152 + a.val * 131072 + m.val * 16384 + tagCode f * 128 + o.toNat →
      wd < 2 ^ 32 ∧ decodeFields wd = .ok (.vldbc sm d a m f o) from
    (H (encode (.vldbc sm d a m f o)) rfl).imp_right decodeWord_of
  intro wd e
  obtain ⟨hw, f31, f25, f21, f17, f14, f11, f7, f0⟩ :=
    fields_1_6_4_4_3_3_4_7 wd sm.toNat 31 d.val a.val m.val 2 (tagCode f) o.toNat
      sm.toNat_lt (by decide) d.isLt a.isLt m.isLt (by decide) (tagCode_lt f) o.isLt (by subst e; omega)
  refine ⟨hw, ?_⟩
  rw [decodeVmem_op f25]
  unfold decodeVmem
  rw [f11]
  rw [bit_of f31, finOf_of f21, finOf_of f17, finOf_of f14, tagOf_of f7, ofNat_of f0]
  rfl

theorem RoundTrip.vlds (sm : Bool) (d : Fin 16) (a : Fin 16) (m : Fin 8) (f : Tag) (o : BitVec 7) : RoundTrip.Statement (.vlds sm d a m f o) := by
  suffices H : ∀ wd, wd = 0x3e001800 + sm.toNat * 2147483648 + d.val * 2097152 + a.val * 131072 + m.val * 16384 + tagCode f * 128 + o.toNat →
      wd < 2 ^ 32 ∧ decodeFields wd = .ok (.vlds sm d a m f o) from
    (H (encode (.vlds sm d a m f o)) rfl).imp_right decodeWord_of
  intro wd e
  obtain ⟨hw, f31, f25, f21, f17, f14, f11, f7, f0⟩ :=
    fields_1_6_4_4_3_3_4_7 wd sm.toNat 31 d.val a.val m.val 3 (tagCode f) o.toNat
      sm.toNat_lt (by decide) d.isLt a.isLt m.isLt (by decide) (tagCode_lt f) o.isLt (by subst e; omega)
  refine ⟨hw, ?_⟩
  rw [decodeVmem_op f25]
  unfold decodeVmem
  rw [f11]
  rw [bit_of f31, finOf_of f21, finOf_of f17, finOf_of f14, tagOf_of f7, ofNat_of f0]
  rfl

theorem RoundTrip.vsts (sm : Bool) (d : Fin 16) (a : Fin 16) (m : Fin 8) (f : Tag) (o : BitVec 7) : RoundTrip.Statement (.vsts sm d a m f o) := by
  suffices H : ∀ wd, wd = 0x3e002000 + sm.toNat * 2147483648 + d.val * 2097152 + a.val * 131072 + m.val * 16384 + tagCode f * 128 + o.toNat →
      wd < 2 ^ 32 ∧ decodeFields wd = .ok (.vsts sm d a m f o) from
    (H (encode (.vsts sm d a m f o)) rfl).imp_right decodeWord_of
  intro wd e
  obtain ⟨hw, f31, f25, f21, f17, f14, f11, f7, f0⟩ :=
    fields_1_6_4_4_3_3_4_7 wd sm.toNat 31 d.val a.val m.val 4 (tagCode f) o.toNat
      sm.toNat_lt (by decide) d.isLt a.isLt m.isLt (by decide) (tagCode_lt f) o.isLt (by subst e; omega)
  refine ⟨hw, ?_⟩
  rw [decodeVmem_op f25]
  unfold decodeVmem
  rw [f11]
  rw [bit_of f31, finOf_of f21, finOf_of f17, finOf_of f14, tagOf_of f7, ofNat_of f0]
  rfl

theorem RoundTrip.vgat (sm : Bool) (d : Fin 16) (a : Fin 16) (b : Fin 16) (m : Fin 8) (t : Tag) : RoundTrip.Statement (.vgat sm d a b m t) := by
  suffices H : ∀ wd, wd = 0x40000000 + sm.toNat * 2147483648 + d.val * 2097152 + a.val * 131072 + b.val * 8192 + m.val * 1024 + tagCode t →
      wd < 2 ^ 32 ∧ decodeFields wd = .ok (.vgat sm d a b m t) from
    (H (encode (.vgat sm d a b m t)) rfl).imp_right decodeWord_of
  intro wd e
  obtain ⟨hw, f31, f25, f21, f17, f13, f10, f4, f0⟩ :=
    fields_1_6_4_4_4_3_6_4 wd sm.toNat 32 d.val a.val b.val m.val 0 (tagCode t)
      sm.toNat_lt (by decide) d.isLt a.isLt b.isLt m.isLt (by decide) (tagCode_lt t) (by subst e; omega)
  refine ⟨hw, ?_⟩
  rw [decodeVgat_op f25]
  unfold decodeVgat
  rw [f4]
  rw [bit_of f31, finOf_of f21, finOf_of f17, finOf_of f13, finOf_of f10, tagOf_of f0]
  rfl

theorem RoundTrip.vsct (sm : Bool) (d : Fin 16) (a : Fin 16) (b : Fin 16) (m : Fin 8) : RoundTrip.Statement (.vsct sm d a b m) := by
  suffices H : ∀ wd, wd = 0x40000010 + sm.toNat * 2147483648 + d.val * 2097152 + a.val * 131072 + b.val * 8192 + m.val * 1024 →
      wd < 2 ^ 32 ∧ decodeFields wd = .ok (.vsct sm d a b m) from
    (H (encode (.vsct sm d a b m)) rfl).imp_right decodeWord_of
  intro wd e
  obtain ⟨hw, f31, f25, f21, f17, f13, f10, f4, f0⟩ :=
    fields_1_6_4_4_4_3_6_4 wd sm.toNat 32 d.val a.val b.val m.val 1 0
      sm.toNat_lt (by decide) d.isLt a.isLt b.isLt m.isLt (by decide) (by decide) (by subst e; omega)
  refine ⟨hw, ?_⟩
  rw [decodeVgat_op f25]
  unfold decodeVgat
  rw [f4]
  refine (if_pos f0).trans ?_
  rw [bit_of f31, finOf_of f21, finOf_of f17, finOf_of f13, finOf_of f10]

theorem RoundTrip.vsctadd (sm : Bool) (d : Fin 16) (a : Fin 16) (b : Fin 16) (m : Fin 8) : RoundTrip.Statement (.vsctadd sm d a b m) := by
  suffices H : ∀ wd, wd = 0x40000020 + sm.toNat * 2147483648 + d.val * 2097152 + a.val * 131072 + b.val * 8192 + m.val * 1024 →
      wd < 2 ^ 32 ∧ decodeFields wd = .ok (.vsctadd sm d a b m) from
    (H (encode (.vsctadd sm d a b m)) rfl).imp_right decodeWord_of
  intro wd e
  obtain ⟨hw, f31, f25, f21, f17, f13, f10, f4, f0⟩ :=
    fields_1_6_4_4_4_3_6_4 wd sm.toNat 32 d.val a.val b.val m.val 2 0
      sm.toNat_lt (by decide) d.isLt a.isLt b.isLt m.isLt (by decide) (by decide) (by subst e; omega)
  refine ⟨hw, ?_⟩
  rw [decodeVgat_op f25]
  unfold decodeVgat
  rw [f4]
  refine (if_pos f0).trans ?_
  rw [bit_of f31, finOf_of f21, finOf_of f17, finOf_of f13, finOf_of f10]

theorem RoundTrip.hsift (sm : Bool) (d : Fin 16) (a : Fin 16) (b : Fin 16) (k : Fin 16) : RoundTrip.Statement (.hsift sm d a b k) := by
  suffices H : ∀ wd, wd = 0x42000000 + sm.toNat * 2147483648 + d.val * 2097152 + a.val * 131072 + b.val * 8192 + k.val →
      wd < 2 ^ 32 ∧ decodeFields wd = .ok (.hsift sm d a b k) from
    (H (encode (.hsift sm d a b k)) rfl).imp_right decodeWord_of
  intro wd e
  obtain ⟨hw, f31, f25, f21, f17, f13, f10, f4, f0⟩ :=
    fields_1_6_4_4_4_3_6_4 wd sm.toNat 33 d.val a.val b.val 0 0 k.val
      sm.toNat_lt (by decide) d.isLt a.isLt b.isLt (by decide) (by decide) k.isLt (by subst e; omega)
  refine ⟨hw, ?_⟩
  rw [decodeVspc_op f25]
  unfold decodeVspc
  rw [f4]
  refine (if_pos f10).trans ?_
  rw [bit_of f31, finOf_of f21, finOf_of f17, finOf_of f13, finOf_of f0]

theorem RoundTrip.tstep (sm : Bool) (d : Fin 16) (a : Fin 16) (b : Fin 16) (p : Fin 8) : RoundTrip.Statement (.tstep sm d a b p) := by
  suffices H : ∀ wd, wd = 0x42000010 + sm.toNat * 2147483648 + d.val * 2097152 + a.val * 131072 + b.val * 8192 + p.val →
      wd < 2 ^ 32 ∧ decodeFields wd = .ok (.tstep sm d a b p) from
    (H (encode (.tstep sm d a b p)) rfl).imp_right decodeWord_of
  intro wd e
  obtain ⟨hw, f31, f25, f21, f17, f13, f10, f4, f3, f0⟩ :=
    fields_1_6_4_4_4_3_6_1_3 wd sm.toNat 33 d.val a.val b.val 0 1 0 p.val
      sm.toNat_lt (by decide) d.isLt a.isLt b.isLt (by decide) (by decide) (by decide) p.isLt (by subst e; omega)
  refine ⟨hw, ?_⟩
  rw [decodeVspc_op f25]
  unfold decodeVspc
  rw [f4]
  refine (if_pos ⟨f3, f10⟩).trans ?_
  rw [bit_of f31, finOf_of f21, finOf_of f17, finOf_of f13, finOf_of f0]

theorem RoundTrip.dgi (sm : Bool) (d : Fin 16) (a : Fin 16) (r : Bool) : RoundTrip.Statement (.dgi sm d a r) := by
  suffices H : ∀ wd, wd = 0x42000020 + sm.toNat * 2147483648 + d.val * 2097152 + a.val * 131072 + r.toNat →
      wd < 2 ^ 32 ∧ decodeFields wd = .ok (.dgi sm d a r) from
    (H (encode (.dgi sm d a r)) rfl).imp_right decodeWord_of
  intro wd e
  obtain ⟨hw, f31, f25, f21, f17, f10, f4, f1, f0⟩ :=
    fields_1_6_4_4_7_6_3_1 wd sm.toNat 33 d.val a.val 0 2 0 r.toNat
      sm.toNat_lt (by decide) d.isLt a.isLt (by decide) (by decide) (by decide) r.toNat_lt (by subst e; omega)
  refine ⟨hw, ?_⟩
  rw [decodeVspc_op f25]
  unfold decodeVspc
  rw [f4]
  refine (if_pos ⟨f1, f10⟩).trans ?_
  rw [bit_of f31, finOf_of f21, finOf_of f17, bit_of f0]

theorem RoundTrip.dga (sm : Bool) (a : Fin 16) (n : Fin 8) : RoundTrip.Statement (.dga sm a n) := by
  suffices H : ∀ wd, wd = 0x42000030 + sm.toNat * 2147483648 + a.val * 131072 + n.val →
      wd < 2 ^ 32 ∧ decodeFields wd = .ok (.dga sm a n) from
    (H (encode (.dga sm a n)) rfl).imp_right decodeWord_of
  intro wd e
  obtain ⟨hw, f31, f25, f21, f17, f10, f4, f3, f0⟩ :=
    fields_1_6_4_4_7_6_1_3 wd sm.toNat 33 0 a.val 0 3 0 n.val
      sm.toNat_lt (by decide) (by decide) a.isLt (by decide) (by decide) (by decide) n.isLt (by subst e; omega)
  refine ⟨hw, ?_⟩
  rw [decodeVspc_op f25]
  unfold decodeVspc
  rw [f4]
  refine (if_pos ⟨f3, f10, f21⟩).trans ?_
  rw [bit_of f31, finOf_of f17, finOf_of f0]

theorem RoundTrip.dgo (sm : Bool) (d : Fin 16) (r : Bool) : RoundTrip.Statement (.dgo sm d r) := by
  suffices H : ∀ wd, wd = 0x42000040 + sm.toNat * 2147483648 + d.val * 2097152 + r.toNat →
      wd < 2 ^ 32 ∧ decodeFields wd = .ok (.dgo sm d r) from
    (H (encode (.dgo sm d r)) rfl).imp_right decodeWord_of
  intro wd e
  obtain ⟨hw, f31, f25, f21, f10, f4, f1, f0⟩ :=
    fields_1_6_4_11_6_3_1 wd sm.toNat 33 d.val 0 4 0 r.toNat
      sm.toNat_lt (by decide) d.isLt (by decide) (by decide) (by decide) r.toNat_lt (by subst e; omega)
  refine ⟨hw, ?_⟩
  rw [decodeVspc_op f25]
  unfold decodeVspc
  rw [f4]
  refine (if_pos ⟨f1, f10⟩).trans ?_
  rw [bit_of f31, finOf_of f21, bit_of f0]

theorem RoundTrip.dglog (sm : Bool) (a : Fin 16) (b : Fin 16) : RoundTrip.Statement (.dglog sm a b) := by
  suffices H : ∀ wd, wd = 0x42000050 + sm.toNat * 2147483648 + a.val * 131072 + b.val * 8192 →
      wd < 2 ^ 32 ∧ decodeFields wd = .ok (.dglog sm a b) from
    (H (encode (.dglog sm a b)) rfl).imp_right decodeWord_of
  intro wd e
  obtain ⟨hw, f31, f25, f21, f17, f13, f10, f4, f0⟩ :=
    fields_1_6_4_4_4_3_6_4 wd sm.toNat 33 0 a.val b.val 0 5 0
      sm.toNat_lt (by decide) (by decide) a.isLt b.isLt (by decide) (by decide) (by decide) (by subst e; omega)
  refine ⟨hw, ?_⟩
  rw [decodeVspc_op f25]
  unfold decodeVspc
  rw [f4]
  refine (if_pos ⟨f0, f10, f21⟩).trans ?_
  rw [bit_of f31, finOf_of f17, finOf_of f13]

theorem RoundTrip.mxcfg (sm : Bool) (a : Fin 16) (x : Bool) : RoundTrip.Statement (.mxcfg sm a x) := by
  suffices H : ∀ wd, wd = 0x44000000 + sm.toNat * 2147483648 + a.val * 131072 + x.toNat →
      wd < 2 ^ 32 ∧ decodeFields wd = .ok (.mxcfg sm a x) from
    (H (encode (.mxcfg sm a x)) rfl).imp_right decodeWord_of
  intro wd e
  obtain ⟨hw, f31, f25, f21, f17, f13, f9, f1, f0⟩ :=
    fields_1_6_4_4_4_4_8_1 wd sm.toNat 34 0 a.val 0 0 0 x.toNat
      sm.toNat_lt (by decide) (by decide) a.isLt (by decide) (by decide) (by decide) x.toNat_lt (by subst e; omega)
  refine ⟨hw, ?_⟩
  rw [decodeMxc_op f25]
  unfold decodeMxc
  rw [f9]
  refine (if_pos ⟨f1, f13, f21⟩).trans ?_
  rw [bit_of f31, finOf_of f17, bit_of f0]

theorem RoundTrip.mxzero (sm : Bool) (d : Fin 16) (n : Bool) : RoundTrip.Statement (.mxzero sm d n) := by
  suffices H : ∀ wd, wd = 0x44000200 + sm.toNat * 2147483648 + d.val * 2097152 + n.toNat →
      wd < 2 ^ 32 ∧ decodeFields wd = .ok (.mxzero sm d n) from
    (H (encode (.mxzero sm d n)) rfl).imp_right decodeWord_of
  intro wd e
  obtain ⟨hw, f31, f25, f21, f13, f9, f1, f0⟩ :=
    fields_1_6_4_8_4_8_1 wd sm.toNat 34 d.val 0 1 0 n.toNat
      sm.toNat_lt (by decide) d.isLt (by decide) (by decide) (by decide) n.toNat_lt (by subst e; omega)
  refine ⟨hw, ?_⟩
  rw [decodeMxc_op f25]
  unfold decodeMxc
  rw [f9]
  refine (if_pos ⟨f1, f13⟩).trans ?_
  rw [bit_of f31, finOf_of f21, bit_of f0]

theorem RoundTrip.mxrel (sm : Bool) : RoundTrip.Statement (.mxrel sm) := by
  suffices H : ∀ wd, wd = 0x44000400 + sm.toNat * 2147483648 →
      wd < 2 ^ 32 ∧ decodeFields wd = .ok (.mxrel sm) from
    (H (encode (.mxrel sm)) rfl).imp_right decodeWord_of
  intro wd e
  obtain ⟨hw, f31, f25, f13, f9, f0⟩ :=
    fields_1_6_12_4_9 wd sm.toNat 34 0 2 0
      sm.toNat_lt (by decide) (by decide) (by decide) (by decide) (by subst e; omega)
  refine ⟨hw, ?_⟩
  rw [decodeMxc_op f25]
  unfold decodeMxc
  rw [f9]
  refine (if_pos ⟨f0, f13⟩).trans ?_
  rw [bit_of f31]

theorem RoundTrip.mxsave (sm : Bool) (d : Fin 16) (a : Fin 16) (n : Bool) : RoundTrip.Statement (.mxsave sm d a n) := by
  suffices H : ∀ wd, wd = 0x44000600 + sm.toNat * 2147483648 + d.val * 2097152 + a.val * 131072 + n.toNat →
      wd < 2 ^ 32 ∧ decodeFields wd = .ok (.mxsave sm d a n) from
    (H (encode (.mxsave sm d a n)) rfl).imp_right decodeWord_of
  intro wd e
  obtain ⟨hw, f31, f25, f21, f17, f13, f9, f1, f0⟩ :=
    fields_1_6_4_4_4_4_8_1 wd sm.toNat 34 d.val a.val 0 3 0 n.toNat
      sm.toNat_lt (by decide) d.isLt a.isLt (by decide) (by decide) (by decide) n.toNat_lt (by subst e; omega)
  refine ⟨hw, ?_⟩
  rw [decodeMxc_op f25]
  unfold decodeMxc
  rw [f9]
  refine (if_pos ⟨f1, f13⟩).trans ?_
  rw [bit_of f31, finOf_of f21, finOf_of f17, bit_of f0]

theorem RoundTrip.mxrest (sm : Bool) (d : Fin 16) (a : Fin 16) (n : Bool) : RoundTrip.Statement (.mxrest sm d a n) := by
  suffices H : ∀ wd, wd = 0x44000800 + sm.toNat * 2147483648 + d.val * 2097152 + a.val * 131072 + n.toNat →
      wd < 2 ^ 32 ∧ decodeFields wd = .ok (.mxrest sm d a n) from
    (H (encode (.mxrest sm d a n)) rfl).imp_right decodeWord_of
  intro wd e
  obtain ⟨hw, f31, f25, f21, f17, f13, f9, f1, f0⟩ :=
    fields_1_6_4_4_4_4_8_1 wd sm.toNat 34 d.val a.val 0 4 0 n.toNat
      sm.toNat_lt (by decide) d.isLt a.isLt (by decide) (by decide) (by decide) n.toNat_lt (by subst e; omega)
  refine ⟨hw, ?_⟩
  rw [decodeMxc_op f25]
  unfold decodeMxc
  rw [f9]
  refine (if_pos ⟨f1, f13⟩).trans ?_
  rw [bit_of f31, finOf_of f21, finOf_of f17, bit_of f0]

theorem RoundTrip.mxmm (sm : Bool) (d : Fin 16) (a : Fin 16) (b : Fin 16) (q : Fin 4) (p : Bool) (z : Bool) (n : Bool) : RoundTrip.Statement (.mxmm sm d a b q p z n) := by
  suffices H : ∀ wd, wd = 0x46000000 + sm.toNat * 2147483648 + d.val * 2097152 + a.val * 131072 + b.val * 8192 + q.val * 8 + p.toNat * 4 + z.toNat * 2 + n.toNat →
      wd < 2 ^ 32 ∧ decodeFields wd = .ok (.mxmm sm d a b q p z n) from
    (H (encode (.mxmm sm d a b q p z n)) rfl).imp_right decodeWord_of
  intro wd e
  obtain ⟨hw, f31, f25, f21, f17, f13, f9, f5, f3, f2, f1, f0⟩ :=
    fields_1_6_4_4_4_4_4_2_1_1_1 wd sm.toNat 35 d.val a.val b.val 0 0 q.val p.toNat z.toNat n.toNat
      sm.toNat_lt (by decide) d.isLt a.isLt b.isLt (by decide) (by decide) q.isLt p.toNat_lt z.toNat_lt n.toNat_lt (by subst e; omega)
  refine ⟨hw, ?_⟩
  rw [decodeMxm_op f25]
  unfold decodeMxm
  rw [f9]
  refine (if_pos f5).trans ?_
  rw [bit_of f31, finOf_of f21, finOf_of f17, finOf_of f13, finOf_of f3, bit_of f2, bit_of f1, bit_of f0]

theorem RoundTrip.mxmmg (sm : Bool) (d : Fin 16) (a : Fin 16) (b : Fin 16) (q : Fin 4) (p : Bool) (z : Bool) (n : Bool) : RoundTrip.Statement (.mxmmg sm d a b q p z n) := by
  suffices H : ∀ wd, wd = 0x46000200 + sm.toNat * 2147483648 + d.val * 2097152 + a.val * 131072 + b.val * 8192 + q.val * 8 + p.toNat * 4 + z.toNat * 2 + n.toNat →
      wd < 2 ^ 32 ∧ decodeFields wd = .ok (.mxmmg sm d a b q p z n) from
    (H (encode (.mxmmg sm d a b q p z n)) rfl).imp_right decodeWord_of
  intro wd e
  obtain ⟨hw, f31, f25, f21, f17, f13, f9, f5, f3, f2, f1, f0⟩ :=
    fields_1_6_4_4_4_4_4_2_1_1_1 wd sm.toNat 35 d.val a.val b.val 1 0 q.val p.toNat z.toNat n.toNat
      sm.toNat_lt (by decide) d.isLt a.isLt b.isLt (by decide) (by decide) q.isLt p.toNat_lt z.toNat_lt n.toNat_lt (by subst e; omega)
  refine ⟨hw, ?_⟩
  rw [decodeMxm_op f25]
  unfold decodeMxm
  rw [f9]
  refine (if_pos f5).trans ?_
  rw [bit_of f31, finOf_of f21, finOf_of f17, finOf_of f13, finOf_of f3, bit_of f2, bit_of f1, bit_of f0]

theorem RoundTrip.mxmms (sm : Bool) (d : Fin 16) (a : Fin 16) (b : Fin 16) (q : Fin 4) (p : Bool) (z : Bool) (n : Bool) : RoundTrip.Statement (.mxmms sm d a b q p z n) := by
  suffices H : ∀ wd, wd = 0x46000400 + sm.toNat * 2147483648 + d.val * 2097152 + a.val * 131072 + b.val * 8192 + q.val * 8 + p.toNat * 4 + z.toNat * 2 + n.toNat →
      wd < 2 ^ 32 ∧ decodeFields wd = .ok (.mxmms sm d a b q p z n) from
    (H (encode (.mxmms sm d a b q p z n)) rfl).imp_right decodeWord_of
  intro wd e
  obtain ⟨hw, f31, f25, f21, f17, f13, f9, f5, f3, f2, f1, f0⟩ :=
    fields_1_6_4_4_4_4_4_2_1_1_1 wd sm.toNat 35 d.val a.val b.val 2 0 q.val p.toNat z.toNat n.toNat
      sm.toNat_lt (by decide) d.isLt a.isLt b.isLt (by decide) (by decide) q.isLt p.toNat_lt z.toNat_lt n.toNat_lt (by subst e; omega)
  refine ⟨hw, ?_⟩
  rw [decodeMxm_op f25]
  unfold decodeMxm
  rw [f9]
  refine (if_pos f5).trans ?_
  rw [bit_of f31, finOf_of f21, finOf_of f17, finOf_of f13, finOf_of f3, bit_of f2, bit_of f1, bit_of f0]

theorem RoundTrip.mxmmgs (sm : Bool) (d : Fin 16) (a : Fin 16) (b : Fin 16) (q : Fin 4) (p : Bool) (z : Bool) (n : Bool) : RoundTrip.Statement (.mxmmgs sm d a b q p z n) := by
  suffices H : ∀ wd, wd = 0x46000600 + sm.toNat * 2147483648 + d.val * 2097152 + a.val * 131072 + b.val * 8192 + q.val * 8 + p.toNat * 4 + z.toNat * 2 + n.toNat →
      wd < 2 ^ 32 ∧ decodeFields wd = .ok (.mxmmgs sm d a b q p z n) from
    (H (encode (.mxmmgs sm d a b q p z n)) rfl).imp_right decodeWord_of
  intro wd e
  obtain ⟨hw, f31, f25, f21, f17, f13, f9, f5, f3, f2, f1, f0⟩ :=
    fields_1_6_4_4_4_4_4_2_1_1_1 wd sm.toNat 35 d.val a.val b.val 3 0 q.val p.toNat z.toNat n.toNat
      sm.toNat_lt (by decide) d.isLt a.isLt b.isLt (by decide) (by decide) q.isLt p.toNat_lt z.toNat_lt n.toNat_lt (by subst e; omega)
  refine ⟨hw, ?_⟩
  rw [decodeMxm_op f25]
  unfold decodeMxm
  rw [f9]
  refine (if_pos f5).trans ?_
  rw [bit_of f31, finOf_of f21, finOf_of f17, finOf_of f13, finOf_of f3, bit_of f2, bit_of f1, bit_of f0]

theorem RoundTrip.mxst (sm : Bool) (d : Fin 16) (a : Fin 16) (f : BitVec 4) (q : Fin 4) (p : Bool) (n : Bool) : RoundTrip.Statement (.mxst sm d a f q p n) := by
  suffices H : ∀ wd, wd = 0x48000000 + sm.toNat * 2147483648 + d.val * 2097152 + a.val * 131072 + f.toNat * 32 + q.val * 8 + p.toNat * 4 + n.toNat →
      wd < 2 ^ 32 ∧ decodeFields wd = .ok (.mxst sm d a f q p n) from
    (H (encode (.mxst sm d a f q p n)) rfl).imp_right decodeWord_of
  intro wd e
  obtain ⟨hw, f31, f25, f21, f17, f13, f9, f5, f3, f2, f1, f0⟩ :=
    fields_1_6_4_4_4_4_4_2_1_1_1 wd sm.toNat 36 d.val a.val 0 0 f.toNat q.val p.toNat 0 n.toNat
      sm.toNat_lt (by decide) d.isLt a.isLt (by decide) (by decide) f.isLt q.isLt p.toNat_lt (by decide) n.toNat_lt (by subst e; omega)
  refine ⟨hw, ?_⟩
  rw [decodeMxo_op f25]
  unfold decodeMxo
  rw [f9]
  refine (if_pos ⟨f1, f13⟩).trans ?_
  rw [bit_of f31, finOf_of f21, finOf_of f17, ofNat_of f5, finOf_of f3, bit_of f2, bit_of f0]

theorem RoundTrip.mxstq (sm : Bool) (d : Fin 16) (a : Fin 16) (f : BitVec 4) (q : Fin 4) (p : Bool) (n : Bool) : RoundTrip.Statement (.mxstq sm d a f q p n) := by
  suffices H : ∀ wd, wd = 0x48000200 + sm.toNat * 2147483648 + d.val * 2097152 + a.val * 131072 + f.toNat * 32 + q.val * 8 + p.toNat * 4 + n.toNat →
      wd < 2 ^ 32 ∧ decodeFields wd = .ok (.mxstq sm d a f q p n) from
    (H (encode (.mxstq sm d a f q p n)) rfl).imp_right decodeWord_of
  intro wd e
  obtain ⟨hw, f31, f25, f21, f17, f13, f9, f5, f3, f2, f1, f0⟩ :=
    fields_1_6_4_4_4_4_4_2_1_1_1 wd sm.toNat 36 d.val a.val 0 1 f.toNat q.val p.toNat 0 n.toNat
      sm.toNat_lt (by decide) d.isLt a.isLt (by decide) (by decide) f.isLt q.isLt p.toNat_lt (by decide) n.toNat_lt (by subst e; omega)
  refine ⟨hw, ?_⟩
  rw [decodeMxo_op f25]
  unfold decodeMxo
  rw [f9]
  refine (if_pos ⟨f1, f13⟩).trans ?_
  rw [bit_of f31, finOf_of f21, finOf_of f17, ofNat_of f5, finOf_of f3, bit_of f2, bit_of f0]

theorem RoundTrip.mxscale (sm : Bool) (d : Fin 16) (a : Fin 16) (q : Fin 4) (p : Bool) (n : Bool) : RoundTrip.Statement (.mxscale sm d a q p n) := by
  suffices H : ∀ wd, wd = 0x48000400 + sm.toNat * 2147483648 + d.val * 2097152 + a.val * 131072 + q.val * 8 + p.toNat * 4 + n.toNat →
      wd < 2 ^ 32 ∧ decodeFields wd = .ok (.mxscale sm d a q p n) from
    (H (encode (.mxscale sm d a q p n)) rfl).imp_right decodeWord_of
  intro wd e
  obtain ⟨hw, f31, f25, f21, f17, f13, f9, f5, f3, f2, f1, f0⟩ :=
    fields_1_6_4_4_4_4_4_2_1_1_1 wd sm.toNat 36 d.val a.val 0 2 0 q.val p.toNat 0 n.toNat
      sm.toNat_lt (by decide) d.isLt a.isLt (by decide) (by decide) (by decide) q.isLt p.toNat_lt (by decide) n.toNat_lt (by subst e; omega)
  refine ⟨hw, ?_⟩
  rw [decodeMxo_op f25]
  unfold decodeMxo
  rw [f9]
  refine (if_pos ⟨f1, f5, f13⟩).trans ?_
  rw [bit_of f31, finOf_of f21, finOf_of f17, finOf_of f3, bit_of f2, bit_of f0]

theorem RoundTrip.qset (sm : Bool) (d : Fin 4) (a : Fin 16) : RoundTrip.Statement (.qset sm d a) := by
  suffices H : ∀ wd, wd = 0x4a000000 + sm.toNat * 2147483648 + d.val * 2097152 + a.val * 131072 →
      wd < 2 ^ 32 ∧ decodeFields wd = .ok (.qset sm d a) from
    (H (encode (.qset sm d a)) rfl).imp_right decodeWord_of
  intro wd e
  obtain ⟨hw, f31, f25, f23, f21, f17, f13, f9, f0⟩ :=
    fields_1_6_2_2_4_4_4_9 wd sm.toNat 37 0 d.val a.val 0 0 0
      sm.toNat_lt (by decide) (by decide) d.isLt a.isLt (by decide) (by decide) (by decide) (by subst e; omega)
  refine ⟨hw, ?_⟩
  rw [decodeTq_op f25]
  unfold decodeTq
  rw [f9]
  refine (if_pos ⟨f0, f13, f23⟩).trans ?_
  rw [bit_of f31, finOf_of f21, finOf_of f17]

theorem RoundTrip.qclr (sm : Bool) (d : Fin 4) (a : Fin 16) : RoundTrip.Statement (.qclr sm d a) := by
  suffices H : ∀ wd, wd = 0x4a000200 + sm.toNat * 2147483648 + d.val * 2097152 + a.val * 131072 →
      wd < 2 ^ 32 ∧ decodeFields wd = .ok (.qclr sm d a) from
    (H (encode (.qclr sm d a)) rfl).imp_right decodeWord_of
  intro wd e
  obtain ⟨hw, f31, f25, f23, f21, f17, f13, f9, f0⟩ :=
    fields_1_6_2_2_4_4_4_9 wd sm.toNat 37 0 d.val a.val 0 1 0
      sm.toNat_lt (by decide) (by decide) d.isLt a.isLt (by decide) (by decide) (by decide) (by subst e; omega)
  refine ⟨hw, ?_⟩
  rw [decodeTq_op f25]
  unfold decodeTq
  rw [f9]
  refine (if_pos ⟨f0, f13, f23⟩).trans ?_
  rw [bit_of f31, finOf_of f21, finOf_of f17]

theorem RoundTrip.qld (sm : Bool) (d : Fin 4) (a : Fin 16) : RoundTrip.Statement (.qld sm d a) := by
  suffices H : ∀ wd, wd = 0x4a000400 + sm.toNat * 2147483648 + d.val * 2097152 + a.val * 131072 →
      wd < 2 ^ 32 ∧ decodeFields wd = .ok (.qld sm d a) from
    (H (encode (.qld sm d a)) rfl).imp_right decodeWord_of
  intro wd e
  obtain ⟨hw, f31, f25, f23, f21, f17, f13, f9, f0⟩ :=
    fields_1_6_2_2_4_4_4_9 wd sm.toNat 37 0 d.val a.val 0 2 0
      sm.toNat_lt (by decide) (by decide) d.isLt a.isLt (by decide) (by decide) (by decide) (by subst e; omega)
  refine ⟨hw, ?_⟩
  rw [decodeTq_op f25]
  unfold decodeTq
  rw [f9]
  refine (if_pos ⟨f0, f13, f23⟩).trans ?_
  rw [bit_of f31, finOf_of f21, finOf_of f17]

theorem RoundTrip.qst (sm : Bool) (d : Fin 4) (a : Fin 16) : RoundTrip.Statement (.qst sm d a) := by
  suffices H : ∀ wd, wd = 0x4a000600 + sm.toNat * 2147483648 + d.val * 2097152 + a.val * 131072 →
      wd < 2 ^ 32 ∧ decodeFields wd = .ok (.qst sm d a) from
    (H (encode (.qst sm d a)) rfl).imp_right decodeWord_of
  intro wd e
  obtain ⟨hw, f31, f25, f23, f21, f17, f13, f9, f0⟩ :=
    fields_1_6_2_2_4_4_4_9 wd sm.toNat 37 0 d.val a.val 0 3 0
      sm.toNat_lt (by decide) (by decide) d.isLt a.isLt (by decide) (by decide) (by decide) (by subst e; omega)
  refine ⟨hw, ?_⟩
  rw [decodeTq_op f25]
  unfold decodeTq
  rw [f9]
  refine (if_pos ⟨f0, f13, f23⟩).trans ?_
  rw [bit_of f31, finOf_of f21, finOf_of f17]

theorem RoundTrip.qtest (sm : Bool) (d : Fin 8) (a : Fin 4) (b : Fin 16) : RoundTrip.Statement (.qtest sm d a b) := by
  suffices H : ∀ wd, wd = 0x4a000800 + sm.toNat * 2147483648 + d.val * 2097152 + a.val * 131072 + b.val * 8192 →
      wd < 2 ^ 32 ∧ decodeFields wd = .ok (.qtest sm d a b) from
    (H (encode (.qtest sm d a b)) rfl).imp_right decodeWord_of
  intro wd e
  obtain ⟨hw, f31, f25, f24, f21, f19, f17, f13, f9, f0⟩ :=
    fields_1_6_1_3_2_2_4_4_9 wd sm.toNat 37 0 d.val 0 a.val b.val 4 0
      sm.toNat_lt (by decide) (by decide) d.isLt (by decide) a.isLt b.isLt (by decide) (by decide) (by subst e; omega)
  refine ⟨hw, ?_⟩
  rw [decodeTq_op f25]
  unfold decodeTq
  rw [f9]
  refine (if_pos ⟨f0, f19, f24⟩).trans ?_
  rw [bit_of f31, finOf_of f21, finOf_of f17, finOf_of f13]

theorem RoundTrip.pgld (sm : Bool) (d : Fin 16) (a : Fin 16) (b : Fin 16) (r : Bool) : RoundTrip.Statement (.pgld sm d a b r) := by
  suffices H : ∀ wd, wd = 0x4c000000 + sm.toNat * 2147483648 + d.val * 2097152 + a.val * 131072 + b.val * 8192 + r.toNat →
      wd < 2 ^ 32 ∧ decodeFields wd = .ok (.pgld sm d a b r) from
    (H (encode (.pgld sm d a b r)) rfl).imp_right decodeWord_of
  intro wd e
  obtain ⟨hw, f31, f25, f21, f17, f13, f9, f1, f0⟩ :=
    fields_1_6_4_4_4_4_8_1 wd sm.toNat 38 d.val a.val b.val 0 0 r.toNat
      sm.toNat_lt (by decide) d.isLt a.isLt b.isLt (by decide) (by decide) r.toNat_lt (by subst e; omega)
  refine ⟨hw, ?_⟩
  rw [decodePat_op f25]
  unfold decodePat
  rw [f9]
  refine (if_pos f1).trans ?_
  rw [bit_of f31, finOf_of f21, finOf_of f17, finOf_of f13, bit_of f0]

theorem RoundTrip.pgset (sm : Bool) (a : Fin 16) (b : Fin 16) : RoundTrip.Statement (.pgset sm a b) := by
  suffices H : ∀ wd, wd = 0x4c000200 + sm.toNat * 2147483648 + a.val * 131072 + b.val * 8192 →
      wd < 2 ^ 32 ∧ decodeFields wd = .ok (.pgset sm a b) from
    (H (encode (.pgset sm a b)) rfl).imp_right decodeWord_of
  intro wd e
  obtain ⟨hw, f31, f25, f21, f17, f13, f9, f0⟩ :=
    fields_1_6_4_4_4_4_9 wd sm.toNat 38 0 a.val b.val 1 0
      sm.toNat_lt (by decide) (by decide) a.isLt b.isLt (by decide) (by decide) (by subst e; omega)
  refine ⟨hw, ?_⟩
  rw [decodePat_op f25]
  unfold decodePat
  rw [f9]
  refine (if_pos ⟨f0, f21⟩).trans ?_
  rw [bit_of f31, finOf_of f17, finOf_of f13]

theorem RoundTrip.pgrun (sm : Bool) (d : Fin 16) (a : Fin 16) (b : Fin 16) : RoundTrip.Statement (.pgrun sm d a b) := by
  suffices H : ∀ wd, wd = 0x4c000400 + sm.toNat * 2147483648 + d.val * 2097152 + a.val * 131072 + b.val * 8192 →
      wd < 2 ^ 32 ∧ decodeFields wd = .ok (.pgrun sm d a b) from
    (H (encode (.pgrun sm d a b)) rfl).imp_right decodeWord_of
  intro wd e
  obtain ⟨hw, f31, f25, f21, f17, f13, f9, f0⟩ :=
    fields_1_6_4_4_4_4_9 wd sm.toNat 38 d.val a.val b.val 2 0
      sm.toNat_lt (by decide) d.isLt a.isLt b.isLt (by decide) (by decide) (by subst e; omega)
  refine ⟨hw, ?_⟩
  rw [decodePat_op f25]
  unfold decodePat
  rw [f9]
  refine (if_pos f0).trans ?_
  rw [bit_of f31, finOf_of f21, finOf_of f17, finOf_of f13]

theorem RoundTrip.pgrel (sm : Bool) : RoundTrip.Statement (.pgrel sm) := by
  suffices H : ∀ wd, wd = 0x4c000600 + sm.toNat * 2147483648 →
      wd < 2 ^ 32 ∧ decodeFields wd = .ok (.pgrel sm) from
    (H (encode (.pgrel sm)) rfl).imp_right decodeWord_of
  intro wd e
  obtain ⟨hw, f31, f25, f13, f9, f0⟩ :=
    fields_1_6_12_4_9 wd sm.toNat 38 0 3 0
      sm.toNat_lt (by decide) (by decide) (by decide) (by decide) (by subst e; omega)
  refine ⟨hw, ?_⟩
  rw [decodePat_op f25]
  unfold decodePat
  rw [f9]
  refine (if_pos ⟨f0, f13⟩).trans ?_
  rw [bit_of f31]

theorem RoundTrip.pginv (sm : Bool) (d : Fin 16) (a : Fin 16) : RoundTrip.Statement (.pginv sm d a) := by
  suffices H : ∀ wd, wd = 0x4c000800 + sm.toNat * 2147483648 + d.val * 2097152 + a.val * 131072 →
      wd < 2 ^ 32 ∧ decodeFields wd = .ok (.pginv sm d a) from
    (H (encode (.pginv sm d a)) rfl).imp_right decodeWord_of
  intro wd e
  obtain ⟨hw, f31, f25, f21, f17, f13, f9, f0⟩ :=
    fields_1_6_4_4_4_4_9 wd sm.toNat 38 d.val a.val 0 4 0
      sm.toNat_lt (by decide) d.isLt a.isLt (by decide) (by decide) (by decide) (by subst e; omega)
  refine ⟨hw, ?_⟩
  rw [decodePat_op f25]
  unfold decodePat
  rw [f9]
  refine (if_pos ⟨f0, f13⟩).trans ?_
  rw [bit_of f31, finOf_of f21, finOf_of f17]

theorem RoundTrip.send (sm : Bool) (d : Fin 16) (a : Fin 16) (b : Fin 16) (k : Bool) : RoundTrip.Statement (.send sm d a b k) := by
  suffices H : ∀ wd, wd = 0x4e000000 + sm.toNat * 2147483648 + d.val * 2097152 + a.val * 131072 + b.val * 8192 + k.toNat →
      wd < 2 ^ 32 ∧ decodeFields wd = .ok (.send sm d a b k) from
    (H (encode (.send sm d a b k)) rfl).imp_right decodeWord_of
  intro wd e
  obtain ⟨hw, f31, f25, f21, f17, f13, f9, f1, f0⟩ :=
    fields_1_6_4_4_4_4_8_1 wd sm.toNat 39 d.val a.val b.val 0 0 k.toNat
      sm.toNat_lt (by decide) d.isLt a.isLt b.isLt (by decide) (by decide) k.toNat_lt (by subst e; omega)
  refine ⟨hw, ?_⟩
  rw [decodeCpy_op f25]
  unfold decodeCpy
  rw [f9]
  refine (if_pos f1).trans ?_
  rw [bit_of f31, finOf_of f21, finOf_of f17, finOf_of f13, bit_of f0]

theorem RoundTrip.sendm (sm : Bool) (d : Fin 16) (a : Fin 16) (b : Fin 16) (k : Bool) : RoundTrip.Statement (.sendm sm d a b k) := by
  suffices H : ∀ wd, wd = 0x4e000200 + sm.toNat * 2147483648 + d.val * 2097152 + a.val * 131072 + b.val * 8192 + k.toNat →
      wd < 2 ^ 32 ∧ decodeFields wd = .ok (.sendm sm d a b k) from
    (H (encode (.sendm sm d a b k)) rfl).imp_right decodeWord_of
  intro wd e
  obtain ⟨hw, f31, f25, f21, f17, f13, f9, f1, f0⟩ :=
    fields_1_6_4_4_4_4_8_1 wd sm.toNat 39 d.val a.val b.val 1 0 k.toNat
      sm.toNat_lt (by decide) d.isLt a.isLt b.isLt (by decide) (by decide) k.toNat_lt (by subst e; omega)
  refine ⟨hw, ?_⟩
  rw [decodeCpy_op f25]
  unfold decodeCpy
  rw [f9]
  refine (if_pos f1).trans ?_
  rw [bit_of f31, finOf_of f21, finOf_of f17, finOf_of f13, bit_of f0]

theorem RoundTrip.fetch (sm : Bool) (d : Fin 16) (a : Fin 16) (b : Fin 16) : RoundTrip.Statement (.fetch sm d a b) := by
  suffices H : ∀ wd, wd = 0x4e000400 + sm.toNat * 2147483648 + d.val * 2097152 + a.val * 131072 + b.val * 8192 →
      wd < 2 ^ 32 ∧ decodeFields wd = .ok (.fetch sm d a b) from
    (H (encode (.fetch sm d a b)) rfl).imp_right decodeWord_of
  intro wd e
  obtain ⟨hw, f31, f25, f21, f17, f13, f9, f0⟩ :=
    fields_1_6_4_4_4_4_9 wd sm.toNat 39 d.val a.val b.val 2 0
      sm.toNat_lt (by decide) d.isLt a.isLt b.isLt (by decide) (by decide) (by subst e; omega)
  refine ⟨hw, ?_⟩
  rw [decodeCpy_op f25]
  unfold decodeCpy
  rw [f9]
  refine (if_pos f0).trans ?_
  rw [bit_of f31, finOf_of f21, finOf_of f17, finOf_of f13]

theorem RoundTrip.flush (sm : Bool) (d : Fin 16) (a : Fin 16) (b : Fin 16) (k : Bool) : RoundTrip.Statement (.flush sm d a b k) := by
  suffices H : ∀ wd, wd = 0x4e000600 + sm.toNat * 2147483648 + d.val * 2097152 + a.val * 131072 + b.val * 8192 + k.toNat →
      wd < 2 ^ 32 ∧ decodeFields wd = .ok (.flush sm d a b k) from
    (H (encode (.flush sm d a b k)) rfl).imp_right decodeWord_of
  intro wd e
  obtain ⟨hw, f31, f25, f21, f17, f13, f9, f1, f0⟩ :=
    fields_1_6_4_4_4_4_8_1 wd sm.toNat 39 d.val a.val b.val 3 0 k.toNat
      sm.toNat_lt (by decide) d.isLt a.isLt b.isLt (by decide) (by decide) k.toNat_lt (by subst e; omega)
  refine ⟨hw, ?_⟩
  rw [decodeCpy_op f25]
  unfold decodeCpy
  rw [f9]
  refine (if_pos f1).trans ?_
  rw [bit_of f31, finOf_of f21, finOf_of f17, finOf_of f13, bit_of f0]

theorem RoundTrip.sendg (sm : Bool) (d : Fin 16) (a : Fin 16) (b : Fin 16) (k : Bool) : RoundTrip.Statement (.sendg sm d a b k) := by
  suffices H : ∀ wd, wd = 0x4e000800 + sm.toNat * 2147483648 + d.val * 2097152 + a.val * 131072 + b.val * 8192 + k.toNat →
      wd < 2 ^ 32 ∧ decodeFields wd = .ok (.sendg sm d a b k) from
    (H (encode (.sendg sm d a b k)) rfl).imp_right decodeWord_of
  intro wd e
  obtain ⟨hw, f31, f25, f21, f17, f13, f9, f1, f0⟩ :=
    fields_1_6_4_4_4_4_8_1 wd sm.toNat 39 d.val a.val b.val 4 0 k.toNat
      sm.toNat_lt (by decide) d.isLt a.isLt b.isLt (by decide) (by decide) k.toNat_lt (by subst e; omega)
  refine ⟨hw, ?_⟩
  rw [decodeCpy_op f25]
  unfold decodeCpy
  rw [f9]
  refine (if_pos f1).trans ?_
  rw [bit_of f31, finOf_of f21, finOf_of f17, finOf_of f13, bit_of f0]

theorem RoundTrip.wmset (sm : Bool) (a : Fin 16) (b : Fin 16) : RoundTrip.Statement (.wmset sm a b) := by
  suffices H : ∀ wd, wd = 0x4e000a00 + sm.toNat * 2147483648 + a.val * 131072 + b.val * 8192 →
      wd < 2 ^ 32 ∧ decodeFields wd = .ok (.wmset sm a b) from
    (H (encode (.wmset sm a b)) rfl).imp_right decodeWord_of
  intro wd e
  obtain ⟨hw, f31, f25, f21, f17, f13, f9, f0⟩ :=
    fields_1_6_4_4_4_4_9 wd sm.toNat 39 0 a.val b.val 5 0
      sm.toNat_lt (by decide) (by decide) a.isLt b.isLt (by decide) (by decide) (by subst e; omega)
  refine ⟨hw, ?_⟩
  rw [decodeCpy_op f25]
  unfold decodeCpy
  rw [f9]
  refine (if_pos ⟨f0, f21⟩).trans ?_
  rw [bit_of f31, finOf_of f17, finOf_of f13]

theorem RoundTrip.wmget (sm : Bool) (d : Fin 16) (a : Fin 16) : RoundTrip.Statement (.wmget sm d a) := by
  suffices H : ∀ wd, wd = 0x4e000c00 + sm.toNat * 2147483648 + d.val * 2097152 + a.val * 131072 →
      wd < 2 ^ 32 ∧ decodeFields wd = .ok (.wmget sm d a) from
    (H (encode (.wmget sm d a)) rfl).imp_right decodeWord_of
  intro wd e
  obtain ⟨hw, f31, f25, f21, f17, f13, f9, f0⟩ :=
    fields_1_6_4_4_4_4_9 wd sm.toNat 39 d.val a.val 0 6 0
      sm.toNat_lt (by decide) d.isLt a.isLt (by decide) (by decide) (by decide) (by subst e; omega)
  refine ⟨hw, ?_⟩
  rw [decodeCpy_op f25]
  unfold decodeCpy
  rw [f9]
  refine (if_pos ⟨f0, f13⟩).trans ?_
  rw [bit_of f31, finOf_of f21, finOf_of f17]

theorem RoundTrip.xgat (sm : Bool) (d : Fin 16) (a : Fin 16) (b : Fin 16) (w : Bool) (z : BitVec 7) : RoundTrip.Statement (.xgat sm d a b w z) := by
  suffices H : ∀ wd, wd = 0x50000000 + sm.toNat * 2147483648 + d.val * 2097152 + a.val * 131072 + b.val * 8192 + w.toNat * 256 + z.toNat →
      wd < 2 ^ 32 ∧ decodeFields wd = .ok (.xgat sm d a b w z) from
    (H (encode (.xgat sm d a b w z)) rfl).imp_right decodeWord_of
  intro wd e
  obtain ⟨hw, f31, f25, f21, f17, f13, f9, f8, f7, f0⟩ :=
    fields_1_6_4_4_4_4_1_1_7 wd sm.toNat 40 d.val a.val b.val 0 w.toNat 0 z.toNat
      sm.toNat_lt (by decide) d.isLt a.isLt b.isLt (by decide) w.toNat_lt (by decide) z.isLt (by subst e; omega)
  refine ⟨hw, ?_⟩
  rw [decodeXg_op f25]
  unfold decodeXg
  rw [f9]
  refine (if_pos f7).trans ?_
  rw [bit_of f31, finOf_of f21, finOf_of f17, finOf_of f13, bit_of f8, ofNat_of f0]

theorem RoundTrip.xsct (sm : Bool) (d : Fin 16) (a : Fin 16) (b : Fin 16) (w : Bool) (z : BitVec 7) : RoundTrip.Statement (.xsct sm d a b w z) := by
  suffices H : ∀ wd, wd = 0x50000200 + sm.toNat * 2147483648 + d.val * 2097152 + a.val * 131072 + b.val * 8192 + w.toNat * 256 + z.toNat →
      wd < 2 ^ 32 ∧ decodeFields wd = .ok (.xsct sm d a b w z) from
    (H (encode (.xsct sm d a b w z)) rfl).imp_right decodeWord_of
  intro wd e
  obtain ⟨hw, f31, f25, f21, f17, f13, f9, f8, f7, f0⟩ :=
    fields_1_6_4_4_4_4_1_1_7 wd sm.toNat 40 d.val a.val b.val 1 w.toNat 0 z.toNat
      sm.toNat_lt (by decide) d.isLt a.isLt b.isLt (by decide) w.toNat_lt (by decide) z.isLt (by subst e; omega)
  refine ⟨hw, ?_⟩
  rw [decodeXg_op f25]
  unfold decodeXg
  rw [f9]
  refine (if_pos f7).trans ?_
  rw [bit_of f31, finOf_of f21, finOf_of f17, finOf_of f13, bit_of f8, ofNat_of f0]

theorem RoundTrip.xsctadd (sm : Bool) (d : Fin 16) (a : Fin 16) (b : Fin 16) (w : Bool) (f : Bool) (z : BitVec 7) : RoundTrip.Statement (.xsctadd sm d a b w f z) := by
  suffices H : ∀ wd, wd = 0x50000400 + sm.toNat * 2147483648 + d.val * 2097152 + a.val * 131072 + b.val * 8192 + w.toNat * 256 + f.toNat * 128 + z.toNat →
      wd < 2 ^ 32 ∧ decodeFields wd = .ok (.xsctadd sm d a b w f z) from
    (H (encode (.xsctadd sm d a b w f z)) rfl).imp_right decodeWord_of
  intro wd e
  obtain ⟨hw, f31, f25, f21, f17, f13, f9, f8, f7, f0⟩ :=
    fields_1_6_4_4_4_4_1_1_7 wd sm.toNat 40 d.val a.val b.val 2 w.toNat f.toNat z.toNat
      sm.toNat_lt (by decide) d.isLt a.isLt b.isLt (by decide) w.toNat_lt f.toNat_lt z.isLt (by subst e; omega)
  refine ⟨hw, ?_⟩
  rw [decodeXg_op f25]
  unfold decodeXg
  rw [f9]
  rw [bit_of f31, finOf_of f21, finOf_of f17, finOf_of f13, bit_of f8, bit_of f7, ofNat_of f0]
  rfl

theorem RoundTrip.jwait (sm : Bool) (d : Fin 16) (a : Fin 16) : RoundTrip.Statement (.jwait sm d a) := by
  suffices H : ∀ wd, wd = 0x52000000 + sm.toNat * 2147483648 + d.val * 2097152 + a.val * 131072 →
      wd < 2 ^ 32 ∧ decodeFields wd = .ok (.jwait sm d a) from
    (H (encode (.jwait sm d a)) rfl).imp_right decodeWord_of
  intro wd e
  obtain ⟨hw, f31, f25, f21, f17, f13, f9, f0⟩ :=
    fields_1_6_4_4_4_4_9 wd sm.toNat 41 d.val a.val 0 0 0
      sm.toNat_lt (by decide) d.isLt a.isLt (by decide) (by decide) (by decide) (by subst e; omega)
  refine ⟨hw, ?_⟩
  rw [decodeJob_op f25]
  unfold decodeJob
  rw [f9]
  refine (if_pos ⟨f0, f13⟩).trans ?_
  rw [bit_of f31, finOf_of f21, finOf_of f17]

theorem RoundTrip.jpoll (sm : Bool) (d : Fin 16) (a : Fin 16) : RoundTrip.Statement (.jpoll sm d a) := by
  suffices H : ∀ wd, wd = 0x52000200 + sm.toNat * 2147483648 + d.val * 2097152 + a.val * 131072 →
      wd < 2 ^ 32 ∧ decodeFields wd = .ok (.jpoll sm d a) from
    (H (encode (.jpoll sm d a)) rfl).imp_right decodeWord_of
  intro wd e
  obtain ⟨hw, f31, f25, f21, f17, f13, f9, f0⟩ :=
    fields_1_6_4_4_4_4_9 wd sm.toNat 41 d.val a.val 0 1 0
      sm.toNat_lt (by decide) d.isLt a.isLt (by decide) (by decide) (by decide) (by subst e; omega)
  refine ⟨hw, ?_⟩
  rw [decodeJob_op f25]
  unfold decodeJob
  rw [f9]
  refine (if_pos ⟨f0, f13⟩).trans ?_
  rw [bit_of f31, finOf_of f21, finOf_of f17]

theorem RoundTrip.mfs (sm : Bool) (d : Fin 16) (n : BitVec 12) : RoundTrip.Statement (.mfs sm d n) := by
  suffices H : ∀ wd, wd = 0x54000000 + sm.toNat * 2147483648 + d.val * 2097152 + n.toNat →
      wd < 2 ^ 32 ∧ decodeFields wd = .ok (.mfs sm d n) from
    (H (encode (.mfs sm d n)) rfl).imp_right decodeWord_of
  intro wd e
  obtain ⟨hw, f31, f25, f21, f17, f12, f0⟩ :=
    fields_1_6_4_4_5_12 wd sm.toNat 42 d.val 0 0 n.toNat
      sm.toNat_lt (by decide) d.isLt (by decide) (by decide) n.isLt (by subst e; omega)
  refine ⟨hw, ?_⟩
  rw [decodeSpr_op f25]
  unfold decodeSpr
  rw [f12]
  refine (if_pos f17).trans ?_
  rw [bit_of f31, finOf_of f21, ofNat_of f0]

theorem RoundTrip.mts (sm : Bool) (a : Fin 16) (n : BitVec 12) : RoundTrip.Statement (.mts sm a n) := by
  suffices H : ∀ wd, wd = 0x54001000 + sm.toNat * 2147483648 + a.val * 131072 + n.toNat →
      wd < 2 ^ 32 ∧ decodeFields wd = .ok (.mts sm a n) from
    (H (encode (.mts sm a n)) rfl).imp_right decodeWord_of
  intro wd e
  obtain ⟨hw, f31, f25, f21, f17, f12, f0⟩ :=
    fields_1_6_4_4_5_12 wd sm.toNat 42 0 a.val 1 n.toNat
      sm.toNat_lt (by decide) (by decide) a.isLt (by decide) n.isLt (by subst e; omega)
  refine ⟨hw, ?_⟩
  rw [decodeSpr_op f25]
  unfold decodeSpr
  rw [f12]
  refine (if_pos f21).trans ?_
  rw [bit_of f31, finOf_of f17, ofNat_of f0]

theorem RoundTrip.trap (sm : Bool) (n : BitVec 7) : RoundTrip.Statement (.trap sm n) := by
  suffices H : ∀ wd, wd = 0x56000000 + sm.toNat * 2147483648 + n.toNat →
      wd < 2 ^ 32 ∧ decodeFields wd = .ok (.trap sm n) from
    (H (encode (.trap sm n)) rfl).imp_right decodeWord_of
  intro wd e
  obtain ⟨hw, f31, f25, f13, f7, f0⟩ :=
    fields_1_6_12_6_7 wd sm.toNat 43 0 0 n.toNat
      sm.toNat_lt (by decide) (by decide) (by decide) n.isLt (by subst e; omega)
  refine ⟨hw, ?_⟩
  rw [decodeSys_op f25]
  unfold decodeSys
  rw [f7]
  refine (if_pos f13).trans ?_
  rw [bit_of f31, ofNat_of f0]

theorem RoundTrip.eret (sm : Bool) : RoundTrip.Statement (.eret sm) := by
  suffices H : ∀ wd, wd = 0x56000080 + sm.toNat * 2147483648 →
      wd < 2 ^ 32 ∧ decodeFields wd = .ok (.eret sm) from
    (H (encode (.eret sm)) rfl).imp_right decodeWord_of
  intro wd e
  obtain ⟨hw, f31, f25, f13, f7, f0⟩ :=
    fields_1_6_12_6_7 wd sm.toNat 43 0 1 0
      sm.toNat_lt (by decide) (by decide) (by decide) (by decide) (by subst e; omega)
  refine ⟨hw, ?_⟩
  rw [decodeSys_op f25]
  unfold decodeSys
  rw [f7]
  refine (if_pos ⟨f0, f13⟩).trans ?_
  rw [bit_of f31]

theorem RoundTrip.wfi (sm : Bool) : RoundTrip.Statement (.wfi sm) := by
  suffices H : ∀ wd, wd = 0x56000100 + sm.toNat * 2147483648 →
      wd < 2 ^ 32 ∧ decodeFields wd = .ok (.wfi sm) from
    (H (encode (.wfi sm)) rfl).imp_right decodeWord_of
  intro wd e
  obtain ⟨hw, f31, f25, f13, f7, f0⟩ :=
    fields_1_6_12_6_7 wd sm.toNat 43 0 2 0
      sm.toNat_lt (by decide) (by decide) (by decide) (by decide) (by subst e; omega)
  refine ⟨hw, ?_⟩
  rw [decodeSys_op f25]
  unfold decodeSys
  rw [f7]
  refine (if_pos ⟨f0, f13⟩).trans ?_
  rw [bit_of f31]

theorem RoundTrip.brk (sm : Bool) (n : BitVec 7) : RoundTrip.Statement (.brk sm n) := by
  suffices H : ∀ wd, wd = 0x56000180 + sm.toNat * 2147483648 + n.toNat →
      wd < 2 ^ 32 ∧ decodeFields wd = .ok (.brk sm n) from
    (H (encode (.brk sm n)) rfl).imp_right decodeWord_of
  intro wd e
  obtain ⟨hw, f31, f25, f13, f7, f0⟩ :=
    fields_1_6_12_6_7 wd sm.toNat 43 0 3 n.toNat
      sm.toNat_lt (by decide) (by decide) (by decide) n.isLt (by subst e; omega)
  refine ⟨hw, ?_⟩
  rw [decodeSys_op f25]
  unfold decodeSys
  rw [f7]
  refine (if_pos f13).trans ?_
  rw [bit_of f31, ofNat_of f0]

theorem RoundTrip.tlbi (sm : Bool) (a : Fin 16) (b : Fin 16) : RoundTrip.Statement (.tlbi sm a b) := by
  suffices H : ∀ wd, wd = 0x56000200 + sm.toNat * 2147483648 + a.val * 131072 + b.val * 8192 →
      wd < 2 ^ 32 ∧ decodeFields wd = .ok (.tlbi sm a b) from
    (H (encode (.tlbi sm a b)) rfl).imp_right decodeWord_of
  intro wd e
  obtain ⟨hw, f31, f25, f21, f17, f13, f7, f0⟩ :=
    fields_1_6_4_4_4_6_7 wd sm.toNat 43 0 a.val b.val 4 0
      sm.toNat_lt (by decide) (by decide) a.isLt b.isLt (by decide) (by decide) (by subst e; omega)
  refine ⟨hw, ?_⟩
  rw [decodeSys_op f25]
  unfold decodeSys
  rw [f7]
  refine (if_pos ⟨f0, f21⟩).trans ?_
  rw [bit_of f31, finOf_of f17, finOf_of f13]

theorem RoundTrip.tlbiAll (sm : Bool) (a : Fin 16) : RoundTrip.Statement (.tlbiAll sm a) := by
  suffices H : ∀ wd, wd = 0x56000201 + sm.toNat * 2147483648 + a.val * 131072 →
      wd < 2 ^ 32 ∧ decodeFields wd = .ok (.tlbiAll sm a) from
    (H (encode (.tlbiAll sm a)) rfl).imp_right decodeWord_of
  intro wd e
  obtain ⟨hw, f31, f25, f21, f17, f13, f7, f0⟩ :=
    fields_1_6_4_4_4_6_7 wd sm.toNat 43 0 a.val 0 4 1
      sm.toNat_lt (by decide) (by decide) a.isLt (by decide) (by decide) (by decide) (by subst e; omega)
  refine ⟨hw, ?_⟩
  rw [decodeSys_op f25]
  unfold decodeSys
  rw [f7]
  have hn : ¬ (fld wd 0 7 = 0 ∧ fld wd 21 4 = 0) := fun h => absurd (f0.symm.trans h.1) (by decide)
  refine (if_neg hn).trans ?_
  refine (if_pos ⟨f0, f13, f21⟩).trans ?_
  rw [bit_of f31, finOf_of f17]

theorem RoundTrip.tlbsync (sm : Bool) : RoundTrip.Statement (.tlbsync sm) := by
  suffices H : ∀ wd, wd = 0x56000280 + sm.toNat * 2147483648 →
      wd < 2 ^ 32 ∧ decodeFields wd = .ok (.tlbsync sm) from
    (H (encode (.tlbsync sm)) rfl).imp_right decodeWord_of
  intro wd e
  obtain ⟨hw, f31, f25, f13, f7, f0⟩ :=
    fields_1_6_12_6_7 wd sm.toNat 43 0 5 0
      sm.toNat_lt (by decide) (by decide) (by decide) (by decide) (by subst e; omega)
  refine ⟨hw, ?_⟩
  rw [decodeSys_op f25]
  unfold decodeSys
  rw [f7]
  refine (if_pos ⟨f0, f13⟩).trans ?_
  rw [bit_of f31]

theorem RoundTrip.seal (sm : Bool) (d : Fin 16) (a : Fin 16) : RoundTrip.Statement (.seal sm d a) := by
  suffices H : ∀ wd, wd = 0x56000300 + sm.toNat * 2147483648 + d.val * 2097152 + a.val * 131072 →
      wd < 2 ^ 32 ∧ decodeFields wd = .ok (.seal sm d a) from
    (H (encode (.seal sm d a)) rfl).imp_right decodeWord_of
  intro wd e
  obtain ⟨hw, f31, f25, f21, f17, f13, f7, f0⟩ :=
    fields_1_6_4_4_4_6_7 wd sm.toNat 43 d.val a.val 0 6 0
      sm.toNat_lt (by decide) d.isLt a.isLt (by decide) (by decide) (by decide) (by subst e; omega)
  refine ⟨hw, ?_⟩
  rw [decodeSys_op f25]
  unfold decodeSys
  rw [f7]
  refine (if_pos ⟨f0, f13⟩).trans ?_
  rw [bit_of f31, finOf_of f21, finOf_of f17]

theorem RoundTrip.ipi (sm : Bool) (a : Fin 16) (b : Fin 16) : RoundTrip.Statement (.ipi sm a b) := by
  suffices H : ∀ wd, wd = 0x56000380 + sm.toNat * 2147483648 + a.val * 131072 + b.val * 8192 →
      wd < 2 ^ 32 ∧ decodeFields wd = .ok (.ipi sm a b) from
    (H (encode (.ipi sm a b)) rfl).imp_right decodeWord_of
  intro wd e
  obtain ⟨hw, f31, f25, f21, f17, f13, f7, f0⟩ :=
    fields_1_6_4_4_4_6_7 wd sm.toNat 43 0 a.val b.val 7 0
      sm.toNat_lt (by decide) (by decide) a.isLt b.isLt (by decide) (by decide) (by subst e; omega)
  refine ⟨hw, ?_⟩
  rw [decodeSys_op f25]
  unfold decodeSys
  rw [f7]
  refine (if_pos ⟨f0, f21⟩).trans ?_
  rw [bit_of f31, finOf_of f17, finOf_of f13]

theorem RoundTrip.lease (sm : Bool) (d : Fin 16) (a : Fin 16) : RoundTrip.Statement (.lease sm d a) := by
  suffices H : ∀ wd, wd = 0x58000000 + sm.toNat * 2147483648 + d.val * 2097152 + a.val * 131072 →
      wd < 2 ^ 32 ∧ decodeFields wd = .ok (.lease sm d a) from
    (H (encode (.lease sm d a)) rfl).imp_right decodeWord_of
  intro wd e
  obtain ⟨hw, f31, f25, f21, f17, f13, f9, f0⟩ :=
    fields_1_6_4_4_4_4_9 wd sm.toNat 44 d.val a.val 0 0 0
      sm.toNat_lt (by decide) d.isLt a.isLt (by decide) (by decide) (by decide) (by subst e; omega)
  refine ⟨hw, ?_⟩
  rw [decodeLse_op f25]
  unfold decodeLse
  rw [f9]
  refine (if_pos ⟨f0, f13⟩).trans ?_
  rw [bit_of f31, finOf_of f21, finOf_of f17]

theorem RoundTrip.unlease (sm : Bool) (d : Fin 16) (a : Fin 16) : RoundTrip.Statement (.unlease sm d a) := by
  suffices H : ∀ wd, wd = 0x58000200 + sm.toNat * 2147483648 + d.val * 2097152 + a.val * 131072 →
      wd < 2 ^ 32 ∧ decodeFields wd = .ok (.unlease sm d a) from
    (H (encode (.unlease sm d a)) rfl).imp_right decodeWord_of
  intro wd e
  obtain ⟨hw, f31, f25, f21, f17, f13, f9, f0⟩ :=
    fields_1_6_4_4_4_4_9 wd sm.toNat 44 d.val a.val 0 1 0
      sm.toNat_lt (by decide) d.isLt a.isLt (by decide) (by decide) (by decide) (by subst e; omega)
  refine ⟨hw, ?_⟩
  rw [decodeLse_op f25]
  unfold decodeLse
  rw [f9]
  refine (if_pos ⟨f0, f13⟩).trans ?_
  rw [bit_of f31, finOf_of f21, finOf_of f17]

theorem RoundTrip.pf (sm : Bool) (a : Fin 16) : RoundTrip.Statement (.pf sm a) := by
  suffices H : ∀ wd, wd = 0x58000400 + sm.toNat * 2147483648 + a.val * 131072 →
      wd < 2 ^ 32 ∧ decodeFields wd = .ok (.pf sm a) from
    (H (encode (.pf sm a)) rfl).imp_right decodeWord_of
  intro wd e
  obtain ⟨hw, f31, f25, f21, f17, f13, f9, f0⟩ :=
    fields_1_6_4_4_4_4_9 wd sm.toNat 44 0 a.val 0 2 0
      sm.toNat_lt (by decide) (by decide) a.isLt (by decide) (by decide) (by decide) (by subst e; omega)
  refine ⟨hw, ?_⟩
  rw [decodeLse_op f25]
  unfold decodeLse
  rw [f9]
  refine (if_pos ⟨f0, f13, f21⟩).trans ?_
  rw [bit_of f31, finOf_of f17]

theorem RoundTrip.llcwb (sm : Bool) (d : Fin 16) (a : Fin 16) : RoundTrip.Statement (.llcwb sm d a) := by
  suffices H : ∀ wd, wd = 0x58000600 + sm.toNat * 2147483648 + d.val * 2097152 + a.val * 131072 →
      wd < 2 ^ 32 ∧ decodeFields wd = .ok (.llcwb sm d a) from
    (H (encode (.llcwb sm d a)) rfl).imp_right decodeWord_of
  intro wd e
  obtain ⟨hw, f31, f25, f21, f17, f13, f9, f0⟩ :=
    fields_1_6_4_4_4_4_9 wd sm.toNat 44 d.val a.val 0 3 0
      sm.toNat_lt (by decide) d.isLt a.isLt (by decide) (by decide) (by decide) (by subst e; omega)
  refine ⟨hw, ?_⟩
  rw [decodeLse_op f25]
  unfold decodeLse
  rw [f9]
  refine (if_pos ⟨f0, f13⟩).trans ?_
  rw [bit_of f31, finOf_of f21, finOf_of f17]

theorem RoundTrip.pmig (sm : Bool) (d : Fin 16) (a : Fin 16) (x : Bool) : RoundTrip.Statement (.pmig sm d a x) := by
  suffices H : ∀ wd, wd = 0x58000800 + sm.toNat * 2147483648 + d.val * 2097152 + a.val * 131072 + x.toNat →
      wd < 2 ^ 32 ∧ decodeFields wd = .ok (.pmig sm d a x) from
    (H (encode (.pmig sm d a x)) rfl).imp_right decodeWord_of
  intro wd e
  obtain ⟨hw, f31, f25, f21, f17, f13, f9, f1, f0⟩ :=
    fields_1_6_4_4_4_4_8_1 wd sm.toNat 44 d.val a.val 0 4 0 x.toNat
      sm.toNat_lt (by decide) d.isLt a.isLt (by decide) (by decide) (by decide) x.toNat_lt (by subst e; omega)
  refine ⟨hw, ?_⟩
  rw [decodeLse_op f25]
  unfold decodeLse
  rw [f9]
  refine (if_pos ⟨f1, f13⟩).trans ?_
  rw [bit_of f31, finOf_of f21, finOf_of f17, bit_of f0]

theorem RoundTrip.nsend (sm : Bool) (d : Fin 16) (a : Fin 16) : RoundTrip.Statement (.nsend sm d a) := by
  suffices H : ∀ wd, wd = 0x5a000000 + sm.toNat * 2147483648 + d.val * 2097152 + a.val * 131072 →
      wd < 2 ^ 32 ∧ decodeFields wd = .ok (.nsend sm d a) from
    (H (encode (.nsend sm d a)) rfl).imp_right decodeWord_of
  intro wd e
  obtain ⟨hw, f31, f25, f21, f17, f13, f9, f0⟩ :=
    fields_1_6_4_4_4_4_9 wd sm.toNat 45 d.val a.val 0 0 0
      sm.toNat_lt (by decide) d.isLt a.isLt (by decide) (by decide) (by decide) (by subst e; omega)
  refine ⟨hw, ?_⟩
  rw [decodeNet_op f25]
  unfold decodeNet
  rw [f9]
  refine (if_pos ⟨f0, f13⟩).trans ?_
  rw [bit_of f31, finOf_of f21, finOf_of f17]

theorem RoundTrip.npoll (sm : Bool) (d : Fin 16) (a : Fin 16) : RoundTrip.Statement (.npoll sm d a) := by
  suffices H : ∀ wd, wd = 0x5a000200 + sm.toNat * 2147483648 + d.val * 2097152 + a.val * 131072 →
      wd < 2 ^ 32 ∧ decodeFields wd = .ok (.npoll sm d a) from
    (H (encode (.npoll sm d a)) rfl).imp_right decodeWord_of
  intro wd e
  obtain ⟨hw, f31, f25, f21, f17, f13, f9, f0⟩ :=
    fields_1_6_4_4_4_4_9 wd sm.toNat 45 d.val a.val 0 1 0
      sm.toNat_lt (by decide) d.isLt a.isLt (by decide) (by decide) (by decide) (by subst e; omega)
  refine ⟨hw, ?_⟩
  rw [decodeNet_op f25]
  unfold decodeNet
  rw [f9]
  refine (if_pos ⟨f0, f13⟩).trans ?_
  rw [bit_of f31, finOf_of f21, finOf_of f17]

theorem RoundTrip.dadd (sm : Bool) (d : Fin 16) (a : Fin 16) (b : Fin 16) : RoundTrip.Statement (.dadd sm d a b) := by
  suffices H : ∀ wd, wd = 0x5c000000 + sm.toNat * 2147483648 + d.val * 2097152 + a.val * 131072 + b.val * 8192 →
      wd < 2 ^ 32 ∧ decodeFields wd = .ok (.dadd sm d a b) from
    (H (encode (.dadd sm d a b)) rfl).imp_right decodeWord_of
  intro wd e
  obtain ⟨hw, f31, f25, f21, f17, f13, f7, f0⟩ :=
    fields_1_6_4_4_4_6_7 wd sm.toNat 46 d.val a.val b.val 0 0
      sm.toNat_lt (by decide) d.isLt a.isLt b.isLt (by decide) (by decide) (by subst e; omega)
  refine ⟨hw, ?_⟩
  rw [decodeFpd_op f25]
  unfold decodeFpd
  rw [f7]
  refine (if_pos f0).trans ?_
  rw [bit_of f31, finOf_of f21, finOf_of f17, finOf_of f13]

theorem RoundTrip.dsub (sm : Bool) (d : Fin 16) (a : Fin 16) (b : Fin 16) : RoundTrip.Statement (.dsub sm d a b) := by
  suffices H : ∀ wd, wd = 0x5c000080 + sm.toNat * 2147483648 + d.val * 2097152 + a.val * 131072 + b.val * 8192 →
      wd < 2 ^ 32 ∧ decodeFields wd = .ok (.dsub sm d a b) from
    (H (encode (.dsub sm d a b)) rfl).imp_right decodeWord_of
  intro wd e
  obtain ⟨hw, f31, f25, f21, f17, f13, f7, f0⟩ :=
    fields_1_6_4_4_4_6_7 wd sm.toNat 46 d.val a.val b.val 1 0
      sm.toNat_lt (by decide) d.isLt a.isLt b.isLt (by decide) (by decide) (by subst e; omega)
  refine ⟨hw, ?_⟩
  rw [decodeFpd_op f25]
  unfold decodeFpd
  rw [f7]
  refine (if_pos f0).trans ?_
  rw [bit_of f31, finOf_of f21, finOf_of f17, finOf_of f13]

theorem RoundTrip.dmul (sm : Bool) (d : Fin 16) (a : Fin 16) (b : Fin 16) : RoundTrip.Statement (.dmul sm d a b) := by
  suffices H : ∀ wd, wd = 0x5c000100 + sm.toNat * 2147483648 + d.val * 2097152 + a.val * 131072 + b.val * 8192 →
      wd < 2 ^ 32 ∧ decodeFields wd = .ok (.dmul sm d a b) from
    (H (encode (.dmul sm d a b)) rfl).imp_right decodeWord_of
  intro wd e
  obtain ⟨hw, f31, f25, f21, f17, f13, f7, f0⟩ :=
    fields_1_6_4_4_4_6_7 wd sm.toNat 46 d.val a.val b.val 2 0
      sm.toNat_lt (by decide) d.isLt a.isLt b.isLt (by decide) (by decide) (by subst e; omega)
  refine ⟨hw, ?_⟩
  rw [decodeFpd_op f25]
  unfold decodeFpd
  rw [f7]
  refine (if_pos f0).trans ?_
  rw [bit_of f31, finOf_of f21, finOf_of f17, finOf_of f13]

theorem RoundTrip.ddiv (sm : Bool) (d : Fin 16) (a : Fin 16) (b : Fin 16) : RoundTrip.Statement (.ddiv sm d a b) := by
  suffices H : ∀ wd, wd = 0x5c000180 + sm.toNat * 2147483648 + d.val * 2097152 + a.val * 131072 + b.val * 8192 →
      wd < 2 ^ 32 ∧ decodeFields wd = .ok (.ddiv sm d a b) from
    (H (encode (.ddiv sm d a b)) rfl).imp_right decodeWord_of
  intro wd e
  obtain ⟨hw, f31, f25, f21, f17, f13, f7, f0⟩ :=
    fields_1_6_4_4_4_6_7 wd sm.toNat 46 d.val a.val b.val 3 0
      sm.toNat_lt (by decide) d.isLt a.isLt b.isLt (by decide) (by decide) (by subst e; omega)
  refine ⟨hw, ?_⟩
  rw [decodeFpd_op f25]
  unfold decodeFpd
  rw [f7]
  refine (if_pos f0).trans ?_
  rw [bit_of f31, finOf_of f21, finOf_of f17, finOf_of f13]

theorem RoundTrip.dfma (sm : Bool) (d : Fin 16) (a : Fin 16) (b : Fin 16) : RoundTrip.Statement (.dfma sm d a b) := by
  suffices H : ∀ wd, wd = 0x5c000200 + sm.toNat * 2147483648 + d.val * 2097152 + a.val * 131072 + b.val * 8192 →
      wd < 2 ^ 32 ∧ decodeFields wd = .ok (.dfma sm d a b) from
    (H (encode (.dfma sm d a b)) rfl).imp_right decodeWord_of
  intro wd e
  obtain ⟨hw, f31, f25, f21, f17, f13, f7, f0⟩ :=
    fields_1_6_4_4_4_6_7 wd sm.toNat 46 d.val a.val b.val 4 0
      sm.toNat_lt (by decide) d.isLt a.isLt b.isLt (by decide) (by decide) (by subst e; omega)
  refine ⟨hw, ?_⟩
  rw [decodeFpd_op f25]
  unfold decodeFpd
  rw [f7]
  refine (if_pos f0).trans ?_
  rw [bit_of f31, finOf_of f21, finOf_of f17, finOf_of f13]

theorem RoundTrip.dsqrt (sm : Bool) (d : Fin 16) (a : Fin 16) : RoundTrip.Statement (.dsqrt sm d a) := by
  suffices H : ∀ wd, wd = 0x5c000280 + sm.toNat * 2147483648 + d.val * 2097152 + a.val * 131072 →
      wd < 2 ^ 32 ∧ decodeFields wd = .ok (.dsqrt sm d a) from
    (H (encode (.dsqrt sm d a)) rfl).imp_right decodeWord_of
  intro wd e
  obtain ⟨hw, f31, f25, f21, f17, f13, f7, f0⟩ :=
    fields_1_6_4_4_4_6_7 wd sm.toNat 46 d.val a.val 0 5 0
      sm.toNat_lt (by decide) d.isLt a.isLt (by decide) (by decide) (by decide) (by subst e; omega)
  refine ⟨hw, ?_⟩
  rw [decodeFpd_op f25]
  unfold decodeFpd
  rw [f7]
  refine (if_pos ⟨f0, f13⟩).trans ?_
  rw [bit_of f31, finOf_of f21, finOf_of f17]

theorem RoundTrip.dcmp (sm : Bool) (d : Fin 8) (a : Fin 16) (b : Fin 16) (c : Cond) : RoundTrip.Statement (.dcmp sm d a b c) := by
  suffices H : ∀ wd, wd = 0x5c000300 + sm.toNat * 2147483648 + d.val * 2097152 + a.val * 131072 + b.val * 8192 + condCode c →
      wd < 2 ^ 32 ∧ decodeFields wd = .ok (.dcmp sm d a b c) from
    (H (encode (.dcmp sm d a b c)) rfl).imp_right decodeWord_of
  intro wd e
  obtain ⟨hw, f31, f25, f24, f21, f17, f13, f7, f3, f0⟩ :=
    fields_1_6_1_3_4_4_6_4_3 wd sm.toNat 46 0 d.val a.val b.val 6 0 (condCode c)
      sm.toNat_lt (by decide) (by decide) d.isLt a.isLt b.isLt (by decide) (by decide) (condCode_lt c) (by subst e; omega)
  refine ⟨hw, ?_⟩
  rw [decodeFpd_op f25]
  unfold decodeFpd
  rw [f7]
  refine (if_pos ⟨f3, f24⟩).trans ?_
  rw [bit_of f31, finOf_of f21, finOf_of f17, finOf_of f13, condOf_of f0]

theorem RoundTrip.dcvt (sm : Bool) (d : Fin 16) (a : Fin 16) (k : DcvtKind) : RoundTrip.Statement (.dcvt sm d a k) := by
  suffices H : ∀ wd, wd = 0x5c000380 + sm.toNat * 2147483648 + d.val * 2097152 + a.val * 131072 + dcvtCode k →
      wd < 2 ^ 32 ∧ decodeFields wd = .ok (.dcvt sm d a k) from
    (H (encode (.dcvt sm d a k)) rfl).imp_right decodeWord_of
  intro wd e
  obtain ⟨hw, f31, f25, f21, f17, f13, f7, f3, f0⟩ :=
    fields_1_6_4_4_4_6_4_3 wd sm.toNat 46 d.val a.val 0 7 0 (dcvtCode k)
      sm.toNat_lt (by decide) d.isLt a.isLt (by decide) (by decide) (by decide) (dcvtCode_lt k) (by subst e; omega)
  refine ⟨hw, ?_⟩
  rw [decodeFpd_op f25]
  unfold decodeFpd
  rw [f7]
  refine (if_pos ⟨f3, f13⟩).trans ?_
  rw [bit_of f31, finOf_of f21, finOf_of f17, dcvtOf_of f0]

theorem RoundTrip.vdfma (sm : Bool) (d : Fin 16) (a : Fin 16) (b : Fin 16) (m : Fin 8) : RoundTrip.Statement (.vdfma sm d a b m) := by
  suffices H : ∀ wd, wd = 0x5c000400 + sm.toNat * 2147483648 + d.val * 2097152 + a.val * 131072 + b.val * 8192 + m.val →
      wd < 2 ^ 32 ∧ decodeFields wd = .ok (.vdfma sm d a b m) from
    (H (encode (.vdfma sm d a b m)) rfl).imp_right decodeWord_of
  intro wd e
  obtain ⟨hw, f31, f25, f21, f17, f13, f7, f3, f0⟩ :=
    fields_1_6_4_4_4_6_4_3 wd sm.toNat 46 d.val a.val b.val 8 0 m.val
      sm.toNat_lt (by decide) d.isLt a.isLt b.isLt (by decide) (by decide) m.isLt (by subst e; omega)
  refine ⟨hw, ?_⟩
  rw [decodeFpd_op f25]
  unfold decodeFpd
  rw [f7]
  refine (if_pos f3).trans ?_
  rw [bit_of f31, finOf_of f21, finOf_of f17, finOf_of f13, finOf_of f0]

theorem RoundTrip.fadd (sm : Bool) (d : Fin 16) (a : Fin 16) (b : Fin 16) : RoundTrip.Statement (.fadd sm d a b) := by
  suffices H : ∀ wd, wd = 0x5e000000 + sm.toNat * 2147483648 + d.val * 2097152 + a.val * 131072 + b.val * 8192 →
      wd < 2 ^ 32 ∧ decodeFields wd = .ok (.fadd sm d a b) from
    (H (encode (.fadd sm d a b)) rfl).imp_right decodeWord_of
  intro wd e
  obtain ⟨hw, f31, f25, f21, f17, f13, f7, f0⟩ :=
    fields_1_6_4_4_4_6_7 wd sm.toNat 47 d.val a.val b.val 0 0
      sm.toNat_lt (by decide) d.isLt a.isLt b.isLt (by decide) (by decide) (by subst e; omega)
  refine ⟨hw, ?_⟩
  rw [decodeFp_op f25]
  unfold decodeFp
  rw [f7]
  refine (if_pos f0).trans ?_
  rw [bit_of f31, finOf_of f21, finOf_of f17, finOf_of f13]

theorem RoundTrip.fsub (sm : Bool) (d : Fin 16) (a : Fin 16) (b : Fin 16) : RoundTrip.Statement (.fsub sm d a b) := by
  suffices H : ∀ wd, wd = 0x5e000080 + sm.toNat * 2147483648 + d.val * 2097152 + a.val * 131072 + b.val * 8192 →
      wd < 2 ^ 32 ∧ decodeFields wd = .ok (.fsub sm d a b) from
    (H (encode (.fsub sm d a b)) rfl).imp_right decodeWord_of
  intro wd e
  obtain ⟨hw, f31, f25, f21, f17, f13, f7, f0⟩ :=
    fields_1_6_4_4_4_6_7 wd sm.toNat 47 d.val a.val b.val 1 0
      sm.toNat_lt (by decide) d.isLt a.isLt b.isLt (by decide) (by decide) (by subst e; omega)
  refine ⟨hw, ?_⟩
  rw [decodeFp_op f25]
  unfold decodeFp
  rw [f7]
  refine (if_pos f0).trans ?_
  rw [bit_of f31, finOf_of f21, finOf_of f17, finOf_of f13]

theorem RoundTrip.fmul (sm : Bool) (d : Fin 16) (a : Fin 16) (b : Fin 16) : RoundTrip.Statement (.fmul sm d a b) := by
  suffices H : ∀ wd, wd = 0x5e000100 + sm.toNat * 2147483648 + d.val * 2097152 + a.val * 131072 + b.val * 8192 →
      wd < 2 ^ 32 ∧ decodeFields wd = .ok (.fmul sm d a b) from
    (H (encode (.fmul sm d a b)) rfl).imp_right decodeWord_of
  intro wd e
  obtain ⟨hw, f31, f25, f21, f17, f13, f7, f0⟩ :=
    fields_1_6_4_4_4_6_7 wd sm.toNat 47 d.val a.val b.val 2 0
      sm.toNat_lt (by decide) d.isLt a.isLt b.isLt (by decide) (by decide) (by subst e; omega)
  refine ⟨hw, ?_⟩
  rw [decodeFp_op f25]
  unfold decodeFp
  rw [f7]
  refine (if_pos f0).trans ?_
  rw [bit_of f31, finOf_of f21, finOf_of f17, finOf_of f13]

theorem RoundTrip.fdiv (sm : Bool) (d : Fin 16) (a : Fin 16) (b : Fin 16) : RoundTrip.Statement (.fdiv sm d a b) := by
  suffices H : ∀ wd, wd = 0x5e000180 + sm.toNat * 2147483648 + d.val * 2097152 + a.val * 131072 + b.val * 8192 →
      wd < 2 ^ 32 ∧ decodeFields wd = .ok (.fdiv sm d a b) from
    (H (encode (.fdiv sm d a b)) rfl).imp_right decodeWord_of
  intro wd e
  obtain ⟨hw, f31, f25, f21, f17, f13, f7, f0⟩ :=
    fields_1_6_4_4_4_6_7 wd sm.toNat 47 d.val a.val b.val 3 0
      sm.toNat_lt (by decide) d.isLt a.isLt b.isLt (by decide) (by decide) (by subst e; omega)
  refine ⟨hw, ?_⟩
  rw [decodeFp_op f25]
  unfold decodeFp
  rw [f7]
  refine (if_pos f0).trans ?_
  rw [bit_of f31, finOf_of f21, finOf_of f17, finOf_of f13]

theorem RoundTrip.ffma (sm : Bool) (d : Fin 16) (a : Fin 16) (b : Fin 16) : RoundTrip.Statement (.ffma sm d a b) := by
  suffices H : ∀ wd, wd = 0x5e000200 + sm.toNat * 2147483648 + d.val * 2097152 + a.val * 131072 + b.val * 8192 →
      wd < 2 ^ 32 ∧ decodeFields wd = .ok (.ffma sm d a b) from
    (H (encode (.ffma sm d a b)) rfl).imp_right decodeWord_of
  intro wd e
  obtain ⟨hw, f31, f25, f21, f17, f13, f7, f0⟩ :=
    fields_1_6_4_4_4_6_7 wd sm.toNat 47 d.val a.val b.val 4 0
      sm.toNat_lt (by decide) d.isLt a.isLt b.isLt (by decide) (by decide) (by subst e; omega)
  refine ⟨hw, ?_⟩
  rw [decodeFp_op f25]
  unfold decodeFp
  rw [f7]
  refine (if_pos f0).trans ?_
  rw [bit_of f31, finOf_of f21, finOf_of f17, finOf_of f13]

theorem RoundTrip.fmin (sm : Bool) (d : Fin 16) (a : Fin 16) (b : Fin 16) : RoundTrip.Statement (.fmin sm d a b) := by
  suffices H : ∀ wd, wd = 0x5e000280 + sm.toNat * 2147483648 + d.val * 2097152 + a.val * 131072 + b.val * 8192 →
      wd < 2 ^ 32 ∧ decodeFields wd = .ok (.fmin sm d a b) from
    (H (encode (.fmin sm d a b)) rfl).imp_right decodeWord_of
  intro wd e
  obtain ⟨hw, f31, f25, f21, f17, f13, f7, f0⟩ :=
    fields_1_6_4_4_4_6_7 wd sm.toNat 47 d.val a.val b.val 5 0
      sm.toNat_lt (by decide) d.isLt a.isLt b.isLt (by decide) (by decide) (by subst e; omega)
  refine ⟨hw, ?_⟩
  rw [decodeFp_op f25]
  unfold decodeFp
  rw [f7]
  refine (if_pos f0).trans ?_
  rw [bit_of f31, finOf_of f21, finOf_of f17, finOf_of f13]

theorem RoundTrip.fmax (sm : Bool) (d : Fin 16) (a : Fin 16) (b : Fin 16) : RoundTrip.Statement (.fmax sm d a b) := by
  suffices H : ∀ wd, wd = 0x5e000300 + sm.toNat * 2147483648 + d.val * 2097152 + a.val * 131072 + b.val * 8192 →
      wd < 2 ^ 32 ∧ decodeFields wd = .ok (.fmax sm d a b) from
    (H (encode (.fmax sm d a b)) rfl).imp_right decodeWord_of
  intro wd e
  obtain ⟨hw, f31, f25, f21, f17, f13, f7, f0⟩ :=
    fields_1_6_4_4_4_6_7 wd sm.toNat 47 d.val a.val b.val 6 0
      sm.toNat_lt (by decide) d.isLt a.isLt b.isLt (by decide) (by decide) (by subst e; omega)
  refine ⟨hw, ?_⟩
  rw [decodeFp_op f25]
  unfold decodeFp
  rw [f7]
  refine (if_pos f0).trans ?_
  rw [bit_of f31, finOf_of f21, finOf_of f17, finOf_of f13]

theorem RoundTrip.fabs (sm : Bool) (d : Fin 16) (a : Fin 16) : RoundTrip.Statement (.fabs sm d a) := by
  suffices H : ∀ wd, wd = 0x5e000380 + sm.toNat * 2147483648 + d.val * 2097152 + a.val * 131072 →
      wd < 2 ^ 32 ∧ decodeFields wd = .ok (.fabs sm d a) from
    (H (encode (.fabs sm d a)) rfl).imp_right decodeWord_of
  intro wd e
  obtain ⟨hw, f31, f25, f21, f17, f13, f7, f0⟩ :=
    fields_1_6_4_4_4_6_7 wd sm.toNat 47 d.val a.val 0 7 0
      sm.toNat_lt (by decide) d.isLt a.isLt (by decide) (by decide) (by decide) (by subst e; omega)
  refine ⟨hw, ?_⟩
  rw [decodeFp_op f25]
  unfold decodeFp
  rw [f7]
  refine (if_pos ⟨f0, f13⟩).trans ?_
  rw [bit_of f31, finOf_of f21, finOf_of f17]

theorem RoundTrip.fneg (sm : Bool) (d : Fin 16) (a : Fin 16) : RoundTrip.Statement (.fneg sm d a) := by
  suffices H : ∀ wd, wd = 0x5e000400 + sm.toNat * 2147483648 + d.val * 2097152 + a.val * 131072 →
      wd < 2 ^ 32 ∧ decodeFields wd = .ok (.fneg sm d a) from
    (H (encode (.fneg sm d a)) rfl).imp_right decodeWord_of
  intro wd e
  obtain ⟨hw, f31, f25, f21, f17, f13, f7, f0⟩ :=
    fields_1_6_4_4_4_6_7 wd sm.toNat 47 d.val a.val 0 8 0
      sm.toNat_lt (by decide) d.isLt a.isLt (by decide) (by decide) (by decide) (by subst e; omega)
  refine ⟨hw, ?_⟩
  rw [decodeFp_op f25]
  unfold decodeFp
  rw [f7]
  refine (if_pos ⟨f0, f13⟩).trans ?_
  rw [bit_of f31, finOf_of f21, finOf_of f17]

theorem RoundTrip.fsqrt (sm : Bool) (d : Fin 16) (a : Fin 16) : RoundTrip.Statement (.fsqrt sm d a) := by
  suffices H : ∀ wd, wd = 0x5e000480 + sm.toNat * 2147483648 + d.val * 2097152 + a.val * 131072 →
      wd < 2 ^ 32 ∧ decodeFields wd = .ok (.fsqrt sm d a) from
    (H (encode (.fsqrt sm d a)) rfl).imp_right decodeWord_of
  intro wd e
  obtain ⟨hw, f31, f25, f21, f17, f13, f7, f0⟩ :=
    fields_1_6_4_4_4_6_7 wd sm.toNat 47 d.val a.val 0 9 0
      sm.toNat_lt (by decide) d.isLt a.isLt (by decide) (by decide) (by decide) (by subst e; omega)
  refine ⟨hw, ?_⟩
  rw [decodeFp_op f25]
  unfold decodeFp
  rw [f7]
  refine (if_pos ⟨f0, f13⟩).trans ?_
  rw [bit_of f31, finOf_of f21, finOf_of f17]

theorem RoundTrip.fcmp (sm : Bool) (d : Fin 8) (a : Fin 16) (b : Fin 16) (c : Cond) : RoundTrip.Statement (.fcmp sm d a b c) := by
  suffices H : ∀ wd, wd = 0x5e000500 + sm.toNat * 2147483648 + d.val * 2097152 + a.val * 131072 + b.val * 8192 + condCode c →
      wd < 2 ^ 32 ∧ decodeFields wd = .ok (.fcmp sm d a b c) from
    (H (encode (.fcmp sm d a b c)) rfl).imp_right decodeWord_of
  intro wd e
  obtain ⟨hw, f31, f25, f24, f21, f17, f13, f7, f3, f0⟩ :=
    fields_1_6_1_3_4_4_6_4_3 wd sm.toNat 47 0 d.val a.val b.val 10 0 (condCode c)
      sm.toNat_lt (by decide) (by decide) d.isLt a.isLt b.isLt (by decide) (by decide) (condCode_lt c) (by subst e; omega)
  refine ⟨hw, ?_⟩
  rw [decodeFp_op f25]
  unfold decodeFp
  rw [f7]
  refine (if_pos ⟨f3, f24⟩).trans ?_
  rw [bit_of f31, finOf_of f21, finOf_of f17, finOf_of f13, condOf_of f0]

theorem RoundTrip.fcvt (sm : Bool) (d : Fin 16) (a : Fin 16) (k : FcvtKind) : RoundTrip.Statement (.fcvt sm d a k) := by
  suffices H : ∀ wd, wd = 0x5e000580 + sm.toNat * 2147483648 + d.val * 2097152 + a.val * 131072 + fcvtCode k →
      wd < 2 ^ 32 ∧ decodeFields wd = .ok (.fcvt sm d a k) from
    (H (encode (.fcvt sm d a k)) rfl).imp_right decodeWord_of
  intro wd e
  obtain ⟨hw, f31, f25, f21, f17, f13, f7, f3, f0⟩ :=
    fields_1_6_4_4_4_6_4_3 wd sm.toNat 47 d.val a.val 0 11 0 (fcvtCode k)
      sm.toNat_lt (by decide) d.isLt a.isLt (by decide) (by decide) (by decide) (fcvtCode_lt k) (by subst e; omega)
  refine ⟨hw, ?_⟩
  rw [decodeFp_op f25]
  unfold decodeFp
  rw [f7]
  refine (if_pos ⟨f3, f13⟩).trans ?_
  rw [bit_of f31, finOf_of f21, finOf_of f17, fcvtOf_of f0]

theorem RoundTrip.himm (i : BitVec 21) : RoundTrip.Statement (.himm i) := by
  suffices H : ∀ wd, wd = 0x7e000000 + i.toNat →
      wd < 2 ^ 32 ∧ decodeFields wd = .ok (.himm i) from
    (H (encode (.himm i)) rfl).imp_right decodeWord_of
  intro wd e
  obtain ⟨hw, f31, f25, f21, f0⟩ :=
    fields_1_6_4_21 wd 0 63 0 i.toNat
      (by decide) (by decide) (by decide) i.isLt (by subst e; omega)
  refine ⟨hw, ?_⟩
  rw [decodeHint_op f25]
  unfold decodeHint
  refine (if_pos f31).trans ?_
  rw [f21]
  rw [ofNat_of f0]
  rfl

theorem RoundTrip.hloc (r : Fin 16) (c : Fin 4) (x : BitVec 15) : RoundTrip.Statement (.hloc r c x) := by
  suffices H : ∀ wd, wd = 0x7e200000 + r.val * 131072 + c.val * 32768 + x.toNat →
      wd < 2 ^ 32 ∧ decodeFields wd = .ok (.hloc r c x) from
    (H (encode (.hloc r c x)) rfl).imp_right decodeWord_of
  intro wd e
  obtain ⟨hw, f31, f25, f21, f17, f15, f0⟩ :=
    fields_1_6_4_4_2_15 wd 0 63 1 r.val c.val x.toNat
      (by decide) (by decide) (by decide) r.isLt c.isLt x.isLt (by subst e; omega)
  refine ⟨hw, ?_⟩
  rw [decodeHint_op f25]
  unfold decodeHint
  refine (if_pos f31).trans ?_
  rw [f21]
  rw [finOf_of f17, finOf_of f15, ofNat_of f0]
  rfl

theorem RoundTrip.hbr (h : Fin 4) (x : BitVec 19) : RoundTrip.Statement (.hbr h x) := by
  suffices H : ∀ wd, wd = 0x7e400000 + h.val * 524288 + x.toNat →
      wd < 2 ^ 32 ∧ decodeFields wd = .ok (.hbr h x) from
    (H (encode (.hbr h x)) rfl).imp_right decodeWord_of
  intro wd e
  obtain ⟨hw, f31, f25, f21, f19, f0⟩ :=
    fields_1_6_4_2_19 wd 0 63 2 h.val x.toNat
      (by decide) (by decide) (by decide) h.isLt x.isLt (by subst e; omega)
  refine ⟨hw, ?_⟩
  rw [decodeHint_op f25]
  unfold decodeHint
  refine (if_pos f31).trans ?_
  rw [f21]
  rw [finOf_of f19, ofNat_of f0]
  rfl

theorem RoundTrip.hpri (x : BitVec 19) (c : Fin 4) : RoundTrip.Statement (.hpri x c) := by
  suffices H : ∀ wd, wd = 0x7e600000 + x.toNat * 4 + c.val →
      wd < 2 ^ 32 ∧ decodeFields wd = .ok (.hpri x c) from
    (H (encode (.hpri x c)) rfl).imp_right decodeWord_of
  intro wd e
  obtain ⟨hw, f31, f25, f21, f2, f0⟩ :=
    fields_1_6_4_19_2 wd 0 63 3 x.toNat c.val
      (by decide) (by decide) (by decide) x.isLt c.isLt (by subst e; omega)
  refine ⟨hw, ?_⟩
  rw [decodeHint_op f25]
  unfold decodeHint
  refine (if_pos f31).trans ?_
  rw [f21]
  rw [ofNat_of f2, finOf_of f0]
  rfl

theorem RoundTrip.hmu (k : BitVec 5) (a : BitVec 16) : RoundTrip.Statement (.hmu k a) := by
  suffices H : ∀ wd, wd = 0x7fe00000 + k.toNat * 65536 + a.toNat →
      wd < 2 ^ 32 ∧ decodeFields wd = .ok (.hmu k a) from
    (H (encode (.hmu k a)) rfl).imp_right decodeWord_of
  intro wd e
  obtain ⟨hw, f31, f25, f21, f16, f0⟩ :=
    fields_1_6_4_5_16 wd 0 63 15 k.toNat a.toNat
      (by decide) (by decide) (by decide) k.isLt a.isLt (by subst e; omega)
  refine ⟨hw, ?_⟩
  rw [decodeHint_op f25]
  unfold decodeHint
  refine (if_pos f31).trans ?_
  rw [f21]
  rw [ofNat_of f16, ofNat_of f0]
  rfl

theorem RoundTrip.hintReserved (k : Fin 16) (x : BitVec 21) : RoundTrip.Statement (.hintReserved k x) := by
  suffices H : ∀ wd, wd = 0x7e000000 + k.val * 2097152 + x.toNat → wd < 2 ^ 32 ∧
      (WellFormed (.hintReserved k x) → decodeFields wd = .ok (.hintReserved k x)) from
    (H (encode (.hintReserved k x)) rfl).imp_right fun h wf => decodeWord_of (h wf) wf
  intro wd e
  obtain ⟨hw, f31, f25, f21, f0⟩ :=
    fields_1_6_4_21 wd 0 63 k.val x.toNat
      (by decide) (by decide) k.isLt x.isLt (by subst e; omega)
  refine ⟨hw, fun wf => ?_⟩
  rw [decodeHint_op f25]
  unfold decodeHint
  refine (if_pos f31).trans ?_
  rw [finOf_of f21, ofNat_of f0, f21]
  split
  case h_6 => rfl
  all_goals
    rename_i hk
    rw [show k = Fin.ofNat 16 k.val from Fin.ext (Nat.mod_eq_of_lt k.isLt).symm, hk] at wf
    cases wf

theorem RoundTrip.csetReg (d : Fin 8) (a : Src) : RoundTrip.Statement (.csetReg d a) := by
  suffices H : ∀ wd, wd = 0x0 + d.val * 16777216 + srcCode a * 524288 →
      wd < 2 ^ 32 ∧ decodeCirrusFields wd = .ok (.csetReg d a) from
    (H (encode (.csetReg d a)) rfl).imp_right decodeCirrus_of
  intro wd e
  obtain ⟨hw, f27, f24, f19, f0⟩ :=
    fields_5_3_5_19 wd 0 d.val (srcCode a) 0
      (by decide) d.isLt (srcCode_lt a) (by decide) (by subst e; omega)
  refine ⟨hw, ?_⟩
  unfold decodeCirrusFields
  rw [f27]
  have hp : fld wd 0 19 = 0 := f0
  refine (if_pos hp).trans ?_
  rw [finOf_of f24, srcOf_of f19]

theorem RoundTrip.csetImm (d : Fin 8) (i : BitVec 17) : RoundTrip.Statement (.csetImm d i) := by
  suffices H : ∀ wd, wd = 0x40000 + d.val * 16777216 + i.toNat →
      wd < 2 ^ 32 ∧ decodeCirrusFields wd = .ok (.csetImm d i) from
    (H (encode (.csetImm d i)) rfl).imp_right decodeCirrus_of
  intro wd e
  obtain ⟨hw, f27, f24, f17, f0⟩ :=
    fields_5_3_7_17 wd 0 d.val 2 i.toNat
      (by decide) d.isLt (by decide) i.isLt (by subst e; omega)
  refine ⟨hw, ?_⟩
  unfold decodeCirrusFields
  rw [f27]
  have hn : ¬ (fld wd 0 19 = 0) := fun h => immNotReg h f17
  refine (if_neg hn).trans ?_
  have hp : fld wd 17 7 = 2 := f17
  refine (if_pos hp).trans ?_
  rw [finOf_of f24, ofNat_of f0]

theorem RoundTrip.caddReg (d : Fin 8) (a : Src) (n : Bool) (b : Src) : RoundTrip.Statement (.caddReg d a n b) := by
  suffices H : ∀ wd, wd = 0x8000000 + d.val * 16777216 + srcCode a * 524288 + n.toNat * 131072 + srcCode b * 4096 →
      wd < 2 ^ 32 ∧ decodeCirrusFields wd = .ok (.caddReg d a n b) from
    (H (encode (.caddReg d a n b)) rfl).imp_right decodeCirrus_of
  intro wd e
  obtain ⟨hw, f27, f24, f19, f18, f17, f12, f0⟩ :=
    fields_5_3_5_1_1_5_12 wd 1 d.val (srcCode a) 0 n.toNat (srcCode b) 0
      (by decide) d.isLt (srcCode_lt a) (by decide) n.toNat_lt (srcCode_lt b) (by decide) (by subst e; omega)
  refine ⟨hw, ?_⟩
  unfold decodeCirrusFields
  rw [f27]
  have hp : fld wd 0 12 = 0 ∧ fld wd 18 1 = 0 := ⟨f0, f18⟩
  refine (if_pos hp).trans ?_
  rw [finOf_of f24, srcOf_of f19, bit_of f17, srcOf_of f12]

theorem RoundTrip.caddImm (d : Fin 8) (a : Src) (n : Bool) (i : BitVec 17) : RoundTrip.Statement (.caddImm d a n i) := by
  suffices H : ∀ wd, wd = 0x8040000 + d.val * 16777216 + srcCode a * 524288 + n.toNat * 131072 + i.toNat →
      wd < 2 ^ 32 ∧ decodeCirrusFields wd = .ok (.caddImm d a n i) from
    (H (encode (.caddImm d a n i)) rfl).imp_right decodeCirrus_of
  intro wd e
  obtain ⟨hw, f27, f24, f19, f18, f17, f0⟩ :=
    fields_5_3_5_1_1_17 wd 1 d.val (srcCode a) 1 n.toNat i.toNat
      (by decide) d.isLt (srcCode_lt a) (by decide) n.toNat_lt i.isLt (by subst e; omega)
  refine ⟨hw, ?_⟩
  unfold decodeCirrusFields
  rw [f27]
  have hn : ¬ (fld wd 0 12 = 0 ∧ fld wd 18 1 = 0) := fun h => absurd (f18.symm.trans h.2) (by decide)
  refine (if_neg hn).trans ?_
  have hp : fld wd 18 1 = 1 := f18
  refine (if_pos hp).trans ?_
  rw [finOf_of f24, srcOf_of f19, bit_of f17, ofNat_of f0]

theorem RoundTrip.cmulReg (d : Fin 8) (a : Src) (b : Src) : RoundTrip.Statement (.cmulReg d a b) := by
  suffices H : ∀ wd, wd = 0x10000000 + d.val * 16777216 + srcCode a * 524288 + srcCode b * 4096 →
      wd < 2 ^ 32 ∧ decodeCirrusFields wd = .ok (.cmulReg d a b) from
    (H (encode (.cmulReg d a b)) rfl).imp_right decodeCirrus_of
  intro wd e
  obtain ⟨hw, f27, f24, f19, f17, f12, f0⟩ :=
    fields_5_3_5_2_5_12 wd 2 d.val (srcCode a) 0 (srcCode b) 0
      (by decide) d.isLt (srcCode_lt a) (by decide) (srcCode_lt b) (by decide) (by subst e; omega)
  refine ⟨hw, ?_⟩
  unfold decodeCirrusFields
  rw [f27]
  have hp : fld wd 0 12 = 0 ∧ fld wd 17 2 = 0 := ⟨f0, f17⟩
  refine (if_pos hp).trans ?_
  rw [finOf_of f24, srcOf_of f19, srcOf_of f12]

theorem RoundTrip.cmulImm (d : Fin 8) (a : Src) (i : BitVec 17) : RoundTrip.Statement (.cmulImm d a i) := by
  suffices H : ∀ wd, wd = 0x10040000 + d.val * 16777216 + srcCode a * 524288 + i.toNat →
      wd < 2 ^ 32 ∧ decodeCirrusFields wd = .ok (.cmulImm d a i) from
    (H (encode (.cmulImm d a i)) rfl).imp_right decodeCirrus_of
  intro wd e
  obtain ⟨hw, f27, f24, f19, f17, f0⟩ :=
    fields_5_3_5_2_17 wd 2 d.val (srcCode a) 2 i.toNat
      (by decide) d.isLt (srcCode_lt a) (by decide) i.isLt (by subst e; omega)
  refine ⟨hw, ?_⟩
  unfold decodeCirrusFields
  rw [f27]
  have hn : ¬ (fld wd 0 12 = 0 ∧ fld wd 17 2 = 0) := fun h => absurd (f17.symm.trans h.2) (by decide)
  refine (if_neg hn).trans ?_
  have hp : fld wd 17 2 = 2 := f17
  refine (if_pos hp).trans ?_
  rw [finOf_of f24, srcOf_of f19, ofNat_of f0]

theorem RoundTrip.cdivReg (d : Fin 8) (a : Src) (b : Src) : RoundTrip.Statement (.cdivReg d a b) := by
  suffices H : ∀ wd, wd = 0x18000000 + d.val * 16777216 + srcCode a * 524288 + srcCode b * 4096 →
      wd < 2 ^ 32 ∧ decodeCirrusFields wd = .ok (.cdivReg d a b) from
    (H (encode (.cdivReg d a b)) rfl).imp_right decodeCirrus_of
  intro wd e
  obtain ⟨hw, f27, f24, f19, f17, f12, f0⟩ :=
    fields_5_3_5_2_5_12 wd 3 d.val (srcCode a) 0 (srcCode b) 0
      (by decide) d.isLt (srcCode_lt a) (by decide) (srcCode_lt b) (by decide) (by subst e; omega)
  refine ⟨hw, ?_⟩
  unfold decodeCirrusFields
  rw [f27]
  have hp : fld wd 0 12 = 0 ∧ fld wd 17 2 = 0 := ⟨f0, f17⟩
  refine (if_pos hp).trans ?_
  rw [finOf_of f24, srcOf_of f19, srcOf_of f12]

theorem RoundTrip.cdivImm (d : Fin 8) (a : Src) (i : BitVec 17) : RoundTrip.Statement (.cdivImm d a i) := by
  suffices H : ∀ wd, wd = 0x18040000 + d.val * 16777216 + srcCode a * 524288 + i.toNat →
      wd < 2 ^ 32 ∧ decodeCirrusFields wd = .ok (.cdivImm d a i) from
    (H (encode (.cdivImm d a i)) rfl).imp_right decodeCirrus_of
  intro wd e
  obtain ⟨hw, f27, f24, f19, f17, f0⟩ :=
    fields_5_3_5_2_17 wd 3 d.val (srcCode a) 2 i.toNat
      (by decide) d.isLt (srcCode_lt a) (by decide) i.isLt (by subst e; omega)
  refine ⟨hw, ?_⟩
  unfold decodeCirrusFields
  rw [f27]
  have hn : ¬ (fld wd 0 12 = 0 ∧ fld wd 17 2 = 0) := fun h => absurd (f17.symm.trans h.2) (by decide)
  refine (if_neg hn).trans ?_
  have hp : fld wd 17 2 = 2 := f17
  refine (if_pos hp).trans ?_
  rw [finOf_of f24, srcOf_of f19, ofNat_of f0]

theorem RoundTrip.cmodReg (d : Fin 8) (a : Src) (b : Src) : RoundTrip.Statement (.cmodReg d a b) := by
  suffices H : ∀ wd, wd = 0x20000000 + d.val * 16777216 + srcCode a * 524288 + srcCode b * 4096 →
      wd < 2 ^ 32 ∧ decodeCirrusFields wd = .ok (.cmodReg d a b) from
    (H (encode (.cmodReg d a b)) rfl).imp_right decodeCirrus_of
  intro wd e
  obtain ⟨hw, f27, f24, f19, f17, f12, f0⟩ :=
    fields_5_3_5_2_5_12 wd 4 d.val (srcCode a) 0 (srcCode b) 0
      (by decide) d.isLt (srcCode_lt a) (by decide) (srcCode_lt b) (by decide) (by subst e; omega)
  refine ⟨hw, ?_⟩
  unfold decodeCirrusFields
  rw [f27]
  have hp : fld wd 0 12 = 0 ∧ fld wd 17 2 = 0 := ⟨f0, f17⟩
  refine (if_pos hp).trans ?_
  rw [finOf_of f24, srcOf_of f19, srcOf_of f12]

theorem RoundTrip.cmodImm (d : Fin 8) (a : Src) (i : BitVec 17) : RoundTrip.Statement (.cmodImm d a i) := by
  suffices H : ∀ wd, wd = 0x20040000 + d.val * 16777216 + srcCode a * 524288 + i.toNat →
      wd < 2 ^ 32 ∧ decodeCirrusFields wd = .ok (.cmodImm d a i) from
    (H (encode (.cmodImm d a i)) rfl).imp_right decodeCirrus_of
  intro wd e
  obtain ⟨hw, f27, f24, f19, f17, f0⟩ :=
    fields_5_3_5_2_17 wd 4 d.val (srcCode a) 2 i.toNat
      (by decide) d.isLt (srcCode_lt a) (by decide) i.isLt (by subst e; omega)
  refine ⟨hw, ?_⟩
  unfold decodeCirrusFields
  rw [f27]
  have hn : ¬ (fld wd 0 12 = 0 ∧ fld wd 17 2 = 0) := fun h => absurd (f17.symm.trans h.2) (by decide)
  refine (if_neg hn).trans ?_
  have hp : fld wd 17 2 = 2 := f17
  refine (if_pos hp).trans ?_
  rw [finOf_of f24, srcOf_of f19, ofNat_of f0]

theorem RoundTrip.chashReg (d : Fin 8) (a : Src) (b : Src) : RoundTrip.Statement (.chashReg d a b) := by
  suffices H : ∀ wd, wd = 0x28000000 + d.val * 16777216 + srcCode a * 524288 + srcCode b * 4096 →
      wd < 2 ^ 32 ∧ decodeCirrusFields wd = .ok (.chashReg d a b) from
    (H (encode (.chashReg d a b)) rfl).imp_right decodeCirrus_of
  intro wd e
  obtain ⟨hw, f27, f24, f19, f17, f12, f0⟩ :=
    fields_5_3_5_2_5_12 wd 5 d.val (srcCode a) 0 (srcCode b) 0
      (by decide) d.isLt (srcCode_lt a) (by decide) (srcCode_lt b) (by decide) (by subst e; omega)
  refine ⟨hw, ?_⟩
  unfold decodeCirrusFields
  rw [f27]
  have hp : fld wd 0 12 = 0 ∧ fld wd 17 2 = 0 := ⟨f0, f17⟩
  refine (if_pos hp).trans ?_
  rw [finOf_of f24, srcOf_of f19, srcOf_of f12]

theorem RoundTrip.chashImm (d : Fin 8) (a : Src) (i : BitVec 17) : RoundTrip.Statement (.chashImm d a i) := by
  suffices H : ∀ wd, wd = 0x28040000 + d.val * 16777216 + srcCode a * 524288 + i.toNat →
      wd < 2 ^ 32 ∧ decodeCirrusFields wd = .ok (.chashImm d a i) from
    (H (encode (.chashImm d a i)) rfl).imp_right decodeCirrus_of
  intro wd e
  obtain ⟨hw, f27, f24, f19, f17, f0⟩ :=
    fields_5_3_5_2_17 wd 5 d.val (srcCode a) 2 i.toNat
      (by decide) d.isLt (srcCode_lt a) (by decide) i.isLt (by subst e; omega)
  refine ⟨hw, ?_⟩
  unfold decodeCirrusFields
  rw [f27]
  have hn : ¬ (fld wd 0 12 = 0 ∧ fld wd 17 2 = 0) := fun h => absurd (f17.symm.trans h.2) (by decide)
  refine (if_neg hn).trans ?_
  have hp : fld wd 17 2 = 2 := f17
  refine (if_pos hp).trans ?_
  rw [finOf_of f24, srcOf_of f19, ofNat_of f0]

theorem RoundTrip.cbr (c : Cond) (a : Src) (b : Src) (f : BitVec 14) : RoundTrip.Statement (.cbr c a b f) := by
  suffices H : ∀ wd, wd = 0x30000000 + condCode c * 16777216 + srcCode a * 524288 + srcCode b * 16384 + f.toNat →
      wd < 2 ^ 32 ∧ decodeCirrusFields wd = .ok (.cbr c a b f) from
    (H (encode (.cbr c a b f)) rfl).imp_right decodeCirrus_of
  intro wd e
  obtain ⟨hw, f27, f24, f19, f14, f0⟩ :=
    fields_5_3_5_5_14 wd 6 (condCode c) (srcCode a) (srcCode b) f.toNat
      (by decide) (condCode_lt c) (srcCode_lt a) (srcCode_lt b) f.isLt (by subst e; omega)
  refine ⟨hw, ?_⟩
  unfold decodeCirrusFields
  rw [f27]
  rw [condOf_of f24, srcOf_of f19, srcOf_of f14, ofNat_of f0]
  rfl

theorem RoundTrip.cloop (d : Fin 8) (a : Src) (f : BitVec 14) : RoundTrip.Statement (.cloop d a f) := by
  suffices H : ∀ wd, wd = 0x38000000 + d.val * 16777216 + srcCode a * 524288 + f.toNat →
      wd < 2 ^ 32 ∧ decodeCirrusFields wd = .ok (.cloop d a f) from
    (H (encode (.cloop d a f)) rfl).imp_right decodeCirrus_of
  intro wd e
  obtain ⟨hw, f27, f24, f19, f14, f0⟩ :=
    fields_5_3_5_5_14 wd 7 d.val (srcCode a) 0 f.toNat
      (by decide) d.isLt (srcCode_lt a) (by decide) f.isLt (by subst e; omega)
  refine ⟨hw, ?_⟩
  unfold decodeCirrusFields
  rw [f27]
  have hp : fld wd 14 5 = 0 := f14
  refine (if_pos hp).trans ?_
  rw [finOf_of f24, srcOf_of f19, ofNat_of f0]

theorem RoundTrip.cnextReg (d : Fin 8) (a : Src) (b : Src) : RoundTrip.Statement (.cnextReg d a b) := by
  suffices H : ∀ wd, wd = 0x40000000 + d.val * 16777216 + srcCode a * 524288 + srcCode b * 4096 →
      wd < 2 ^ 32 ∧ decodeCirrusFields wd = .ok (.cnextReg d a b) from
    (H (encode (.cnextReg d a b)) rfl).imp_right decodeCirrus_of
  intro wd e
  obtain ⟨hw, f27, f24, f19, f17, f12, f0⟩ :=
    fields_5_3_5_2_5_12 wd 8 d.val (srcCode a) 0 (srcCode b) 0
      (by decide) d.isLt (srcCode_lt a) (by decide) (srcCode_lt b) (by decide) (by subst e; omega)
  refine ⟨hw, ?_⟩
  unfold decodeCirrusFields
  rw [f27]
  have hp : fld wd 0 12 = 0 ∧ fld wd 17 2 = 0 := ⟨f0, f17⟩
  refine (if_pos hp).trans ?_
  rw [finOf_of f24, srcOf_of f19, srcOf_of f12]

theorem RoundTrip.cnextImm (d : Fin 8) (a : Src) (i : BitVec 17) : RoundTrip.Statement (.cnextImm d a i) := by
  suffices H : ∀ wd, wd = 0x40040000 + d.val * 16777216 + srcCode a * 524288 + i.toNat →
      wd < 2 ^ 32 ∧ decodeCirrusFields wd = .ok (.cnextImm d a i) from
    (H (encode (.cnextImm d a i)) rfl).imp_right decodeCirrus_of
  intro wd e
  obtain ⟨hw, f27, f24, f19, f17, f0⟩ :=
    fields_5_3_5_2_17 wd 8 d.val (srcCode a) 2 i.toNat
      (by decide) d.isLt (srcCode_lt a) (by decide) i.isLt (by subst e; omega)
  refine ⟨hw, ?_⟩
  unfold decodeCirrusFields
  rw [f27]
  have hn : ¬ (fld wd 0 12 = 0 ∧ fld wd 17 2 = 0) := fun h => absurd (f17.symm.trans h.2) (by decide)
  refine (if_neg hn).trans ?_
  have hp : fld wd 17 2 = 2 := f17
  refine (if_pos hp).trans ?_
  rw [finOf_of f24, srcOf_of f19, ofNat_of f0]

theorem RoundTrip.cemitReg (d : Fin 8) (a : Src) : RoundTrip.Statement (.cemitReg d a) := by
  suffices H : ∀ wd, wd = 0x48000000 + d.val * 16777216 + srcCode a * 524288 →
      wd < 2 ^ 32 ∧ decodeCirrusFields wd = .ok (.cemitReg d a) from
    (H (encode (.cemitReg d a)) rfl).imp_right decodeCirrus_of
  intro wd e
  obtain ⟨hw, f27, f24, f19, f0⟩ :=
    fields_5_3_5_19 wd 9 d.val (srcCode a) 0
      (by decide) d.isLt (srcCode_lt a) (by decide) (by subst e; omega)
  refine ⟨hw, ?_⟩
  unfold decodeCirrusFields
  rw [f27]
  have hp : fld wd 0 19 = 0 := f0
  refine (if_pos hp).trans ?_
  rw [finOf_of f24, srcOf_of f19]

theorem RoundTrip.cemitImm (d : Fin 8) (i : BitVec 17) : RoundTrip.Statement (.cemitImm d i) := by
  suffices H : ∀ wd, wd = 0x48040000 + d.val * 16777216 + i.toNat →
      wd < 2 ^ 32 ∧ decodeCirrusFields wd = .ok (.cemitImm d i) from
    (H (encode (.cemitImm d i)) rfl).imp_right decodeCirrus_of
  intro wd e
  obtain ⟨hw, f27, f24, f17, f0⟩ :=
    fields_5_3_7_17 wd 9 d.val 2 i.toNat
      (by decide) d.isLt (by decide) i.isLt (by subst e; omega)
  refine ⟨hw, ?_⟩
  unfold decodeCirrusFields
  rw [f27]
  have hn : ¬ (fld wd 0 19 = 0) := fun h => immNotReg h f17
  refine (if_neg hn).trans ?_
  have hp : fld wd 17 7 = 2 := f17
  refine (if_pos hp).trans ?_
  rw [finOf_of f24, ofNat_of f0]

theorem RoundTrip.crunReg (d : Fin 8) (a : Src) (b : Src) : RoundTrip.Statement (.crunReg d a b) := by
  suffices H : ∀ wd, wd = 0x50000000 + d.val * 16777216 + srcCode a * 524288 + srcCode b * 4096 →
      wd < 2 ^ 32 ∧ decodeCirrusFields wd = .ok (.crunReg d a b) from
    (H (encode (.crunReg d a b)) rfl).imp_right decodeCirrus_of
  intro wd e
  obtain ⟨hw, f27, f24, f19, f17, f12, f0⟩ :=
    fields_5_3_5_2_5_12 wd 10 d.val (srcCode a) 0 (srcCode b) 0
      (by decide) d.isLt (srcCode_lt a) (by decide) (srcCode_lt b) (by decide) (by subst e; omega)
  refine ⟨hw, ?_⟩
  unfold decodeCirrusFields
  rw [f27]
  have hp : fld wd 0 12 = 0 ∧ fld wd 17 2 = 0 := ⟨f0, f17⟩
  refine (if_pos hp).trans ?_
  rw [finOf_of f24, srcOf_of f19, srcOf_of f12]

theorem RoundTrip.crunImm (d : Fin 8) (a : Src) (i : BitVec 17) : RoundTrip.Statement (.crunImm d a i) := by
  suffices H : ∀ wd, wd = 0x50040000 + d.val * 16777216 + srcCode a * 524288 + i.toNat →
      wd < 2 ^ 32 ∧ decodeCirrusFields wd = .ok (.crunImm d a i) from
    (H (encode (.crunImm d a i)) rfl).imp_right decodeCirrus_of
  intro wd e
  obtain ⟨hw, f27, f24, f19, f17, f0⟩ :=
    fields_5_3_5_2_17 wd 10 d.val (srcCode a) 2 i.toNat
      (by decide) d.isLt (srcCode_lt a) (by decide) i.isLt (by subst e; omega)
  refine ⟨hw, ?_⟩
  unfold decodeCirrusFields
  rw [f27]
  have hn : ¬ (fld wd 0 12 = 0 ∧ fld wd 17 2 = 0) := fun h => absurd (f17.symm.trans h.2) (by decide)
  refine (if_neg hn).trans ?_
  have hp : fld wd 17 2 = 2 := f17
  refine (if_pos hp).trans ?_
  rw [finOf_of f24, srcOf_of f19, ofNat_of f0]

theorem RoundTrip.ckronReg (d : Fin 8) (a : Src) (b : Src) : RoundTrip.Statement (.ckronReg d a b) := by
  suffices H : ∀ wd, wd = 0x58000000 + d.val * 16777216 + srcCode a * 524288 + srcCode b * 4096 →
      wd < 2 ^ 32 ∧ decodeCirrusFields wd = .ok (.ckronReg d a b) from
    (H (encode (.ckronReg d a b)) rfl).imp_right decodeCirrus_of
  intro wd e
  obtain ⟨hw, f27, f24, f19, f17, f12, f0⟩ :=
    fields_5_3_5_2_5_12 wd 11 d.val (srcCode a) 0 (srcCode b) 0
      (by decide) d.isLt (srcCode_lt a) (by decide) (srcCode_lt b) (by decide) (by subst e; omega)
  refine ⟨hw, ?_⟩
  unfold decodeCirrusFields
  rw [f27]
  have hp : fld wd 0 12 = 0 ∧ fld wd 17 2 = 0 := ⟨f0, f17⟩
  refine (if_pos hp).trans ?_
  rw [finOf_of f24, srcOf_of f19, srcOf_of f12]

theorem RoundTrip.ckronImm (d : Fin 8) (a : Src) (i : BitVec 17) : RoundTrip.Statement (.ckronImm d a i) := by
  suffices H : ∀ wd, wd = 0x58040000 + d.val * 16777216 + srcCode a * 524288 + i.toNat →
      wd < 2 ^ 32 ∧ decodeCirrusFields wd = .ok (.ckronImm d a i) from
    (H (encode (.ckronImm d a i)) rfl).imp_right decodeCirrus_of
  intro wd e
  obtain ⟨hw, f27, f24, f19, f17, f0⟩ :=
    fields_5_3_5_2_17 wd 11 d.val (srcCode a) 2 i.toNat
      (by decide) d.isLt (srcCode_lt a) (by decide) i.isLt (by subst e; omega)
  refine ⟨hw, ?_⟩
  unfold decodeCirrusFields
  rw [f27]
  have hn : ¬ (fld wd 0 12 = 0 ∧ fld wd 17 2 = 0) := fun h => absurd (f17.symm.trans h.2) (by decide)
  refine (if_neg hn).trans ?_
  have hp : fld wd 17 2 = 2 := f17
  refine (if_pos hp).trans ?_
  rw [finOf_of f24, srcOf_of f19, ofNat_of f0]

theorem RoundTrip.cinv : RoundTrip.Statement (.cinv ) := by
  suffices H : ∀ wd, wd = 0x60000000 →
      wd < 2 ^ 32 ∧ decodeCirrusFields wd = .ok (.cinv ) from
    (H (encode (.cinv )) rfl).imp_right decodeCirrus_of
  intro wd e
  obtain ⟨hw, f27, f0⟩ :=
    fields_5_27 wd 12 0
      (by decide) (by decide) (by subst e; omega)
  refine ⟨hw, ?_⟩
  unfold decodeCirrusFields
  rw [f27]
  have hp : fld wd 0 27 = 0 := f0
  refine (if_pos hp).trans ?_
  rfl

theorem RoundTrip.cstop : RoundTrip.Statement (.cstop ) := by
  suffices H : ∀ wd, wd = 0x68000000 →
      wd < 2 ^ 32 ∧ decodeCirrusFields wd = .ok (.cstop ) from
    (H (encode (.cstop )) rfl).imp_right decodeCirrus_of
  intro wd e
  obtain ⟨hw, f27, f0⟩ :=
    fields_5_27 wd 13 0
      (by decide) (by decide) (by subst e; omega)
  refine ⟨hw, ?_⟩
  unfold decodeCirrusFields
  rw [f27]
  have hp : fld wd 0 27 = 0 := f0
  refine (if_pos hp).trans ?_
  rfl

theorem RoundTrip.ptbrWrite (x : Sec) (asid : BitVec 16) (v : BitVec 64) : RoundTrip.Statement (.ptbrWrite x asid v) :=
  ⟨Nat.two_pow_pos 32, rfl⟩

theorem RoundTrip.sysctlPmWrite (x : Sec) (tsel : BitVec 10) (pm : Bool) (all : Bool) : RoundTrip.Statement (.sysctlPmWrite x tsel pm all) :=
  ⟨Nat.two_pow_pos 32, rfl⟩

theorem RoundTrip.progressModeApply (x : Sec) (cl : Fin 96) (co : Fin 8) : RoundTrip.Statement (.progressModeApply x cl co) :=
  ⟨Nat.two_pow_pos 32, rfl⟩

theorem RoundTrip.hxmboxLockRequest (x : Sec) (horizonToo : Bool) : RoundTrip.Statement (.hxmboxLockRequest x horizonToo) :=
  ⟨Nat.two_pow_pos 32, rfl⟩

theorem RoundTrip.hxmboxLockRelease (x : Sec) : RoundTrip.Statement (.hxmboxLockRelease x) :=
  ⟨Nat.two_pow_pos 32, rfl⟩

theorem RoundTrip.hxmboxDbiClear (x : Sec) : RoundTrip.Statement (.hxmboxDbiClear x) :=
  ⟨Nat.two_pow_pos 32, rfl⟩

theorem RoundTrip.interruptTaken (x : Sec) (n : Fin 16) : RoundTrip.Statement (.interruptTaken x n) :=
  ⟨Nat.two_pow_pos 32, rfl⟩

theorem RoundTrip.watchdogExpire (x : Sec) (cl : Fin 96) (co : Fin 8) : RoundTrip.Statement (.watchdogExpire x cl co) :=
  ⟨Nat.two_pow_pos 32, rfl⟩

theorem RoundTrip.registerFillWake (g : Agent) : RoundTrip.Statement (.registerFillWake g) :=
  ⟨Nat.two_pow_pos 32, rfl⟩

theorem RoundTrip.feWordWake (x : Sec) (cl : Fin 96) (word : Fin 262144) : RoundTrip.Statement (.feWordWake x cl word) :=
  ⟨Nat.two_pow_pos 32, rfl⟩

theorem RoundTrip.watermarkWake (x : Sec) (cl : Fin 96) : RoundTrip.Statement (.watermarkWake x cl) :=
  ⟨Nat.two_pow_pos 32, rfl⟩

theorem RoundTrip.sleepWake (g : Agent) : RoundTrip.Statement (.sleepWake g) :=
  ⟨Nat.two_pow_pos 32, rfl⟩

theorem RoundTrip.joinComplete (g : Agent) : RoundTrip.Statement (.joinComplete g) :=
  ⟨Nat.two_pow_pos 32, rfl⟩

theorem RoundTrip.jwaitComplete (g : Agent) : RoundTrip.Statement (.jwaitComplete g) :=
  ⟨Nat.two_pow_pos 32, rfl⟩

theorem RoundTrip.queueEntryFree (g : Agent) : RoundTrip.Statement (.queueEntryFree g) :=
  ⟨Nat.two_pow_pos 32, rfl⟩

theorem RoundTrip.poolEntryFree (x : Sec) : RoundTrip.Statement (.poolEntryFree x) :=
  ⟨Nat.two_pow_pos 32, rfl⟩

theorem RoundTrip.dSlotFree (x : Sec) (cl : Fin 96) : RoundTrip.Statement (.dSlotFree x cl) :=
  ⟨Nat.two_pow_pos 32, rfl⟩

theorem RoundTrip.depositArrive (id : Nat) : RoundTrip.Statement (.depositArrive id) :=
  ⟨Nat.two_pow_pos 32, rfl⟩

theorem RoundTrip.depositLand (id : Nat) : RoundTrip.Statement (.depositLand id) :=
  ⟨Nat.two_pow_pos 32, rfl⟩

theorem RoundTrip.pushAccept (id : Nat) : RoundTrip.Statement (.pushAccept id) :=
  ⟨Nat.two_pow_pos 32, rfl⟩

theorem RoundTrip.bankRead (id : Nat) : RoundTrip.Statement (.bankRead id) :=
  ⟨Nat.two_pow_pos 32, rfl⟩

theorem RoundTrip.bankWrite (id : Nat) : RoundTrip.Statement (.bankWrite id) :=
  ⟨Nat.two_pow_pos 32, rfl⟩

theorem RoundTrip.bankAtomic (id : Nat) : RoundTrip.Statement (.bankAtomic id) :=
  ⟨Nat.two_pow_pos 32, rfl⟩

theorem RoundTrip.peerRequest (id : Nat) : RoundTrip.Statement (.peerRequest id) :=
  ⟨Nat.two_pow_pos 32, rfl⟩

theorem RoundTrip.zenithCycle (x : Sec) (uid : Nat) (z : Fin 16) (order : List Nat) : RoundTrip.Statement (.zenithCycle x uid z order) :=
  ⟨Nat.two_pow_pos 32, rfl⟩

theorem RoundTrip.drawRequest (g : Agent) : RoundTrip.Statement (.drawRequest g) :=
  ⟨Nat.two_pow_pos 32, rfl⟩

theorem RoundTrip.vtStart (g : Agent) : RoundTrip.Statement (.vtStart g) :=
  ⟨Nat.two_pow_pos 32, rfl⟩

theorem RoundTrip.indexAssign (x : Sec) : RoundTrip.Statement (.indexAssign x) :=
  ⟨Nat.two_pow_pos 32, rfl⟩

theorem RoundTrip.leaseResidencyCheck (x : Sec) (uid : Nat) : RoundTrip.Statement (.leaseResidencyCheck x uid) :=
  ⟨Nat.two_pow_pos 32, rfl⟩

theorem RoundTrip.readyBroadcast (x : Sec) (uid : Nat) : RoundTrip.Statement (.readyBroadcast x uid) :=
  ⟨Nat.two_pow_pos 32, rfl⟩

theorem RoundTrip.contextChoose (g : Agent) : RoundTrip.Statement (.contextChoose g) :=
  ⟨Nat.two_pow_pos 32, rfl⟩

theorem RoundTrip.residencyProbe (x : Sec) (uid : Nat) : RoundTrip.Statement (.residencyProbe x uid) :=
  ⟨Nat.two_pow_pos 32, rfl⟩

theorem RoundTrip.instanceEnd (x : Sec) (uid : Nat) : RoundTrip.Statement (.instanceEnd x uid) :=
  ⟨Nat.two_pow_pos 32, rfl⟩

theorem RoundTrip.engineStep (x : Sec) (cl : Fin 96) : RoundTrip.Statement (.engineStep x cl) :=
  ⟨Nat.two_pow_pos 32, rfl⟩

theorem RoundTrip.matrixCommandComplete (x : Sec) (cl : Fin 96) (co : Fin 8) : RoundTrip.Statement (.matrixCommandComplete x cl co) :=
  ⟨Nat.two_pow_pos 32, rfl⟩

theorem RoundTrip.accumulatorClaim (x : Sec) (home : Fin 6144) (slot : Fin 2) : RoundTrip.Statement (.accumulatorClaim x home slot) :=
  ⟨Nat.two_pow_pos 32, rfl⟩

theorem RoundTrip.copyCommandStart (x : Sec) (cl : Fin 96) : RoundTrip.Statement (.copyCommandStart x cl) :=
  ⟨Nat.two_pow_pos 32, rfl⟩

theorem RoundTrip.copyComplete (x : Sec) (cl : Fin 96) (id : Nat) : RoundTrip.Statement (.copyComplete x cl id) :=
  ⟨Nat.two_pow_pos 32, rfl⟩

theorem RoundTrip.xgComplete (x : Sec) (id : Nat) : RoundTrip.Statement (.xgComplete x id) :=
  ⟨Nat.two_pow_pos 32, rfl⟩

theorem RoundTrip.jobComplete (x : Sec) (id : Nat) : RoundTrip.Statement (.jobComplete x id) :=
  ⟨Nat.two_pow_pos 32, rfl⟩

theorem RoundTrip.detachedJobEnd (x : Sec) (id : Nat) : RoundTrip.Statement (.detachedJobEnd x id) :=
  ⟨Nat.two_pow_pos 32, rfl⟩

theorem RoundTrip.ringReservation (x : Sec) (cl : Fin 96) (id : Nat) : RoundTrip.Statement (.ringReservation x cl id) :=
  ⟨Nat.two_pow_pos 32, rfl⟩

theorem RoundTrip.tlbiComplete (x : Sec) (id : Nat) : RoundTrip.Statement (.tlbiComplete x id) :=
  ⟨Nat.two_pow_pos 32, rfl⟩

theorem RoundTrip.migrationGroupMove (x : Sec) (asid : BitVec 16) (va : BitVec 64) (far : Bool) : RoundTrip.Statement (.migrationGroupMove x asid va far) :=
  ⟨Nat.two_pow_pos 32, rfl⟩

theorem RoundTrip.migrationMessageArrive (id : Nat) : RoundTrip.Statement (.migrationMessageArrive id) :=
  ⟨Nat.two_pow_pos 32, rfl⟩

theorem RoundTrip.migrationAdmit (x : Sec) (cl : Fin 96) : RoundTrip.Statement (.migrationAdmit x cl) :=
  ⟨Nat.two_pow_pos 32, rfl⟩

theorem RoundTrip.inboxOverflow (x : Sec) (cl : Fin 96) (id : Nat) : RoundTrip.Statement (.inboxOverflow x cl id) :=
  ⟨Nat.two_pow_pos 32, rfl⟩

theorem RoundTrip.heapReplay (x : Sec) (cl : Fin 96) : RoundTrip.Statement (.heapReplay x cl) :=
  ⟨Nat.two_pow_pos 32, rfl⟩

theorem RoundTrip.backpressureRetry (id : Nat) : RoundTrip.Statement (.backpressureRetry id) :=
  ⟨Nat.two_pow_pos 32, rfl⟩

theorem RoundTrip.probeToken (id : Nat) : RoundTrip.Statement (.probeToken id) :=
  ⟨Nat.two_pow_pos 32, rfl⟩

theorem RoundTrip.preempt (x : Sec) (cl : Fin 96) (co : Fin 8) (issuer : Fin 16) : RoundTrip.Statement (.preempt x cl co issuer) :=
  ⟨Nat.two_pow_pos 32, rfl⟩

theorem RoundTrip.preemptImagesSaved (x : Sec) (cl : Fin 96) (co : Fin 8) : RoundTrip.Statement (.preemptImagesSaved x cl co) :=
  ⟨Nat.two_pow_pos 32, rfl⟩

theorem RoundTrip.coreRelease (x : Sec) (cl : Fin 96) (co : Fin 8) : RoundTrip.Statement (.coreRelease x cl co) :=
  ⟨Nat.two_pow_pos 32, rfl⟩

theorem RoundTrip.imageRestore (x : Sec) (idx : Fin 6144) : RoundTrip.Statement (.imageRestore x idx) :=
  ⟨Nat.two_pow_pos 32, rfl⟩

theorem RoundTrip.spillQueueAppend (id : Nat) : RoundTrip.Statement (.spillQueueAppend id) :=
  ⟨Nat.two_pow_pos 32, rfl⟩

theorem RoundTrip.npoolPush (x : Sec) (v : BitVec 64) : RoundTrip.Statement (.npoolPush x v) :=
  ⟨Nat.two_pow_pos 32, rfl⟩

theorem RoundTrip.npoolPop (x : Sec) : RoundTrip.Statement (.npoolPop x) :=
  ⟨Nat.two_pow_pos 32, rfl⟩

theorem RoundTrip.fpoolPush (x : Sec) (v : BitVec 64) : RoundTrip.Statement (.fpoolPush x v) :=
  ⟨Nat.two_pow_pos 32, rfl⟩

theorem RoundTrip.fpoolPop (x : Sec) : RoundTrip.Statement (.fpoolPop x) :=
  ⟨Nat.two_pow_pos 32, rfl⟩

theorem RoundTrip.exportOpen (x : Sec) (e : Fin 4096) : RoundTrip.Statement (.exportOpen x e) :=
  ⟨Nat.two_pow_pos 32, rfl⟩

theorem RoundTrip.exportRevoke (x : Sec) (e : Fin 4096) (bump : Bool) : RoundTrip.Statement (.exportRevoke x e bump) :=
  ⟨Nat.two_pow_pos 32, rfl⟩

theorem RoundTrip.revocationDrained (x : Sec) (e : Fin 4096) : RoundTrip.Statement (.revocationDrained x e) :=
  ⟨Nat.two_pow_pos 32, rfl⟩

theorem RoundTrip.importHandleWrite (x : Sec) (slot : Fin 256) (v : BitVec 64) : RoundTrip.Statement (.importHandleWrite x slot v) :=
  ⟨Nat.two_pow_pos 32, rfl⟩

theorem RoundTrip.importQuery (x : Sec) (slot : Fin 256) : RoundTrip.Statement (.importQuery x slot) :=
  ⟨Nat.two_pow_pos 32, rfl⟩

theorem RoundTrip.controlWindowWrite (x : Sec) (off : BitVec 24) (v : BitVec 64) : RoundTrip.Statement (.controlWindowWrite x off v) :=
  ⟨Nat.two_pow_pos 32, rfl⟩

theorem RoundTrip.eccEvent (site : EccSite) (retry : EccRetry) :
    RoundTrip.Statement (.eccEvent site retry) :=
  ⟨Nat.two_pow_pos 32, rfl⟩

theorem RoundTrip.linkCrcError (l : Link) (again : Option ErrReq) :
    RoundTrip.Statement (.linkCrcError l again) :=
  ⟨Nat.two_pow_pos 32, rfl⟩

theorem RoundTrip.bridgeFence (b : Fin 6) : RoundTrip.Statement (.bridgeFence b) :=
  ⟨Nat.two_pow_pos 32, rfl⟩

theorem RoundTrip.chipletFence (x : Sec) (ch : Fin 4) : RoundTrip.Statement (.chipletFence x ch) :=
  ⟨Nat.two_pow_pos 32, rfl⟩

theorem RoundTrip.chipletAdmit (x : Sec) (ch : Fin 4) (entry : BitVec 64) : RoundTrip.Statement (.chipletAdmit x ch entry) :=
  ⟨Nat.two_pow_pos 32, rfl⟩

theorem RoundTrip.modulePowerOn : RoundTrip.Statement (.modulePowerOn) :=
  ⟨Nat.two_pow_pos 32, rfl⟩

theorem RoundTrip.sectorRelease (x : Sec) : RoundTrip.Statement (.sectorRelease x) :=
  ⟨Nat.two_pow_pos 32, rfl⟩

theorem RoundTrip.sectorResetOrderly (x : Sec) : RoundTrip.Statement (.sectorResetOrderly x) :=
  ⟨Nat.two_pow_pos 32, rfl⟩

theorem RoundTrip.sectorResetForced (x : Sec) : RoundTrip.Statement (.sectorResetForced x) :=
  ⟨Nat.two_pow_pos 32, rfl⟩

theorem RoundTrip.quiesceRequest (x : Sec) (n : Sec) : RoundTrip.Statement (.quiesceRequest x n) :=
  ⟨Nat.two_pow_pos 32, rfl⟩

theorem RoundTrip.quiesceDone (x : Sec) (n : Sec) : RoundTrip.Statement (.quiesceDone x n) :=
  ⟨Nat.two_pow_pos 32, rfl⟩

theorem RoundTrip.quiesceTimeout (x : Sec) (n : Sec) : RoundTrip.Statement (.quiesceTimeout x n) :=
  ⟨Nat.two_pow_pos 32, rfl⟩

theorem RoundTrip.hxQuote (x : Sec) : RoundTrip.Statement (.hxQuote x) :=
  ⟨Nat.two_pow_pos 32, rfl⟩

theorem RoundTrip.hxReadlog (x : Sec) : RoundTrip.Statement (.hxReadlog x) :=
  ⟨Nat.two_pow_pos 32, rfl⟩

theorem RoundTrip.hxTelem (x : Sec) : RoundTrip.Statement (.hxTelem x) :=
  ⟨Nat.two_pow_pos 32, rfl⟩

theorem RoundTrip.hxFence (x : Sec) : RoundTrip.Statement (.hxFence x) :=
  ⟨Nat.two_pow_pos 32, rfl⟩

theorem RoundTrip.hxAdmit (x : Sec) : RoundTrip.Statement (.hxAdmit x) :=
  ⟨Nat.two_pow_pos 32, rfl⟩

theorem RoundTrip.hxSreset (x : Sec) : RoundTrip.Statement (.hxSreset x) :=
  ⟨Nat.two_pow_pos 32, rfl⟩

theorem RoundTrip.hxNetcfg (x : Sec) : RoundTrip.Statement (.hxNetcfg x) :=
  ⟨Nat.two_pow_pos 32, rfl⟩

theorem RoundTrip.hxPciecfg (x : Sec) : RoundTrip.Statement (.hxPciecfg x) :=
  ⟨Nat.two_pow_pos 32, rfl⟩

theorem RoundTrip.hxPcap (x : Sec) : RoundTrip.Statement (.hxPcap x) :=
  ⟨Nat.two_pow_pos 32, rfl⟩

theorem RoundTrip.horizonResponse (x : Sec) : RoundTrip.Statement (.horizonResponse x) :=
  ⟨Nat.two_pow_pos 32, rfl⟩

theorem RoundTrip.mgmtTelemetry : RoundTrip.Statement (.mgmtTelemetry) :=
  ⟨Nat.two_pow_pos 32, rfl⟩

theorem RoundTrip.mgmtFirmware (r : FirmwareRequest) : RoundTrip.Statement (.mgmtFirmware r) :=
  ⟨Nat.two_pow_pos 32, rfl⟩

theorem RoundTrip.mgmtBootReset (x : Sec) (reset : Bool) (forced : Bool) (scrub : Bool) : RoundTrip.Statement (.mgmtBootReset x reset forced scrub) :=
  ⟨Nat.two_pow_pos 32, rfl⟩

theorem RoundTrip.mgmtFence (r : FenceRequest) : RoundTrip.Statement (.mgmtFence r) :=
  ⟨Nat.two_pow_pos 32, rfl⟩

theorem RoundTrip.mgmtPower (x : Sec) (cap : BitVec 32) : RoundTrip.Statement (.mgmtPower x cap) :=
  ⟨Nat.two_pow_pos 32, rfl⟩

theorem RoundTrip.mgmtAttestation (x : Sec) (nonce : BitVec 512) : RoundTrip.Statement (.mgmtAttestation x nonce) :=
  ⟨Nat.two_pow_pos 32, rfl⟩

theorem RoundTrip.clockStep (x : Sec) (up : Bool) : RoundTrip.Statement (.clockStep x up) :=
  ⟨Nat.two_pow_pos 32, rfl⟩

theorem RoundTrip.thermalTrip (x : Sec) : RoundTrip.Statement (.thermalTrip x) :=
  ⟨Nat.two_pow_pos 32, rfl⟩

theorem RoundTrip.railFault (sectors : List Sec) : RoundTrip.Statement (.railFault sectors) :=
  ⟨Nat.two_pow_pos 32, rfl⟩

theorem RoundTrip.rdmaWriteIn (x : Sec) (r : RdmaIn) : RoundTrip.Statement (.rdmaWriteIn x r) :=
  ⟨Nat.two_pow_pos 32, rfl⟩

theorem RoundTrip.rdmaReadIn (x : Sec) (r : RdmaIn) : RoundTrip.Statement (.rdmaReadIn x r) :=
  ⟨Nat.two_pow_pos 32, rfl⟩

theorem RoundTrip.rdmaSendIn (x : Sec) (r : RdmaIn) : RoundTrip.Statement (.rdmaSendIn x r) :=
  ⟨Nat.two_pow_pos 32, rfl⟩

theorem RoundTrip.pcieDescriptorRing (x : Sec) : RoundTrip.Statement (.pcieDescriptorRing x) :=
  ⟨Nat.two_pow_pos 32, rfl⟩

theorem RoundTrip.pcieDma (x : Sec) (r : PcieDma) : RoundTrip.Statement (.pcieDma x r) :=
  ⟨Nat.two_pow_pos 32, rfl⟩

theorem RoundTrip.pcieMessageWrite (x : Sec) (v : BitVec 64) : RoundTrip.Statement (.pcieMessageWrite x v) :=
  ⟨Nat.two_pow_pos 32, rfl⟩

theorem RoundTrip.scratchpadFlitArrive (x : Sec) (cl : Fin 96) (id : Nat) : RoundTrip.Statement (.scratchpadFlitArrive x cl id) :=
  ⟨Nat.two_pow_pos 32, rfl⟩

theorem RoundTrip.pcieCompletion (x : Sec) (slot : Nat) (status : BitVec 16) (data : List (BitVec 8)) : RoundTrip.Statement (.pcieCompletion x slot status data) :=
  ⟨Nat.two_pow_pos 32, rfl⟩

theorem RoundTrip.receiverNotReadyNak (x : Sec) (id : Nat) : RoundTrip.Statement (.receiverNotReadyNak x id) :=
  ⟨Nat.two_pow_pos 32, rfl⟩

end Sys2Proof.Laws
end

