-- ==== Sys2Proof/Certificates/Slice0/Obligations.lean ====
section
/-! DEFINITION. The statements about the model. -/

open Sys2Proof Sys2Proof.Machine

/-! ## Integer forms -/

/-- R111: every INT form writes its result, and nothing else, and goes on. R115, R116: products and quotients, with
the defined results of a division by zero and of the overflow case. R117, R118: counts, the reversed bytes and the bit
fields, each result given bit by bit. A field of position `pos` and length `len` is cut at bit 63. -/
def Obligations.IntegerForms : Prop :=
  (∀ (s : State) (sm : Bool) (d a b : Fin 16) (x y : Word), s.me.chain = [] → s.rdS a = .ok x →
    (exec (.abs sm d a) s = .next ((s.wrS d (if x.msb then 0 - x else x)).retire sm .seq) ∧
     exec (.neg sm d a) s = .next ((s.wrS d (0 - x)).retire sm .seq) ∧
     exec (.mov sm d a) s = .next ((s.wrS d x).retire sm .seq)) ∧
    (s.rdS b = .ok y →
     exec (.add sm d a b) s = .next ((s.wrS d (x + y)).retire sm .seq) ∧
     exec (.sub sm d a b) s = .next ((s.wrS d (x - y)).retire sm .seq) ∧
     exec (.addw sm d a b) s = .next ((s.wrS d (((x + y).setWidth 32).signExtend 64)).retire sm .seq) ∧
     exec (.subw sm d a b) s = .next ((s.wrS d (((x - y).setWidth 32).signExtend 64)).retire sm .seq) ∧
     exec (.and sm d a b) s = .next ((s.wrS d (x &&& y)).retire sm .seq) ∧
     exec (.or sm d a b) s = .next ((s.wrS d (x ||| y)).retire sm .seq) ∧
     exec (.xor sm d a b) s = .next ((s.wrS d (x ^^^ y)).retire sm .seq) ∧
     exec (.andn sm d a b) s = .next ((s.wrS d (x &&& ~~~y)).retire sm .seq) ∧
     exec (.shl sm d a b) s = .next ((s.wrS d (x <<< (y.setWidth 6).toNat)).retire sm .seq) ∧
     exec (.shr sm d a b) s = .next ((s.wrS d (x >>> (y.setWidth 6).toNat)).retire sm .seq) ∧
     exec (.sar sm d a b) s = .next ((s.wrS d (x.sshiftRight (y.setWidth 6).toNat)).retire sm .seq) ∧
     exec (.min sm d a b) s = .next ((s.wrS d (if x.toInt ≤ y.toInt then x else y)).retire sm .seq) ∧
     exec (.max sm d a b) s = .next ((s.wrS d (if x.toInt ≤ y.toInt then y else x)).retire sm .seq) ∧
     exec (.minu sm d a b) s = .next ((s.wrS d (if x.toNat ≤ y.toNat then x else y)).retire sm .seq) ∧
     exec (.maxu sm d a b) s = .next ((s.wrS d (if x.toNat ≤ y.toNat then y else x)).retire sm .seq) ∧
     exec (.sh1add sm d a b) s = .next ((s.wrS d ((x <<< 1) + y)).retire sm .seq) ∧
     exec (.sh2add sm d a b) s = .next ((s.wrS d ((x <<< 2) + y)).retire sm .seq) ∧
     exec (.sh3add sm d a b) s = .next ((s.wrS d ((x <<< 3) + y)).retire sm .seq))) ∧
  (∀ (s : State) (sm : Bool) (d a b : Fin 16) (x y : Word),
    s.me.chain = [] → s.rdS a = .ok x → s.rdS b = .ok y →
    exec (.mul sm d a b) s = .next ((s.wrS d (x * y)).retire sm .seq) ∧
    exec (.mulh sm d a b) s =
      .next ((s.wrS d ((x.signExtend 128 * y.signExtend 128).extractLsb' 64 64)).retire sm .seq) ∧
    exec (.mulhu sm d a b) s =
      .next ((s.wrS d ((x.setWidth 128 * y.setWidth 128).extractLsb' 64 64)).retire sm .seq) ∧
    exec (.mulw sm d a b) s =
      .next ((s.wrS d ((x.setWidth 32 * y.setWidth 32).signExtend 64)).retire sm .seq) ∧
    exec (.div sm d a b) s =
      .next ((s.wrS d (if y = 0 then BitVec.allOnes 64 else if x = BitVec.intMin 64 ∧ y = BitVec.allOnes 64 then x
        else BitVec.ofInt 64 (x.toInt.tdiv y.toInt))).retire sm .seq) ∧
    exec (.divu sm d a b) s =
      .next ((s.wrS d (if y = 0 then BitVec.allOnes 64 else x / y)).retire sm .seq) ∧
    exec (.rem sm d a b) s =
      .next ((s.wrS d (if y = 0 then x else if x = BitVec.intMin 64 ∧ y = BitVec.allOnes 64 then 0
        else BitVec.ofInt 64 (x.toInt - y.toInt * x.toInt.tdiv y.toInt))).retire sm .seq) ∧
    exec (.remu sm d a b) s =
      .next ((s.wrS d (if y = 0 then x else x - y * (x / y))).retire sm .seq)) ∧
  (∀ (s : State) (sm : Bool) (d a b : Fin 16) (x y old : Word), s.me.chain = [] → s.rdS a = .ok x →
    (exec (.clz sm d a) s = .next ((s.wrS d x.clz).retire sm .seq) ∧
     exec (.ctz sm d a) s = .next ((s.wrS d x.ctz).retire sm .seq) ∧
     exec (.popc sm d a) s =
       .next ((s.wrS d (BitVec.ofNat 64 ((List.range 64).countP fun i => x.getLsbD i))).retire sm .seq) ∧
     ∃ r : Word, exec (.bswap sm d a) s = .next ((s.wrS d r).retire sm .seq) ∧
       ∀ i, i < 8 → r.extractLsb' (8 * i) 8 = x.extractLsb' (8 * (7 - i)) 8) ∧
    (s.rdS b = .ok y → ∀ (pos len : Nat), pos = (y.setWidth 6).toNat →
      len = min (y.extractLsb' 8 7).toNat (64 - pos) →
      (∃ r : Word, exec (.bfx sm d a b) s = .next ((s.wrS d r).retire sm .seq) ∧
        ∀ i, i < 64 → r.getLsbD i = (decide (0 < len) && x.getLsbD (pos + min i (len - 1)))) ∧
      (∃ r : Word, exec (.bfxu sm d a b) s = .next ((s.wrS d r).retire sm .seq) ∧
        ∀ i, i < 64 → r.getLsbD i = (decide (i < len) && x.getLsbD (pos + i))) ∧
      (s.rdS d = .ok old →
       ∃ r : Word, exec (.bfi sm d a b) s = .next ((s.wrS d r).retire sm .seq) ∧
        ∀ i, i < 64 → r.getLsbD i = if pos ≤ i ∧ i < pos + len then x.getLsbD (i - pos) else old.getLsbD i) ∧
      ((s.me.s.get d).full = false → exec (.bfi sm d a b) s = .next (s.parkMe sm (.reg d)))))

/-- R60, R61, R112 to R114: the immediate forms take the value of their chain and field as their second operand, the
shifts an amount of the word; `ldi` reads no register. What the value of a chain and field is, stands below. R60, R61:
without a chain a field is sign- or zero-extended as its form says; with one, the payloads are the high part and the
whole is sign-extended, or cut to 64 bits. -/
def Obligations.ImmediateForms : Prop :=
  (∀ (s : State) (sm : Bool) (d a : Fin 16) (p : Fin 8) (c : Cond) (i : BitVec 17) (j : BitVec 15) (n : BitVec 6)
    (x : Word),
    exec (.ldi sm d i) s = .next ((s.wrS d (s.me.imm 17 i.toNat true)).retire sm .seq) ∧
    (s.rdS a = .ok x →
     exec (.addi sm d a i) s = .next ((s.wrS d (x + s.me.imm 17 i.toNat true)).retire sm .seq) ∧
     exec (.andi sm d a i) s = .next ((s.wrS d (x &&& s.me.imm 17 i.toNat false)).retire sm .seq) ∧
     exec (.ori sm d a i) s = .next ((s.wrS d (x ||| s.me.imm 17 i.toNat false)).retire sm .seq) ∧
     exec (.xori sm d a i) s = .next ((s.wrS d (x ^^^ s.me.imm 17 i.toNat false)).retire sm .seq) ∧
     exec (.cmpi sm p c a j) s = .next ((s.wrP p (condHolds c x (s.me.imm 15 j.toNat true))).retire sm .seq)) ∧
    (s.rdS a = .ok x → s.me.chain = [] →
     exec (.shli sm d a n) s = .next ((s.wrS d (x <<< n.toNat)).retire sm .seq) ∧
     exec (.shri sm d a n) s = .next ((s.wrS d (x >>> n.toNat)).retire sm .seq) ∧
     exec (.sari sm d a n) s = .next ((s.wrS d (x.sshiftRight n.toNat)).retire sm .seq))) ∧
  (∀ (h : Hart) (n : Nat) (v : BitVec n), 0 < n → n ≤ 25 →
    (h.chain = [] → h.imm n v.toNat true = v.signExtend 64 ∧ h.imm n v.toNat false = v.setWidth 64) ∧
    (∀ (signed : Bool) (p q r : BitVec 21),
      (h.chain = [p] → h.imm n v.toNat signed = (p ++ v).signExtend 64) ∧
      (h.chain = [p, q] → h.imm n v.toNat signed = (p ++ q ++ v).signExtend 64) ∧
      (h.chain = [p, q, r] → h.imm n v.toNat signed = (p ++ q ++ r ++ v).setWidth 64)))

/-- R119 to R121, R55: compares, tests, selections and predicate logic; p0 reads true. A form that reads a predicate
whose write is outstanding waits by interlock, without parking. R12: a write to p0 or m0 is discarded; p0 reads true
and m0 all ones, and every register reads what was written. -/
def Obligations.ComparesAndPredicates : Prop :=
  (∀ (s : State) (sm : Bool) (d a b : Fin 16) (p q r : Fin 8) (c : Cond) (x y : Word) (g h : Bool), s.me.chain = [] →
    (s.rdS a = .ok x → s.rdS b = .ok y →
     exec (.cmp sm p a b c) s = .next ((s.wrP p (match c with
       | .eq => decide (x = y)
       | .ne => decide (x ≠ y)
       | .lt => decide (x.toInt < y.toInt)
       | .ge => decide (y.toInt ≤ x.toInt)
       | .le => decide (x.toInt ≤ y.toInt)
       | .gt => decide (y.toInt < x.toInt)
       | .ltu => decide (x.toNat < y.toNat)
       | .geu => decide (y.toNat ≤ x.toNat))).retire sm .seq) ∧
     exec (.test sm p a b false) s = .next ((s.wrP p (decide (x &&& y = 0))).retire sm .seq) ∧
     exec (.test sm p a b true) s = .next ((s.wrP p (decide (x &&& y ≠ 0))).retire sm .seq) ∧
     (s.rdP q = .ok g → exec (.sel sm d a b q) s = .next ((s.wrS d (if g then x else y)).retire sm .seq))) ∧
    (s.rdP q = .ok g →
     exec (.pnot sm p q) s = .next ((s.wrP p (!g)).retire sm .seq) ∧
     (s.rdP r = .ok h →
      exec (.pand sm p q r) s = .next ((s.wrP p (g && h)).retire sm .seq) ∧
      exec (.por sm p q r) s = .next ((s.wrP p (g || h)).retire sm .seq) ∧
      exec (.pxor sm p q r) s = .next ((s.wrP p (g ^^ h)).retire sm .seq))) ∧
    ((∀ k : Fin 8, s.me.pBusy.get k = false) →
     ∃ v : Word, exec (.pget sm d) s = .next ((s.wrS d v).retire sm .seq) ∧
       ∀ i, i < 64 → v.getLsbD i = (decide (i = 0) || (decide (i < 8) && s.me.p.get (Fin.ofNat 8 i)))) ∧
    (s.rdS a = .ok x → ∃ t, exec (.pset sm a) s = .next t ∧
      (∀ k : Fin 8, k ≠ 0 → t.me.p.get k = x.getLsbD k.val) ∧ completed s t) ∧
    (q ≠ 0 → s.me.pBusy.get q = true →
     let t := s.waitMe (.pred q)
     exec (.pnot sm p q) s = .next t ∧ exec (.pand sm p q r) s = .next t ∧
     t.me.park = s.me.park ∧ ∀ (u : State) (g : Agent), (u.hart g).park = none → (u.hart g).wait = some (.pred q) →
       u.ready g = true → (u.hart g).pBusy.get q = false)) ∧
  (∀ (s : State) (k : Fin 8) (b : Bool) (v : Word),
    s.rdP 0 = .ok true ∧ s.rdM 0 = .ok (BitVec.allOnes 64) ∧ (s.wrP 0 b).me = s.me ∧ (s.wrM 0 v).me = s.me ∧
    (k ≠ 0 → (s.wrP k b).rdP k = .ok b ∧ (s.wrM k v).rdM k = .ok v))

/-! ## Branches -/

/-- R127 to R130: a branch that is taken, and every jump, goes to its checked target; the links and the decremented
counter are written on either path, from the values before the instruction. A target with bits [63:56] set, or one that
is no multiple of 4, faults, and then nothing is written; a branch that is not taken checks none. -/
def Obligations.Branches : Prop :=
  ∀ (s : State) (sm : Bool) (k a : Fin 16) (p : Fin 8) (f : BitVec 18) (g : BitVec 25) (x : Word) (c : Bool),
    let tgt := s.me.pc + 4 * s.me.imm 18 f.toNat true
    let far := s.me.pc + 4 * s.me.imm 25 g.toNat true
    let ok := fun (t : Word) => t.toNat < 2 ^ 56 ∧ t.toNat % 4 = 0
    let wrong := fun (t : Word) =>
      Host.Outcome.next (s.raise (if 2 ^ 56 ≤ t.toNat then ⟨0x16, 0, t, 0, 0⟩ else ⟨0x05, 0, t, 0, 0⟩))
    (ok tgt →
     (s.rdP p = .ok c →
      exec (.bp sm p f) s = .next (s.retire sm (if c then .jump tgt else .seq)) ∧
      exec (.bnp sm p f) s = .next (s.retire sm (if c then .seq else .jump tgt))) ∧
     (s.rdS k = .ok x →
      exec (.bz sm k f) s = .next (s.retire sm (if x = 0 then .jump tgt else .seq)) ∧
      exec (.bnz sm k f) s = .next (s.retire sm (if x = 0 then .seq else .jump tgt)) ∧
      exec (.dbnz sm k f) s = .next ((s.wrS k (x - 1)).retire sm (if x = 1 then .seq else .jump tgt)))) ∧
    (¬ ok tgt →
     (s.rdP p = .ok c →
      exec (.bp sm p f) s = (if c then wrong tgt else .next (s.retire sm .seq)) ∧
      exec (.bnp sm p f) s = (if c then .next (s.retire sm .seq) else wrong tgt)) ∧
     (s.rdS k = .ok x →
      exec (.bz sm k f) s = (if x = 0 then wrong tgt else .next (s.retire sm .seq)) ∧
      exec (.bnz sm k f) s = (if x = 0 then .next (s.retire sm .seq) else wrong tgt) ∧
      exec (.dbnz sm k f) s = (if x = 1 then .next ((s.wrS k (x - 1)).retire sm .seq) else wrong tgt))) ∧
    (ok far →
     exec (.j sm g) s = .next (s.retire sm (.jump far)) ∧
     exec (.jal sm g) s = .next ((s.wrS 15 (s.me.pc + 4)).retire sm (.jump far))) ∧
    (¬ ok far → exec (.j sm g) s = wrong far ∧ exec (.jal sm g) s = wrong far) ∧
    (s.me.chain = [] → s.rdS a = .ok x →
     (ok x →
      exec (.jr sm a) s = .next (s.retire sm (.jump x)) ∧
      exec (.jalr sm a) s = .next ((s.wrS 15 (s.me.pc + 4)).retire sm (.jump x))) ∧
     (¬ ok x → exec (.jr sm a) s = wrong x ∧ exec (.jalr sm a) s = wrong x))

/-! ## Floating point -/

/-- R131 to R134: the FP32 forms read bits [31:0], round as FMODE says, write the zero-extended result and merge the
flags; `fabs` and `fneg` touch the sign bit alone and raise no flag. R66, R68, R135 to R138: the FP64 forms on a
master core or a D core. R66, R68, R139: where a context of a core without D meets a D-extension instruction, a form
of the FPD group or a V form with an FP64 source (log entry 51, the model's reading of "operand tags"): ILL on a
cluster whose D cores are fused off, MIG with a bound accumulator, else a move to a free slot of core 6 or 7 with
nothing executed, or a park when there is none. The move carries the registers with their tags, the chain, the
bindings and the thread's names; the origin slot is kept for the vt. -/
def Obligations.FloatForms : Prop :=
  (∀ (s : State) (sm : Bool) (d a b : Fin 16) (p : Fin 8) (c : Cond) (k : FcvtKind) (x y z : Word), s.me.chain = [] →
    let r := arithRnd s.me.fmode
    let lo := fun (w : Word) => (w.setWidth 32).toNat
    s.rdS a = .ok x →
    (exec (.fabs sm d a) s = .next ((s.wrF d (lo x % 2 ^ 31, 0)).retire sm .seq) ∧
     exec (.fneg sm d a) s = .next ((s.wrF d (lo x ^^^ 2 ^ 31, 0)).retire sm .seq) ∧
     exec (.fsqrt sm d a) s = .next ((s.wrF d (fp32.sqrt r (lo x))).retire sm .seq) ∧
     (let g := cvtRnd s.me.fmode s.me.srseed
      let v := fcvtValue k g.1 x
      exec (.fcvt sm d a k) s =
        .next ((((s.modMe fun h => { h with srseed := g.2 }).addFlags v.2).wrS d v.1).retire sm .seq))) ∧
    (s.rdS b = .ok y →
     exec (.fadd sm d a b) s = .next ((s.wrF d (fp32.add r (lo x) (lo y))).retire sm .seq) ∧
     exec (.fsub sm d a b) s = .next ((s.wrF d (fp32.sub r (lo x) (lo y))).retire sm .seq) ∧
     exec (.fmul sm d a b) s = .next ((s.wrF d (fp32.mul r (lo x) (lo y))).retire sm .seq) ∧
     exec (.fdiv sm d a b) s = .next ((s.wrF d (fp32.div r (lo x) (lo y))).retire sm .seq) ∧
     exec (.fmin sm d a b) s = .next ((s.wrF d (fp32.pick false (lo x) (lo y))).retire sm .seq) ∧
     exec (.fmax sm d a b) s = .next ((s.wrF d (fp32.pick true (lo x) (lo y))).retire sm .seq) ∧
     (let q := fpCond c (fp32.decode (lo x)) (fp32.decode (lo y))
      exec (.fcmp sm p a b c) s = .next (((s.addFlags q.2).wrP p q.1).retire sm .seq)) ∧
     (s.rdS d = .ok z →
      exec (.ffma sm d a b) s = .next ((s.wrF d (fp32.fma r false false (lo x) (lo y) (lo z))).retire sm .seq)))) ∧
  (∀ (s : State) (sm : Bool) (d a b : Fin 16) (p : Fin 8) (c : Cond) (k : DcvtKind) (x y z : Word), s.me.chain = [] →
    s.onDCore → s.rdS a = .ok x →
    let r := arithRnd s.me.fmode
    (exec (.dsqrt sm d a) s = .next ((s.wrF d (fp64.sqrt r x.toNat)).retire sm .seq) ∧
     (let g := cvtRnd s.me.fmode s.me.srseed
      let v := dcvtValue k g.1 x
      exec (.dcvt sm d a k) s =
        .next ((((s.modMe fun h => { h with srseed := g.2 }).addFlags v.2).wrS d v.1).retire sm .seq))) ∧
    (s.rdS b = .ok y →
     exec (.dadd sm d a b) s = .next ((s.wrF d (fp64.add r x.toNat y.toNat)).retire sm .seq) ∧
     exec (.dsub sm d a b) s = .next ((s.wrF d (fp64.sub r x.toNat y.toNat)).retire sm .seq) ∧
     exec (.dmul sm d a b) s = .next ((s.wrF d (fp64.mul r x.toNat y.toNat)).retire sm .seq) ∧
     exec (.ddiv sm d a b) s = .next ((s.wrF d (fp64.div r x.toNat y.toNat)).retire sm .seq) ∧
     (let q := fpCond c (fp64.decode x.toNat) (fp64.decode y.toNat)
      exec (.dcmp sm p a b c) s = .next (((s.addFlags q.2).wrP p q.1).retire sm .seq)) ∧
     (s.rdS d = .ok z →
      exec (.dfma sm d a b) s = .next ((s.wrF d (fp64.fma r false false x.toNat y.toNat z.toNat)).retire sm .seq)))) ∧
  (∀ (s : State) (sm : Bool) (d a b : Fin 16) (p m : Fin 8) (c : Cond) (k : DcvtKind) (q : VClass) (e f g : VReg)
    (mk : Word) (x : Sec) (i : Fin 6144), s.me.chain = [] → s.cur = .thread x i →
    let cl := clusterOf i.val
    (((s.cluster x cl).dFused = true ∨ (coreOf i.val).val < 6) →
     let out := Host.Outcome.next (
       if (s.cluster x cl).dFused then s.raise ⟨0x01, 0, 0, 0, 0⟩
       else if (s.ctx x i.val).accBound then s.raise ⟨0x0C, 3, 0, 0, 0⟩
       else match s.freeDSlot x cl with
         | none => s.parkMe sm .dslot
         | some j => s.extMigrate x i.val j.val)
     (exec (.dadd sm d a b) s = out ∧ exec (.dsub sm d a b) s = out ∧ exec (.dmul sm d a b) s = out ∧
      exec (.ddiv sm d a b) s = out ∧ exec (.dfma sm d a b) s = out ∧ exec (.dsqrt sm d a) s = out ∧
      exec (.dcmp sm p a b c) s = out ∧ exec (.dcvt sm d a k) s = out ∧ exec (.vdfma sm d a b m) s = out) ∧
     (s.rdV a = .ok e → e.tag = .f64 → s.rdM m = .ok mk →
      (exec (.vsqrt sm d a m) s = out ∧ exec (.vrcp sm d a m) s = out ∧ exec (.vrsq sm d a m) s = out ∧
       exec (.vexp2 sm d a m) s = out ∧ exec (.vabs sm d a m) s = out ∧ exec (.vneg sm d a m) s = out ∧
       exec (.vclass sm p a m q) s = out ∧ exec (.vredadd sm d a m) s = out ∧ exec (.vredmax sm d a m) s = out ∧
       exec (.vredmin sm d a m) s = out ∧ exec (.vscan sm d a m true) s = out ∧ exec (.vscan sm d a m false) s = out ∧
       exec (.vcompress sm d a m) s = out ∧ exec (.vexpand sm d a m) s = out ∧
       exec (.vcvt sm d a p m .f32) s = out ∧ exec (.vext sm d a b) s = out ∧ exec (.vadd sm d a b m true) s = out ∧
       exec (.vmul sm d a b m true) s = out ∧ exec (.vand sm d a b m true) s = out) ∧
      (s.rdV b = .ok f → f.tag = .f64 →
       exec (.vadd sm d a b m false) s = out ∧ exec (.vsub sm d a b m false) s = out ∧
       exec (.vmul sm d a b m false) s = out ∧ exec (.vmin sm d a b m false) s = out ∧
       exec (.vmax sm d a b m false) s = out ∧ exec (.vcmp sm p a b m false c) s = out ∧
       exec (.vand sm d a b m false) s = out ∧ exec (.vor sm d a b m false) s = out ∧
       exec (.vxor sm d a b m false) s = out ∧ exec (.vandn sm d a b m false) s = out ∧
       exec (.vsel sm d a b m) s = out ∧
       (s.rdV d = .ok g → g.tag = .f64 →
        exec (.vfma sm d a b m) s = out ∧ exec (.vfms sm d a b m) s = out ∧ exec (.vfnma sm d a b m) s = out ∧
        exec (.vfnms sm d a b m) s = out)))) ∧
    (∀ j v, (coreOf i.val).val < 6 → s.freeDSlot x cl = some j → s.vtAt x i.val = some v →
     let t := s.extMigrate x i.val j.val
     let own := s.ctx x i.val
     let new := t.ctx x j.val
     clusterOf j.val = cl ∧ 6 ≤ (coreOf j.val).val ∧
     t.hart (.thread x j) = { s.me with jobCtr := (s.hart (.thread x j)).jobCtr } ∧
     t.vtAt x j.val = some v ∧ new.vtn = own.vtn ∧ new.sph = own.sph ∧ new.homec = own.homec ∧
     new.cirrus = own.cirrus ∧ new.digest = own.digest ∧ new.mxcfg = own.mxcfg ∧ new.extFrom = some i.val ∧
     t.vtAt x i.val = none ∧ (t.ctx x i.val).reserved = some v ∧ (t.ctx x i.val).seq = own.seq))

/-! ## Exact rounding -/

/-- R93, R94, R102, R103: every floating-point result is the exact value rounded once: a number to a format, a sum, a
product, a quotient, a fused product and sum, a sum of lanes; and a matrix element takes each group's exact scaled sum
in one rounding to the nearest. A group without a stored product adds nothing; a NaN element or a scale code 0xFF
makes the element the canonical NaN (which flags such a group sets beside another NaN is the model's choice, log entry
109), and infinite products of both signs do so with NV. -/
def Obligations.ExactRounding : Prop :=
  (∀ f ∈ [fp64, fp32, bf16, fp16, e5m2, e4m3], ∀ (r : Rnd) (a b c : Nat) (na nb nc : Bool) (ma mb mc : Nat)
     (ea eb ec h : Int),
    f.Rounds r.mode na ma ea 1 (f.round r (.fin na ma ea)) ∧
    (f.decode a = .fin na ma ea → f.decode b = .fin nb mb eb →
     f.Rounds r.mode (na != nb) (ma * mb) (ea + eb) 1 (f.mul r a b) ∧
     (mb ≠ 0 → f.Rounds r.mode (na != nb) ma (ea - eb) mb (f.div r a b)) ∧
     (∀ u v, (f.decode a).units h = some u → (f.decode b).units h = some v →
      f.Rounds r.mode (decide (u + v < 0)) (u + v).natAbs h 1 (f.add r a b) ∧
      f.Rounds r.mode (decide (u - v < 0)) (u - v).natAbs h 1 (f.sub r a b)) ∧
     (f.decode c = .fin nc mc ec → ∀ (negP negC : Bool) (u v : Int),
      (Machine.Num.fin (na != nb) (ma * mb) (ea + eb)).units h = some u → (Machine.Num.fin nc mc ec).units h = some v →
      let w := (if negP then -u else u) + (if negC then -v else v)
      f.Rounds r.mode (decide (w < 0)) w.natAbs h 1 (f.fma r negP negC a b c))) ∧
    (∀ (xs : List Nat) (us : List Int), (xs.map fun x => (f.decode x).units h) = us.map some →
     f.Rounds r.mode (decide (us.sum < 0)) us.sum.natAbs h 1 (f.sum r xs))) ∧
  (∀ (xs ys : List Machine.Num) (sa sb : Nat) (acc : Nat × Nat) (h u : Int) (vs : List Int), xs ≠ [] →
    xs.length = ys.length →
    let g := groupSum (xs.map some) (ys.map some) sa sb
    (sa < 255 → sb < 255 → (fp32.decode acc.1).units h = some u →
     ((xs.zip ys).map fun p => ((Machine.Num.mul p.1 p.2).1.scale ((sa : Int) - 127 + (sb : Int) - 127)).units h) = vs.map some →
     ∃ r, fp32.Rounds .rne (decide (u + vs.sum < 0)) (u + vs.sum).natAbs h 1 r ∧
       addGroup acc g = (r.1, r.2 ||| acc.2)) ∧
    (groupSum (xs.map fun _ => none) (ys.map some) sa sb = none ∧ addGroup acc none = acc) ∧
    ((∃ n ∈ xs ++ ys, n.isNan = true) ∨ sa = 255 ∨ sb = 255 → (addGroup acc g).1 = 0x7FC00000) ∧
    ((∀ n ∈ xs ++ ys, n.isNan = false) → sa < 255 → sb < 255 →
     (∃ p ∈ xs.zip ys, (Machine.Num.mul p.1 p.2).1 = .inf false) → (∃ p ∈ xs.zip ys, (Machine.Num.mul p.1 p.2).1 = .inf true) →
     (addGroup acc g).1 = 0x7FC00000 ∧ (addGroup acc g).2 / 16 % 2 = 1))

/-! ## Loads, stores, atomics -/

/-- R122 to R125, R334: a load from the own scratchpad, and one from a line that the LLC or the master core's own copy
holds, completes with the bytes at the address, least significant first, zero- or sign-extended; the base is not
changed. A load with an acquire order waits, without parking, until the agent's earlier releases have been accepted
(R311; the form of the wait is log entry 99). R22, R126, R170, R311: a store to the own scratchpad writes its bytes
and makes its words full; one to a held line writes the line and the master core's own copy (R334); one through
another cluster's window is a push, and one through the register window a deposit, that is in flight until its cluster
accepts it. A store with an order waits, without parking, until the agent's earlier accesses have been accepted, and
performs then (log entries 10 and 99: the wait, and the access at its home within its step, are the model's forms of
R311). A write to scratchpad words serves the contexts parked on them in the same step (R148). R46, R125: an address
that names nothing raises ADR, and a misaligned one ALN, before any other check; EADDR is the address, and nothing is
loaded or stored. -/
def Obligations.LoadsAndStores : Prop :=
  (∀ (s : State) (sm : Bool) (d a : Fin 16) (z : Size) (u : Bool) (o : MOrd) (f : BitVec 12) (base : Word),
    s.rdS a = .ok base →
    let ea := s.memEa base z f
    let n := sizeBytes z
    let acquires := o = .sector ∨ o = .package
    let out := fun (t : State) (bs : List Byte) =>
      let q := t.loadOrder o ea bs
      (q.2.wrS d (if u then BitVec.ofNat 64 (leNat q.1) else sextNat (8 * n) (leNat q.1))).retire sm .seq
    (¬(acquires ∧ s.releaseOpen s.cur = true) →
     (∀ cl off, s.ownSpad ea n cl off →
      exec (.ld sm d a z u o f) s =
        .next (out (s.channelRead (secOf s.cur) cl off n) (s.spadBytes (secOf s.cur) cl off n))) ∧
     (∀ l, s.heldLine ea n .read (o != .ro) l →
      exec (.ld sm d a z u o f) s =
        .next (out (s.afterRead (s.myLine ea)) (slice (s.seenLine (s.myLine ea) l) (ea.toNat % 128) n)))) ∧
    (acquires → s.releaseOpen s.cur = true → exec (.ld sm d a z u o f) s = .next (s.waitMe .releases))) ∧
  (∀ (s : State) (sm : Bool) (d a : Fin 16) (z : Size) (o : MOrd) (f : BitVec 12) (base v : Word),
    s.rdS a = .ok base → s.rdS d = .ok v →
    let ea := s.memEa base z f
    let n := sizeBytes z
    let bs := leBytes n v.toNat
    (o ≠ .rlx → s.drained s.cur = false → exec (.st sm d a z o f) s = .next (s.waitMe (.drain false))) ∧
    (o = .rlx ∨ s.drained s.cur = true →
     (∀ cl off, placeOf s.cur ea.toNat n = .ok (.spad cl off) → ea.toNat % n = 0 → clusterOfAgent s.cur = some cl →
      exec (.st sm d a z o f) s = .next ((s.spadWrite (secOf s.cur) cl off bs).retire sm .seq)) ∧
     (∀ l, s.heldLine ea n .write true l →
      exec (.st sm d a z o f) s = .next ((s.afterWrite ea bs).retire sm .seq)) ∧
     (∀ cl off, placeOf s.cur ea.toNat n = .ok (.spad cl off) → ea.toNat % n = 0 → clusterOfAgent s.cur ≠ some cl →
      s.me.tx = none →
      exec (.st sm d a z o f) s =
        .next ((s.sendAs (secOf s.cur) cl (s.actor s.cur 0) (.push off bs) (o != .rlx)).retire sm .seq)) ∧
     (∀ c r, placeOf s.cur ea.toNat n = .ok (.reg c r) → ea.toNat % 8 = 0 → s.me.tx = none → z = .d →
      exec (.st sm d a z o f) s =
        .next ((s.sendTo (secOf s.cur) (clusterOf c.val) (s.actor s.cur 0) (.deposit c r v)).retire sm .seq)))) ∧
  (∀ (s : State) (sm : Bool) (d a : Fin 16) (z : Size) (u : Bool) (o : MOrd) (f : BitVec 12) (base v : Word),
    s.rdS a = .ok base → s.rdS d = .ok v → o = .rlx ∨ s.drained s.cur = true →
    let ea := s.memEa base z f
    let n := sizeBytes z
    (∀ e, placeOf s.cur ea.toNat n = .error e → e = ⟨0x16, 0, ea, 0, 0⟩ ∧
      exec (.ld sm d a z u o f) s = .next (s.raise e) ∧ exec (.st sm d a z o f) s = .next (s.raise e)) ∧
    (∀ p, placeOf s.cur ea.toNat n = .ok p → ea.toNat % n ≠ 0 →
      exec (.ld sm d a z u o f) s = .next (s.raise ⟨0x05, 0, ea, 0, 0⟩) ∧
      exec (.st sm d a z o f) s = .next (s.raise ⟨0x05, 0, ea, 0, 0⟩)))

/-- R330, R339 to R345: a miss of the LLC translates the page and fills the line. Without a cached translation the
walk reads an entry at each of its four levels, from the root of the address space; the leaf gives the frame and the
bits, and is cached, and a missing one, at any level, is no mapping. The line that an access fills holds the frame's
128 bytes and the leaf's bits, and is clean; in a set with room every other line stays, and in a full set one of the
lines that are not pinned goes (R331). A dirty victim is written to its frame; one without a mapping is lost (log
entry 69). A load or store that misses then completes as at a held line. R46, R126, R302, R320, R341 to R343, R347,
R357, R388, R408: the faults of an aligned load or store beyond ADR and ALN. Outside the leases a thread context
raises LSE; a page that cannot be translated, or whose bits deny the access, raises PGF on a master core and LSE on a
thread context, with the subcause; a poisoned line raises MCE; a sealed line refuses a store with SEAL; a checked
access that races raises RACE; a peer window whose slot, range or permissions fail raises PEER with the subcause, and
no export entry is looked at; a load of another cluster's scratchpad, or of a register window, raises REMR. EADDR is
the address, and nothing is loaded or stored. R173 to R175: inside a transaction a load of application space puts its
line into the read set and sees the transaction's own writes over the line's bytes; a store puts its line into the
write set and its bytes into the transaction's buffer, aborting the transactions that read the line, and memory and
the line stay as they were. Where another transaction writes the line, the transaction aborts with CONFLICT; with 256
lines read it aborts with RCAP at the next, and with 64 written with WCAP. -/
def Obligations.AccessPaths : Prop :=
  ((∀ (s : State) (x : Sec) (asid : BitVec 16) (va : Nat),
    let r := Sparse.get (Root.reset asid.toNat) (s.sec x).roots asid.toNat
    let table := fun (e : Nat) => pteKind e = 1 ∧ pteRes0 e = false
    (∀ t, s.tlbHit x asid va = some t → s.translate x asid va = .ok (t, s)) ∧
    (s.tlbHit x asid va = none → s.sealAt x asid va = none →
     (r.v = false → s.translate x asid va = .error (.page 1)) ∧
     (r.v = true → ∀ e0, s.pte x r.root (va / 2 ^ 55 % 2) = .ok e0 →
      (pteKind e0 = 0 → s.translate x asid va = .error (.page 1)) ∧
      (table e0 → ∀ e1, s.tableEntryAt x asid va 1 (ptePa e0) (va / 2 ^ 42 % 2 ^ 13) = .ok e1 →
       (pteKind e1 = 0 → s.translate x asid va = .error (.page 1)) ∧
       (table e1 → ∀ e2, s.tableEntryAt x asid va 2 (ptePa e1) (va / 2 ^ 29 % 2 ^ 13) = .ok e2 →
        (pteKind e2 = 0 → s.translate x asid va = .error (.page 1)) ∧
        (pteKind e2 = 2 → ∀ t, leafOf e2 va true = .ok t →
         ∃ u t', s.translate x asid va = .ok (t, u) ∧ u.mem = s.mem ∧ u.tlbHit x asid va = some t' ∧
           t'.pa = t.pa ∧ t'.perm = t.perm ∧ t'.block = t.block) ∧
        (table e2 → ∀ e3, s.pte x (ptePa e2) (va / 2 ^ 16 % 2 ^ 13) = .ok e3 →
         (pteKind e3 = 0 → s.translate x asid va = .error (.page 1)) ∧
         (pteKind e3 = 2 →
          (∀ t, leafOf e3 va false = .ok t →
           ∃ u t', s.translate x asid va = .ok (t, u) ∧ u.mem = s.mem ∧ u.tlbHit x asid va = some t' ∧
             t'.pa = t.pa ∧ t'.perm = t.perm) ∧
          (∀ sub, leafOf e3 va false = .error sub → s.translate x asid va = .error (.page sub))))))))) ∧
  (∀ (s s1 : State) (x : Sec) (asid : BitVec 16) (va : Nat) (a : Acc) (t : Tlb),
    s.line (lineKey x asid va) = none → s.translate x asid va = .ok (t, s1) →
    (a.permits t.perm = false → s.locate x asid va a false = .error (.page 2)) ∧
    (a.permits t.perm = true → t.perm.nc = true → s.locate x asid va a false = .ok (.nc (t.addr va) t, s1)) ∧
    (a.permits t.perm = true → t.perm.nc = false →
     let k := lineKey x asid va
     let filled := fun (u : State) => ∃ l, u.line k = some l ∧ l.data = s1.readPhys x (t.addr (va / 128 * 128)) 128 ∧
       l.dirty = false ∧ l.perm = t.perm ∧ l.poison = s1.poisoned x (t.addr (va / 128 * 128))
     ((s1.setLines k).length < 16 →
      ∃ u, s.locate x asid va a false = .ok (.line k, u) ∧ filled u ∧ ∀ j, j ≠ k → u.line j = s.line j) ∧
     (16 ≤ (s1.setLines k).length →
      (∀ s2, s1.evictOne 16 ((s1.setLines k).filter fun e => !s1.pinned e.1) = some s2 →
       ∃ u, s.locate x asid va a false = .ok (.line k, u) ∧ filled u ∧ ∀ j, j ≠ k → u.line j = s2.line j) ∧
      (s1.evictOne 16 ((s1.setLines k).filter fun e => !s1.pinned e.1) = none →
       s.locate x asid va a false = .error .busy)))) ∧
  (∀ (s : State) (k : Nat) (l : Line), s.line k = some l →
    (s.evict k).line k = none ∨ ((s.evict k).line k = some l ∧ l.dirty = true)) ∧
  (∀ (s s1 : State) (k : Nat) (l : Line) (t : Tlb), s.line k = some l → l.dirty = true → l.data.length = 128 →
    (s.marksOf k).empty = true → s.translate (lineSec k) (lineAsid k) (lineVa k) = .ok (t, s1) →
    ((s1.sec (lineSec k)).badDevice.contains (t.addr (lineVa k) / 128) = false →
     (s.evict k).line k = none ∧ (s.evict k).readPhys (lineSec k) (t.addr (lineVa k)) 128 = l.data)) ∧
  (∀ (s : State) (sm : Bool) (d a : Fin 16) (z : Size) (un : Bool) (o : MOrd) (f : BitVec 12) (base v : Word) (l : Line)
    (u : State), s.rdS a = .ok base →
    let ea := s.memEa base z f
    let n := sizeBytes z
    let x := secOf s.cur
    let asid := s.asidOf s.cur
    (s.releaseOpen s.cur = false ∨ o = .rlx ∨ o = .ro → s.missedLine ea n .read (o != .ro) l u →
     let q := (u.cached s.cur (s.myLine ea) false).loadOrder o ea (slice l.data (ea.toNat % 128) n)
     exec (.ld sm d a z un o f) s =
       .next ((q.2.wrS d (if un then BitVec.ofNat 64 (leNat q.1) else sextNat (8 * n) (leNat q.1))).retire sm .seq)) ∧
    (o = .rlx ∨ s.drained s.cur = true → s.rdS d = .ok v → s.missedLine ea n .write true l u →
     u.sealAt x asid ea.toNat = none →
     exec (.st sm d a z o f) s =
       .next ((u.putBytes x asid ea.toNat (.line (s.myLine ea)) (leBytes n v.toNat)).retire sm .seq)))) ∧
  (∀ (s : State) (sm : Bool) (d a : Fin 16) (z : Size) (un : Bool) (o : MOrd) (f : BitVec 12) (base v : Word),
    s.rdS a = .ok base → s.rdS d = .ok v → o = .rlx ∨ (s.drained s.cur = true ∧ s.releaseOpen s.cur = false) →
    s.me.tx = none →
    let ea := s.memEa base z f
    let n := sizeBytes z
    let x := secOf s.cur
    let asid := s.asidOf s.cur
    let k := s.myLine ea
    let ld := exec (.ld sm d a z un o f) s
    let st := exec (.st sm d a z o f) s
    let flt := fun (cause sub : Nat) => Host.Outcome.next (s.raise ⟨cause, sub, ea, 0, 0⟩)
    ea.toNat % n = 0 →
    (∀ va, placeOf s.cur ea.toNat n = .ok (.app va) →
     (∀ i, s.cur = .thread x i →
      (match s.instOf s.cur with
       | some q => leaseHolds q.leases ea.toNat n
       | none => false) = false → ld = flt 7 5 ∧ st = flt 7 5) ∧
     (s.leaseCheck s.cur ea.toNat n = .ok () →
      (∀ sub, s.line k = none → s.ownCopy s.cur k = none → s.controlAt s.cur ea.toNat = none →
       (s.marksOf k).writer = none → (s.marksOf k).readers = [] → s.translate x asid ea.toNat = .error (.page sub) →
       ld = flt (if isMaster s.cur then 6 else 7) sub ∧ st = flt (if isMaster s.cur then 6 else 7) sub) ∧
      (∀ l, s.line k = some l → s.ownCopy s.cur k = none → (s.marksOf k).writer = none → (s.marksOf k).readers = [] →
       ((s.acc s.cur .read (o != .ro)).permits l.perm = false → ld = flt (if isMaster s.cur then 6 else 7) 2) ∧
       ((s.acc s.cur .write true).permits l.perm = false → st = flt (if isMaster s.cur then 6 else 7) 2) ∧
       ((s.acc s.cur .read (o != .ro)).permits l.perm = true →
        ((s.acc s.cur .read (o != .ro)).race = none → l.poison = true → ld = flt 0x13 3) ∧
        (∀ w, (s.acc s.cur .read (o != .ro)).race = some w →
         raceLine (s.marksOf k) w false (granulesOf (ea.toNat % 128) n) = none → ld = flt 8 2)) ∧
       ((s.acc s.cur .write true).permits l.perm = true →
        ((s.sealAt x asid ea.toNat).isSome = true → st = flt 0xF 0) ∧
        (s.sealAt x asid ea.toNat = none → ∀ w, (s.acc s.cur .write true).race = some w →
         raceLine (s.marksOf k) w true (granulesOf (ea.toNat % 128) n) = none → st = flt 8 1))))) ∧
    (∀ slot off, placeOf s.cur ea.toNat n = .ok (.peer slot off) →
     let i := s.import_ x slot
     (∀ sub, s.peerCheck x slot off n .read = .error sub → ld = flt 0xE sub) ∧
     (∀ sub, s.peerCheck x slot off n .write = .error sub → st = flt 0xE sub) ∧
     (i.valid = false → i.err = false → ld = flt 0xE 1 ∧ st = flt 0xE 1) ∧
     (i.valid = true → i.len < off + n → ld = flt 0xE 2 ∧ st = flt 0xE 2) ∧
     (i.valid = true → off + n ≤ i.len → (i.rd = false → ld = flt 0xE 3) ∧ (i.wr = false → st = flt 0xE 3))) ∧
    (∀ cl off, placeOf s.cur ea.toNat n = .ok (.spad cl off) → clusterOfAgent s.cur ≠ some cl → ld = flt 0xD 0) ∧
    (∀ c r, placeOf s.cur ea.toNat n = .ok (.reg c r) → ld = flt 0xD 0)) ∧
  (∀ (s : State) (sm : Bool) (d a : Fin 16) (z : Size) (un : Bool) (o : MOrd) (f : BitVec 12) (base v : Word) (t : Tx)
    (l : Line), s.rdS a = .ok base → s.rdS d = .ok v → o = .rlx ∨ (s.drained s.cur = true ∧ s.releaseOpen s.cur = false) →
    s.me.tx = some t →
    let ea := s.memEa base z f
    let n := sizeBytes z
    let x := secOf s.cur
    let asid := s.asidOf s.cur
    let k := s.myLine ea
    let ld := exec (.ld sm d a z un o f) s
    let st := exec (.st sm d a z o f) s
    let stop := fun (cause : Nat) => Host.Outcome.next (s.abortMe sm cause 0)
    ea.toNat % n = 0 → ea.toNat + n ≤ 2 ^ 56 → s.leaseCheck s.cur ea.toNat n = .ok () → s.line k = some l →
    s.ownCopy s.cur k = none →
    ((s.acc s.cur .read false).permits l.perm = true → l.poison = false →
     let out := fun (u : State) =>
       let q := u.loadOrder o ea (overlay t.buf (vaKey asid ea.toNat) (slice l.data (ea.toNat % 128) n))
       Host.Outcome.next ((q.2.wrS d (if un then BitVec.ofNat 64 (leNat q.1) else sextNat (8 * n) (leNat q.1))).retire
         sm .seq)
     ((s.marksOf k).writer.isSome = true → (s.marksOf k).writer ≠ some s.cur → ld = stop 1) ∧
     ((s.marksOf k).writer = none ∨ (s.marksOf k).writer = some s.cur →
      (t.reads.contains k = true → ld = out (s.touch k)) ∧
      (t.reads.contains k = false →
       (256 ≤ t.reads.length → ld = stop 3) ∧
       (t.reads.length < 256 →
        ld = out (((s.touch k).setMarks k { s.marksOf k with readers := (s.marksOf k).readers ++ [s.cur] }).modMe
          fun h => { h with tx := some { t with reads := t.reads ++ [k] } }))))) ∧
    ((s.acc s.cur .write false).permits l.perm = true → s.sealAt x asid ea.toNat = none →
     ((s.marksOf k).writer.isSome = true → (s.marksOf k).writer ≠ some s.cur → st = stop 1) ∧
     ((s.marksOf k).writer = none ∨ (s.marksOf k).writer = some s.cur → (s.marksOf k).readers.all (· == s.cur) = true →
      (t.writes.contains k = false → 64 ≤ t.writes.length → st = stop 2) ∧
      (t.writes.contains k = true ∨ t.writes.length < 64 →
       ∃ u : State, st = .next (u.retire sm .seq) ∧ u.mem = s.mem ∧ (u.line k).map (·.data) = some l.data ∧
         u.me.tx = some { t with writes := if t.writes.contains k then t.writes else t.writes ++ [k]
                                 buf := bufPut t.buf (vaKey asid ea.toNat) (leBytes n v.toNat) } ∧
         (t.writes.contains k = false → (u.marksOf k).writer = some s.cur)))))

/-- R143 to R145, R105, R106: an atomic on `n` bytes, 4 or 8, at any address that is a multiple of `n`, replaces the
value at its home by a function of it and of S[B], indivisibly, and answers the old value: sign-extended from its
width, and zero-extended from the FP32 forms. -/
def Obligations.Atomics : Prop :=
  ∀ (s : State) (sm : Bool) (d a b : Fin 16) (sc : Scope) (o : Order) (n : Nat) (ea x x' : Word),
    s.me.chain = [] → s.me.tx = none → s.rdS a = .ok ea → s.rdS b = .ok x →
    (isRel o = true → s.drained s.cur = true) → (isAcq o = true → s.releaseOpen s.cur = false) →
    let done := fun (t : State) (v : Word) => Host.Outcome.next (((if isAcq o then t.acquired else t).wrS d v).retire sm .seq)
    ∀ go : (Nat → Nat) → Nat × State,
    ((∃ cl off, s.ownSpad ea n cl off ∧ go = fun f =>
        (leNat (s.spadBytes (secOf s.cur) cl off n),
          (s.channelRead (secOf s.cur) cl off n).spadWrite (secOf s.cur) cl off
            (leBytes n (f (leNat (s.spadBytes (secOf s.cur) cl off n)))))) ∨
     (∃ l, s.heldLine ea n .atomic false l ∧ go = fun f =>
        (leNat (slice l.data (ea.toNat % 128) n),
          s.afterWrite ea (leBytes n (f (leNat (slice l.data (ea.toNat % 128) n))))))) →
    (∀ wide : Bool, n = (if wide then 8 else 4) →
     let m := 2 ^ (8 * n)
     let v := x.toNat % m
     let run := fun (f : Nat → Nat) => done (go fun old => f old % m).2 (sextNat (8 * n) (go fun old => f old % m).1)
     exec (.aadd sm d a b sc o wide) s = run (fun old => old + v) ∧
     exec (.aand sm d a b sc o wide) s = run (fun old => old &&& v) ∧
     exec (.aor sm d a b sc o wide) s = run (fun old => old ||| v) ∧
     exec (.axor sm d a b sc o wide) s = run (fun old => old ^^^ v) ∧
     exec (.amin sm d a b sc o wide) s = run (fun old => if signedOf (8 * n) v < signedOf (8 * n) old then v else old) ∧
     exec (.amax sm d a b sc o wide) s = run (fun old => if signedOf (8 * n) old < signedOf (8 * n) v then v else old) ∧
     exec (.aminu sm d a b sc o wide) s = run (fun old => min v old) ∧
     exec (.amaxu sm d a b sc o wide) s = run (fun old => max v old) ∧
     exec (.aswp sm d a b sc o wide) s = run (fun _ => v) ∧
     exec (.aincb sm d a b sc o wide) s = run (fun old => if old < v then old + 1 else old) ∧
     (s.rdS (succ16 b) = .ok x' →
      exec (.acas sm d a b sc o wide) s =
        done (go fun old => if old = v then x'.toNat % m else old).2
          (sextNat (8 * n) (go fun old => if old = v then x'.toNat % m else old).1))) ∧
    (n = 4 →
     let runF := fun (f : Nat → Nat) => done (go f).2 (word (go f).1)
     exec (.afadd sm d a b sc o) s = runF (fun old => (fp32.add rneRnd old (x.toNat % 2 ^ 32)).1) ∧
     exec (.afmax sm d a b sc o) s = runF (fun old => (fp32.pick true old (x.toNat % 2 ^ 32)).1))

/-! ## Full and empty -/

/-- The full/empty forms of a thread context at its own scratchpad (R146 to R148): a load of a full word, a store to
an empty one, and the forms that never wait; and where a form waits: for the word (R148), parked, or, as an acquire,
without parking, for the agent's earlier releases (R311; the form of the wait is log entry 99). A form also parks
behind one parked on the word before it that the word's state allows and that waits for a watermark (R24, R148). Where
no context is parked on the words of a group, `fen` empties the words that its mask selects and no other; a context
parked on a word is served in the step that changes the word's state, in the order of parking. R149: `remp` makes a
register without an outstanding write empty; a deposit that waits at the register lands next; a later read parks; with
a write outstanding the instruction waits for it by interlock, without parking. On a master core it raises ILL. -/
def Obligations.FullEmpty : Prop :=
  (∀ (s : State) (sm : Bool) (d a b : Fin 16) (x : Sec) (i : Fin 6144) (cl : Fin 96) (off : Nat) (ea v : Word),
    s.me.chain = [] → s.cur = .thread x i → s.rdS a = .ok ea →
    (s.fePlace x i ea 8 = .ok (cl, off) → s.releaseOpen s.cur = true →
     exec (.ldff sm d a) s = .next (s.waitMe .releases) ∧ exec (.ldfe sm d a) s = .next (s.waitMe .releases)) ∧
    (s.fePlace x i ea 8 = .ok (cl, off) → s.releaseOpen s.cur = false →
     (s.spadFull x cl off = true → s.feBehind x cl off = false → s.belowMark x cl off 8 = false →
      s.spadBad x cl off 8 = false →
      let val := BitVec.ofNat 64 (leNat (s.spadBytes x cl off 8))
      exec (.ldff sm d a) s = .next ((s.acquired.wrS d val).retire sm .seq) ∧
      exec (.ldfe sm d a) s = .next (((s.setFull x cl off false).acquired.wrS d val).retire sm .seq)) ∧
     (s.spadFull x cl off = false ∨ s.feBehind x cl off = true →
      exec (.ldff sm d a) s = .next (s.parkMe sm (.fe (spadWord x cl off) .ldff d (s.cluster x cl).parkOrder)) ∧
      exec (.ldfe sm d a) s = .next (s.parkMe sm (.fe (spadWord x cl off) .ldfe d (s.cluster x cl).parkOrder))) ∧
     (s.rdS d = .ok v → s.drained s.cur = true →
      exec (.stef sm d a) s = .next ((s.spadWrite x cl off (leBytes 8 v.toNat)).retire sm .seq) ∧
      (s.spadFull x cl off = false →
       exec (.stfe sm d a) s = .next ((s.spadWrite x cl off (leBytes 8 v.toNat)).retire sm .seq)) ∧
      (s.spadFull x cl off = true →
       exec (.stfe sm d a) s =
         .next (s.parkMe sm (.fe (spadWord x cl off) .stfe d (s.cluster x cl).parkOrder))))) ∧
    (s.fePlace x i ea 512 = .ok (cl, off) →
     (∃ w : Word, exec (.fstat sm d a) s = .next ((s.wrS d w).retire sm .seq) ∧
       ∀ k, k < 64 → w.getLsbD k = s.spadFull x cl (off + 8 * k)) ∧
     (s.rdS b = .ok v → exec (.fen sm a b) s = .next ((s.emptyGroup x cl off v).retire sm .seq) ∧
       ((∀ k, k < 64 → s.feCount (spadWord x cl (off + 8 * k)) = 0) →
        ∀ k, k < 64 → (s.emptyGroup x cl off v).spadFull x cl (off + 8 * k) =
         (s.spadFull x cl (off + 8 * k) && !v.getLsbD k)))) ∧
    (∀ (t : State) (n : Nat) (g : Agent) (r : Fin 16), t.feNext x cl off = some (n, g, .stfe, r) → t.feCount (spadWord x cl off) = 1 →
     t.feSettle x cl off = (t.completeParked g id).spadFill x cl off (leBytes 8 ((t.hart g).s.get r).val.toNat)) ∧
    (∀ (t : State) (n : Nat) (g : Agent) (r : Fin 16), t.feNext x cl off = some (n, g, .ldfe, r) → t.feCount (spadWord x cl off) = 1 →
     t.belowMark x cl off 8 = false → t.spadBad x cl off 8 = false →
     let w := word (leNat (t.spadBytes x cl off 8))
     t.feSettle x cl off =
       (t.completeParked g fun h => { h.putS r w with roSeq := t.wseq }).putFull x cl off false)) ∧
  (∀ (s : State) (sm : Bool) (d : Fin 16), s.me.chain = [] →
    (∀ x i, s.cur = .thread x i →
     ((s.me.s.get d).claimed = true → exec (.remp sm d) s = .next (s.waitMe (.result d))) ∧
     ((s.me.s.get d).claimed = false → ∃ t, exec (.remp sm d) s = .next t ∧ completed s t ∧
       (t.me.s.get d).full = false ∧ t.rdS d = .error (.park (.reg d)) ∧
       (∀ r, r ≠ d → t.me.s.get r = s.me.s.get r) ∧
       ∀ id, s.depositDue x i d = some id → .depositLand id ∈ t.agenda)) ∧
    (∀ x n, s.cur = .master x n → exec (.remp sm d) s = .next (s.raise ⟨0x01, 0, 0, 0, 0⟩)))

/-! ## Ordering, transactions, hints -/

/-- R51, R169, R170: a fence completes when the earlier accesses of the agent have been accepted and waits until then,
whatever its order (for acquire fences log entry 47, the model's reading); `fwait` waits for the agent's stores,
pushes and deposits; neither parks (log entry 99); `fpush` orders pushes without waiting. R61 to R65: a prefix joins
the chain and a fourth raises ILL; the hints of other kinds complete without effect on a register but the request
class; `hmu` raises HMU with its kind; and an instruction that takes no immediate raises ILL behind a prefix (R62). -/
def Obligations.FencesAndHints : Prop :=
  (∀ (s : State) (sm : Bool) (c : Scope) (o : Order), s.me.chain = [] →
    (o ≠ .rlx →
     (s.drained s.cur = true → exec (.fence sm c o) s =
       .next ((if isAcq o then s.noteFence.acquired else s.noteFence).retire sm .seq)) ∧
     (s.drained s.cur = false → exec (.fence sm c o) s = .next (s.waitMe (.drain false)))) ∧
    (s.storesDone s.cur = true → exec (.fwait sm) s = .next (s.retire sm .seq)) ∧
    (s.storesDone s.cur = false → exec (.fwait sm) s = .next (s.waitMe .stores)) ∧
    exec (.fpush sm) s = .next ((s.modMe fun h => { h with pushEpoch := h.pushEpoch + 1 }).retire sm .seq)) ∧
  (∀ (s : State) (i p : BitVec 21) (c : Fin 4) (x : BitVec 19) (y : BitVec 15) (r k : Fin 16) (m : BitVec 5)
    (z : BitVec 16) (e : Instr),
    (s.me.chain.length < 3 → exec (.himm i) s = .next (s.modMe fun h =>
      { h with chain := h.chain ++ [i], chainPc := if h.chain = [] then h.pc else h.chainPc, pc := h.pc + 4
               instret := h.instret + 1 })) ∧
    (3 ≤ s.me.chain.length → exec (.himm i) s = .next (s.raise ⟨0x01, 0, 0, 0, 0⟩)) ∧
    (s.me.chain = [] →
     exec (.hbr c x) s = .next (s.retire false .seq) ∧
     exec (.hintReserved k p) s = .next (s.retire false .seq) ∧
     exec (.hpri x c) s = .next ((s.modMe fun h => { h with hpri := c }).retire false .seq) ∧
     exec (.hmu m z) s = .next (s.raise ⟨0x02, m.toNat, 0, 0, 0⟩) ∧
     exec (.hloc r c y) s = .next ((match (if (s.me.s.get r).full then s.hintLine s.cur (s.valS r) else none) with
       | some l => s.setClass l (hintClass c)
       | none => s).retire false .seq)) ∧
    (s.me.chain ≠ [] → wordSpace e = .cpu → takesChain e = false → exec e s = .next (s.raise ⟨0x01, 0, 0, 0, 0⟩)))

/-- R172, R175: the outermost `xbeg` takes a checkpoint of the s registers and predicates and writes 0; an inner one
counts; the last `xcom` commits once the agent's earlier accesses have been accepted (it is a release; the form of the
wait is log entry 99), an inner one counts back, and one outside a transaction does nothing; `xabt` aborts with the
low byte of its register, and outside a transaction does nothing. An eighth level aborts with cause NEST. The wait for
outstanding writes of the s registers before the checkpoint is log entry 48, the model's reading. R172, R175: an abort
restores the checkpoint, writes the code (depth, retry bit, detail and cause) to the outermost destination and goes on
behind the outermost `xbeg`; the vector, mask and tile-predicate registers that were written are void, and the others
keep their values (an empty register is restored empty, log entry 48). No byte of memory changes but in the entries of
the access-tag spill store (R333). -/
def Obligations.Transactions : Prop :=
  (∀ (s : State) (sm : Bool) (d a : Fin 16) (v : Word), s.me.chain = [] →
    (s.me.tx = none →
     (s.me.claimedReg = none → (∀ k : Fin 8, s.me.pBusy.get k = false) →
      exec (.xbeg sm d) s = .next (((s.modMe fun h => { h with tx := some (h.beginTx d) }).wrS d 0).retire sm .seq) ∧
      (s.me.beginTx d).regs = s.me.s ∧ (s.me.beginTx d).preds = s.me.p ∧ (s.me.beginTx d).resume = s.me.pc + 4) ∧
     (∀ r, s.me.claimedReg = some r → exec (.xbeg sm d) s = .next (s.waitMe (.result r))) ∧
     exec (.xcom sm) s = .next (s.retire sm .seq) ∧
     (s.rdS a = .ok v → exec (.xabt sm a) s = .next (s.retire sm .seq))) ∧
    (∀ t, s.me.tx = some t →
     (t.depth < 7 → exec (.xbeg sm d) s =
       .next (((s.modMe fun h => { h with tx := some { t with depth := t.depth + 1 } }).wrS d 0).retire sm .seq)) ∧
     (t.depth = 7 → exec (.xbeg sm d) s =
       .next ((s.abortTx s.cur 5 0).modMe fun h => { h with sWait := sm })) ∧
     (1 < t.depth → exec (.xcom sm) s =
       .next ((s.modMe fun h => { h with tx := some { t with depth := t.depth - 1 } }).retire sm .seq)) ∧
     (t.depth = 1 → s.drained s.cur = false → exec (.xcom sm) s = .next (s.waitMe (.drain false))) ∧
     (t.depth = 1 → s.drained s.cur = true → ∀ u, s.commitTx s.cur t = .ok u →
       exec (.xcom sm) s = .next (u.acquired.retire sm .seq)) ∧
     (s.rdS a = .ok v → exec (.xabt sm a) s =
       .next ((s.abortTx s.cur 4 (v.toNat % 256)).modMe fun h => { h with sWait := sm })))) ∧
  (∀ (s : State) (g : Agent) (t : Tx) (cause detail : Nat), (s.hart g).tx = some t → cause < 256 →
    let u := s.abortTx g cause detail
    let h := u.hart g
    h.tx = none ∧ h.pc = t.resume ∧ h.p = t.preds ∧ h.chain = [] ∧ h.park = none ∧ h.wait = none ∧
    (∀ r, r ≠ t.dest → h.s.get r = t.regs.get r) ∧ (h.s.get t.dest).full = true ∧
    ((h.s.get t.dest).val.extractLsb' 0 8).toNat = cause ∧
    ((h.s.get t.dest).val.extractLsb' 8 8).toNat = detail % 256 ∧
    ((h.s.get t.dest).val.getLsbD 16 = decide (cause = 1 ∨ cause = 8)) ∧
    ((h.s.get t.dest).val.extractLsb' 17 3).toNat = t.depth % 8 ∧
    (∀ r ∈ t.vs, (h.v.get r).tag = .inv) ∧ (∀ r, r ∉ t.vs → h.v.get r = (s.hart g).v.get r) ∧
    (∀ r ∈ t.ms, r ≠ 0 → (h.m.get r).void = true) ∧ (∀ r, r ∉ t.ms → h.m.get r = (s.hart g).m.get r) ∧
    (∀ r ∈ t.qs, (h.q.get r).void = true) ∧ (∀ r, r ∉ t.qs → h.q.get r = (s.hart g).q.get r) ∧
    u.llc = s.llc ∧ u.spad = s.spad ∧
    ∀ k, (∀ x, ∀ e ∈ (s.sec x).spillStore, ∀ i, i < 128 → k ≠ memKey x (spillEntryAddr e.2 + i)) →
      Sparse.get 0 u.mem k = Sparse.get 0 s.mem k)

/-! ## Vectors -/

/-- R180, R181, R183: the two-source and one-source forms on integer lanes: each active lane is the function of the
lanes of its sources, modulo 2^w or saturated; the other lanes keep the destination's bits. R181 to R183: the same
forms on floating-point lanes, FP64 lanes on a core with D, with their flags; the forms that have no floating-point
meaning (`vmulh`, the saturating forms, the shifts and the counts) raise FMT, and so do the reciprocal and root forms
on integer lanes. R180, R183: the logical forms act on eight 64-bit lanes whatever the tags; the result has the tag
and the side field of VA. R138, R184, R185: the fused forms round once, or are taken modulo 2^w; the dot products add
the exact products of adjacent elements to the destination's lane and round once. -/
def Obligations.VectorLanes : Prop :=
  (∀ (s : State) (sm : Bool) (d a b : Fin 16) (m : Fin 8) (x : Bool) (va : VReg) (ys : List Nat) (mk : Word) (w : Nat)
    (sg : Bool), s.me.chain = [] → s.rdV a = .ok va → s.rdM m = .ok mk → intOfTag va.tag = some (w, sg) →
    let v := intVal w sg
    let clamp := fun (i : Int) => max (intLo w sg) (min (intHi w sg) i)
    let put := fun (ls : List (Nat × Nat)) =>
      Host.Outcome.next ((s.putLanes d va.tag 0 (activeOnly mk ls)).retire sm .seq)
    let one := fun (f : Nat → Nat) => put (va.lanes.map fun p => (f p, 0))
    (exec (.vabs sm d a m) s = one (fun p => modPow w (v p).natAbs) ∧
     exec (.vneg sm d a m) s = one (fun p => modPow w (-(v p))) ∧
     exec (.vclz sm d a m) s = one (fun p => clzLane w p % 2 ^ w) ∧
     exec (.vpopc sm d a m) s = one (fun p => popLane w p % 2 ^ w)) ∧
    (s.rdVb va b x = .ok { va with body := if x then va.body else (s.vreg b).body
                                   side := if x then va.side else (s.vreg b).side } →
     s.secondLanes va.tag b x = .ok ys →
     let two := fun (f : Nat → Nat → Nat) => put ((va.lanes.zip ys).map fun p => (f p.1 p.2, 0))
     exec (.vadd sm d a b m x) s = two (fun p q => modPow w (v p + v q)) ∧
     exec (.vsub sm d a b m x) s = two (fun p q => modPow w (v p - v q)) ∧
     exec (.vmul sm d a b m x) s = two (fun p q => modPow w (v p * v q)) ∧
     exec (.vmulh sm d a b m x) s = two (fun p q => modPow w (v p * v q / (2 ^ w : Nat))) ∧
     exec (.vmin sm d a b m x) s = two (fun p q => modPow w (min (v p) (v q))) ∧
     exec (.vmax sm d a b m x) s = two (fun p q => modPow w (max (v p) (v q))) ∧
     exec (.vaddsat sm d a b m x) s = two (fun p q => modPow w (clamp (v p + v q))) ∧
     exec (.vsubsat sm d a b m x) s = two (fun p q => modPow w (clamp (v p - v q))) ∧
     exec (.vshl sm d a b m x) s = two (fun p q => p * 2 ^ (q % w) % 2 ^ w) ∧
     exec (.vshr sm d a b m x) s = two (fun p q => p / 2 ^ (q % w) % 2 ^ w) ∧
     exec (.vsar sm d a b m x) s = two (fun p q => modPow w (v p / (2 ^ (q % w) : Nat))))) ∧
  (∀ (s : State) (sm : Bool) (d a b : Fin 16) (m : Fin 8) (x : Bool) (va : VReg) (ys : List Nat) (mk : Word) (q : FFmt),
    s.me.chain = [] → s.rdV a = .ok va → s.rdM m = .ok mk →
    let r := arithRnd s.me.fmode
    let put := fun (ls : List (Nat × Nat)) =>
      Host.Outcome.next ((s.putLanes d va.tag 0 (activeOnly mk ls)).retire sm .seq)
    let fmt := Host.Outcome.next (s.raise ⟨0x04, 0, 0, 0, 0⟩)
    (arithFmt va.tag = some q → (va.tag = .f64 → s.onDCore) →
     let one := fun (f : Nat → Nat × Nat) => put (va.lanes.map f)
     exec (.vabs sm d a m) s = one (fun p => (p % q.signBit, 0)) ∧
     exec (.vneg sm d a m) s = one (fun p => ((p + q.signBit) % 2 ^ q.width, 0)) ∧
     exec (.vsqrt sm d a m) s = one (q.sqrt r) ∧
     exec (.vrcp sm d a m) s = one (q.rcp r) ∧
     exec (.vrsq sm d a m) s = one (q.rsq r) ∧
     exec (.vexp2 sm d a m) s = one (q.exp2 r) ∧
     exec (.vclz sm d a m) s = fmt ∧
     exec (.vpopc sm d a m) s = fmt ∧
     (s.rdVb va b x = .ok { va with body := if x then va.body else (s.vreg b).body
                                    side := if x then va.side else (s.vreg b).side } →
      s.secondLanes va.tag b x = .ok ys →
      let two := fun (f : Nat → Nat → Nat × Nat) => put ((va.lanes.zip ys).map fun p => f p.1 p.2)
      exec (.vadd sm d a b m x) s = two (q.add r) ∧
      exec (.vsub sm d a b m x) s = two (q.sub r) ∧
      exec (.vmul sm d a b m x) s = two (q.mul r) ∧
      exec (.vmin sm d a b m x) s = two (q.pick false) ∧
      exec (.vmax sm d a b m x) s = two (q.pick true) ∧
      exec (.vmulh sm d a b m x) s = fmt ∧
      exec (.vaddsat sm d a b m x) s = fmt ∧
      exec (.vsubsat sm d a b m x) s = fmt ∧
      exec (.vshl sm d a b m x) s = fmt ∧
      exec (.vshr sm d a b m x) s = fmt ∧
      exec (.vsar sm d a b m x) s = fmt)) ∧
    (isInt va.tag = true →
     exec (.vsqrt sm d a m) s = fmt ∧ exec (.vrcp sm d a m) s = fmt ∧ exec (.vrsq sm d a m) s = fmt ∧
     exec (.vexp2 sm d a m) s = fmt)) ∧
  (∀ (s : State) (sm : Bool) (d a b : Fin 16) (m : Fin 8) (x : Bool) (va vb : VReg) (ys : List Nat) (mk : Word),
    s.me.chain = [] → s.rdV a = .ok va → s.rdVb va b x = .ok vb → s.rdM m = .ok mk →
    s.secondLanes .raw b x = .ok ys → (va.tag = .f64 ∨ vb.tag = .f64 → s.onDCore) →
    let put := fun (f : Nat → Nat → Nat) =>
      let ls := activeOnly mk (((lanesAs .raw va.body).zip ys).map fun p => (f p.1 p.2 % 2 ^ 64, 0))
      Host.Outcome.next ((s.wrV d ⟨va.tag, BitVec.ofNat 512 (ofLanes 64 (mergeLanes 64 (s.oldBody d) ls)),
        va.side⟩).retire sm .seq)
    exec (.vand sm d a b m x) s = put (fun p q => p &&& q) ∧
    exec (.vor sm d a b m x) s = put (fun p q => p ||| q) ∧
    exec (.vxor sm d a b m x) s = put (fun p q => p ^^^ q) ∧
    exec (.vandn sm d a b m x) s = put (fun p q => p &&& (2 ^ 64 - 1 - q))) ∧
  (∀ (s : State) (sm : Bool) (d a b : Fin 16) (m : Fin 8) (va vb vd : VReg) (mk : Word), s.me.chain = [] →
    s.rdV a = .ok va → s.rdV b = .ok vb → s.rdV d = .ok vd → s.rdM m = .ok mk →
    let r := arithRnd s.me.fmode
    (∀ q, va.tag = vb.tag → vb.tag = vd.tag → arithFmt va.tag = some q → (va.tag = .f64 → s.onDCore) →
     let put := fun (np nc : Bool) => Host.Outcome.next ((s.putLanes d va.tag 0 (activeOnly mk
       ((zip3 va.lanes vb.lanes vd.lanes).map fun p => q.fma r np nc p.1 p.2.1 p.2.2))).retire sm .seq)
     exec (.vfma sm d a b m) s = put false false ∧ exec (.vfms sm d a b m) s = put false true ∧
     exec (.vfnma sm d a b m) s = put true false ∧ exec (.vfnms sm d a b m) s = put true true ∧
     (va.tag = .f64 → exec (.vdfma sm d a b m) s = put false false)) ∧
    (∀ w sg, va.tag = vb.tag → vb.tag = vd.tag → intOfTag va.tag = some (w, sg) →
     let put := fun (f : Int → Int → Int) => Host.Outcome.next ((s.putLanes d va.tag 0 (activeOnly mk
       ((zip3 va.lanes vb.lanes vd.lanes).map fun p => (modPow w (f (p.1 * p.2.1 : Nat) (p.2.2 : Nat)), 0)))).retire sm .seq)
     exec (.vfma sm d a b m) s = put (fun p c => p + c) ∧ exec (.vfms sm d a b m) s = put (fun p c => p - c) ∧
     exec (.vfnma sm d a b m) s = put (fun p c => -p + c) ∧ exec (.vfnms sm d a b m) s = put (fun p c => -p - c)) ∧
    (∀ k f, dotOp k va.tag vb.tag vd.tag r = some f →
     let out := Host.Outcome.next ((s.putLanes d vd.tag 0 (activeOnly mk
       (((groupsOf k 16 va.lanes).zip ((groupsOf k 16 vb.lanes).zip vd.lanes)).map fun p =>
         f p.1 p.2.1 p.2.2))).retire sm .seq)
     (k = 2 → exec (.vdot2 sm d a b m) s = out) ∧ (k = 4 → exec (.vdot4 sm d a b m) s = out)))

/-- R178, R179: a written vector register holds the given lanes under the result's tag and, in the lanes that are not
given, the bits that the destination held, zeros when it was void. -/
def Obligations.LanesWritten : Prop :=
  ∀ (s : State) (d : Fin 16) (t : Tag) (side : Word) (ls : List (Option (Nat × Nat))) (i : Nat),
    t ≠ .inv → ls.length = tagLanes t → i < tagLanes t → (∀ v ∈ ls, ∀ p, v = some p → p.1 < 2 ^ tagWidth t) →
    let u := s.putLanes d t side ls
    (u.vreg d).tag = t ∧ (u.vreg d).side = side ∧
    (u.vreg d).lanes[i]? = some (match ls[i]? with
      | some (some v) => v.1
      | _ => s.oldBody d / 2 ^ (tagWidth t * i) % 2 ^ tagWidth t) ∧
    ∀ r, r ≠ d → u.vreg r = s.vreg r

/-- R186 to R189: compares, classes and selections of lanes, and the mask forms; a mask has a bit for each lane that
is active and holds, and zeros elsewhere. R190 to R194, R460: broadcasts, single lanes, permutes, reductions and
scans. -/
def Obligations.VectorMasksAndPermutes : Prop :=
  (∀ (s : State) (sm : Bool) (d a b : Fin 16) (p q m : Fin 8) (x : Bool) (c : Cond) (k : VClass) (va vb : VReg)
    (ys : List Nat) (mk g h : Word), s.me.chain = [] →
    (s.rdV a = .ok va → s.rdM m = .ok mk → (va.tag = .f64 → s.onDCore) →
     (∀ f, s.rdVb va b x = .ok vb → vb.tag = va.tag → s.secondLanes va.tag b x = .ok ys → condLane c va.tag = some f →
      let ls := activeOnly mk ((va.lanes.zip ys).map fun p => f p.1 p.2)
      exec (.vcmp sm p a b m x c) s = .next (((s.addFlags (ls.foldl (fun a l => a ||| (l.map (·.2)).getD 0) 0)).wrM p
        (maskOf (ls.map fun l => l.map (·.1)))).retire sm .seq)) ∧
     (∀ f, fmtOfTag va.tag = some f →
      exec (.vclass sm p a m k) s =
        .next ((s.wrM p (maskOf (activeOnly mk (va.lanes.map (inClass k f))))).retire sm .seq)) ∧
     (s.rdV b = .ok vb → va.tag = vb.tag → isBlock va.tag = false →
      exec (.vsel sm d a b m) s = .next ((s.wrV d ⟨va.tag, BitVec.ofNat 512 (ofLanes (tagWidth va.tag)
        ((va.lanes.zip vb.lanes).zipIdx.map fun p => if bitAt mk p.2 then p.1.1 else p.1.2)),
        va.side⟩).retire sm .seq))) ∧
    (s.rdM p = .ok g →
     exec (.mnot sm m p) s = .next ((s.wrM m (~~~g)).retire sm .seq) ∧
     exec (.mcount sm d p) s =
       .next ((s.wrS d (BitVec.ofNat 64 ((List.range 64).countP fun i => g.getLsbD i))).retire sm .seq) ∧
     exec (.mfirst sm d p) s = .next ((s.wrS d g.ctz).retire sm .seq) ∧
     (s.rdM q = .ok h →
      exec (.mand sm m p q) s = .next ((s.wrM m (g &&& h)).retire sm .seq) ∧
      exec (.mor sm m p q) s = .next ((s.wrM m (g ||| h)).retire sm .seq)))) ∧
  (∀ (s : State) (sm : Bool) (d a b : Fin 16) (m : Fin 8) (t : Tag) (va vb vd : VReg) (mk x j : Word), s.me.chain = [] →
    (isBlock t = false → t ≠ .inv → s.rdM m = .ok mk → s.rdS a = .ok x →
     exec (.vbcast sm d a m t) s = .next ((s.putLanes d t 0
       (activeOnly mk (List.replicate (tagLanes t) (x.toNat % 2 ^ tagWidth t, 0)))).retire sm .seq)) ∧
    (s.rdV d = .ok vd → isBlock vd.tag = false → (vd.tag = .f64 → s.onDCore) → s.rdS a = .ok x → s.rdS b = .ok j →
     exec (.vins sm d a b) s = .next ((s.wrV d { vd with body := BitVec.ofNat 512 (ofLanes (tagWidth vd.tag)
       (vd.lanes.zipIdx.map fun p => if p.2 = j.toNat then x.toNat % 2 ^ tagWidth vd.tag else p.1)) }).retire sm .seq)) ∧
    (s.rdV a = .ok va → (va.tag = .f64 → s.onDCore) →
     (isBlock va.tag = false → s.rdS b = .ok j →
      exec (.vext sm d a b) s = .next ((s.wrS d (match va.lanes[j.toNat]? with
        | some v => laneWord va.tag v
        | none => 0)).retire sm .seq)) ∧
     (s.rdM m = .ok mk →
      (isBlock va.tag = false →
       exec (.vcompress sm d a m) s = .next ((s.wrV d { va with
         body := BitVec.ofNat 512 (ofLanes (tagWidth va.tag) (selected mk va.lanes)) }).retire sm .seq) ∧
       exec (.vexpand sm d a m) s = .next ((s.wrV d { va with
         body := BitVec.ofNat 512 (ofLanes (tagWidth va.tag)
           (spread mk va.lanes.length 0 va.lanes)) }).retire sm .seq) ∧
       (s.rdV b = .ok vb → isInt vb.tag = true → tagWidth vb.tag = tagWidth va.tag →
        exec (.vperm sm d a b m) s = .next ((s.putLanes d va.tag va.side (activeOnly mk
          (vb.lanes.map fun i => (va.lanes.getD (i % tagLanes va.tag) 0, 0)))).retire sm .seq))) ∧
      (∀ w sg, intOfTag va.tag = some (w, sg) →
       let xs := (selected mk va.lanes).map (intVal w sg)
       exec (.vredadd sm d a m) s = .next ((s.wrS d (BitVec.ofInt 64 xs.sum)).retire sm .seq) ∧
       exec (.vredmax sm d a m) s = .next ((s.wrS d (BitVec.ofInt 64 (xs.foldl max (intLo w sg)))).retire sm .seq) ∧
       exec (.vredmin sm d a m) s = .next ((s.wrS d (BitVec.ofInt 64 (xs.foldl min (intHi w sg)))).retire sm .seq) ∧
       ∀ ex, exec (.vscan sm d a m ex) s = .next ((s.putLanes d va.tag 0
         (scanLanes ex (fun xs => (xs.sum % 2 ^ w, 0)) (activeOnly mk va.lanes) [])).retire sm .seq)) ∧
      (∀ f, arithFmt va.tag = some f →
       let r := arithRnd s.me.fmode
       let xs := selected mk va.lanes
       exec (.vredadd sm d a m) s = .next ((s.wrF d (f.round r (sumNum r (xs.map f.decode)))).retire sm .seq) ∧
       exec (.vredmax sm d a m) s = .next ((s.wrF d (f.pickAll true xs)).retire sm .seq) ∧
       exec (.vredmin sm d a m) s = .next ((s.wrF d (f.pickAll false xs)).retire sm .seq) ∧
       ∀ ex, exec (.vscan sm d a m ex) s = .next ((s.putLanes d va.tag 0
         (scanLanes ex (f.sum r) (activeOnly mk va.lanes) [])).retire sm .seq)))))

/-- R17, R94, R95, R195 to R199: the conversions take each active lane from its source element in ascending order, with
one step of the generator for each under stochastic rounding; `vquant` replaces one block and its scale, and side bytes
2 to 7 of a B8 result are zero; `vtag` changes the tag alone. -/
def Obligations.VectorConversions : Prop :=
  ∀ (s : State) (sm : Bool) (d a : Fin 16) (p m : Fin 8) (k : Fin 4) (f : Tag) (b8 : Bool) (va : VReg) (mk : Word),
    s.me.chain = [] →
    (s.rdV a = .ok va → s.rdM m = .ok mk →
     ((isInt f || (fmtOfTag f).isSome) = true → (isInt va.tag || (fmtOfTag va.tag).isSome) = true →
      p.val < max (tagLanes va.tag) (tagLanes f) / min (tagLanes va.tag) (tagLanes f) →
      (va.tag = .f64 ∨ f = .f64 → s.onDCore) →
      let src := (List.range (tagLanes f)).map fun i => if bitAt mk i then
        (convertSource (tagLanes va.tag) (tagLanes f) p.val i).map fun j => va.lanes.getD j 0 else none
      let r := convertLanes s.me.fmode (!(isInt va.tag && isInt f)) (convertLane va.tag f) src s.me.srseed
      exec (.vcvt sm d a p m f) s =
        .next (((s.modMe fun h => { h with srseed := r.2 }).putLanes d f 0 r.1).retire sm .seq)) ∧
     (∀ q, arithFmt f = some q → f ≠ .f64 → isBlock va.tag = true → p.val < tagLanes va.tag / tagLanes f →
      let src := (List.range (tagLanes f)).map fun i => if bitAt mk i then some (p.val * tagLanes f + i) else none
      let r := convertLanes s.me.fmode true (fun rnd e => q.round rnd (va.element e)) src s.me.srseed
      exec (.vdequant sm d a p m f) s =
        .next (((s.modMe fun h => { h with srseed := r.2 }).putLanes d f 0 r.1).retire sm .seq))) ∧
    (s.rdV a = .ok va → (va.tag = .f64 → s.onDCore) →
      exec (.vtag sm d a f) s = .next ((s.wrV d { va with tag := f }).retire sm .seq)) ∧
    (∀ xs, s.quantSource a = .ok xs → (b8 = true → k.val < 2) →
      let t : Tag := if b8 then .b8 else .e2m1x
      let r := cvtRnds s.me.fmode 32 s.me.srseed
      let q := quantise t (bitAt s.me.fmode 8) xs r.1
      let b := putBlock t (s.quantOld d t).1 (s.quantOld d t).2 k.val q
      exec (.vquant sm d a k b8) s = .next ((((s.modMe fun h => { h with srseed := r.2 }).addFlags q.flags).wrV d
        ⟨t, BitVec.ofNat 512 b.1, word b.2⟩).retire sm .seq) ∧ (b8 = true → b.2 < 2 ^ 16)) ∧
    (s.rdM m = .ok mk →
      let r := seedLanes ((List.range 16).map fun i => bitAt mk i) s.me.srseed
      exec (.vseed sm d m) s =
        .next (((s.modMe fun h => { h with srseed := r.2 }).putLanes d .i32 0 r.1).retire sm .seq))

/-! ## Vector memory, heaps, trees, digests -/

/-- R89, R200 to R206, R22: loads and gathers of the own scratchpad, lane by lane (a lane inside an open channel is an
acquire, R324), and the packed loads of block elements; in every form a check that fails for some active lane raises
the fault in the order of reporting, and then no lane performs. A broadcast reads one element, for the lowest active
lane, and none without an active lane. R89, R200 to R206, R22, R105: stores, scatters and scatter-adds to the own
scratchpad, and the packed stores of block elements, byte 33 of a B8 block zero; in every form, where a check fails
for some active lane, no lane performs. Of two lanes at one place the higher stores last; the ascending order of the
lanes of a scatter-add, which R107 leaves open, is the model's choice (log entry 114). -/
def Obligations.VectorMemory : Prop :=
  (∀ (s : State) (sm : Bool) (d a b : Fin 16) (m : Fin 8) (t : Tag) (o : BitVec 7) (mk b0 : Word) (cl : Fin 96),
    s.me.chain = [] → t ≠ .inv → isBlock t = false → s.rdM m = .ok mk → s.rdS a = .ok b0 →
    let x := secOf s.cur
    let n := tagWidth t / 8
    let base := b0 + o.signExtend 64 * 64
    let own := fun (ls : List Lane) (at_ : Lane → Nat) => ∀ l ∈ ls, s.ownSpad l.ea l.n cl (at_ l)
    let out := fun (u : State) (ls : List Lane) (at_ : Lane → Nat) => Host.Outcome.next
      ((u.putLanes d t 0 (byLane t (ls.map fun l => (l.i, leNat (s.spadBytes x cl (at_ l) l.n))))).retire sm .seq)
    let each := fun (ls : List Lane) (at_ : Lane → Nat) => out (ls.foldl (fun u l => u.channelRead x cl (at_ l) l.n) s) ls at_
    (let ls := activeLanes t mk base (word n)
     (∀ off, m = 0 → s.ownSpad base 64 cl off → own ls (fun l => off + l.i * n) →
      exec (.vld sm d a m t o) s = out (s.channelRead x cl off 64) ls (fun l => off + l.i * n)) ∧
     (∀ off, m ≠ 0 → base.toNat % 64 = 0 → own ls (fun l => off + l.i * n) →
      exec (.vld sm d a m t o) s = each ls (fun l => off + l.i * n)) ∧
     (∀ f, s.checkLanes .read false ls (baseFault base ls) = .error (.flt f) →
      exec (.vld sm d a m t o) s = .next (s.raise f))) ∧
    (∀ off, s.ownSpad base n cl off → (∃ i, i < tagLanes t ∧ mk.getLsbD i = true) →
     exec (.vldbc sm d a m t o) s = .next (((s.channelRead x cl off n).putLanes d t 0 (activeOnly mk (List.replicate (tagLanes t)
       (leNat (s.spadBytes x cl off n), 0)))).retire sm .seq)) ∧
    ((∀ i, i < tagLanes t → mk.getLsbD i = false) →
     exec (.vldbc sm d a m t o) s = .next ((s.putLanes d t 0 (activeOnly mk (List.replicate (tagLanes t) (0, 0)))).retire
       sm .seq)) ∧
    (∀ f, s.checkLanes .read false ((activeLanes t mk base 0).take 1) [] = .error (.flt f) →
     exec (.vldbc sm d a m t o) s = .next (s.raise f)) ∧
    (∀ st, s.rdS (succ16 a) = .ok st →
     let ls := activeLanes t mk base st
     (∀ at_, own ls at_ → exec (.vlds sm d a m t o) s = each ls at_) ∧
     (∀ f, s.checkLanes .read false ls [] = .error (.flt f) → exec (.vlds sm d a m t o) s = .next (s.raise f))) ∧
    (∀ vb, s.rdV b = .ok vb → vb.tag = .i32 ∨ vb.tag = .i64 → tagLanes vb.tag ≤ tagLanes t → s.me.tx = none →
     let ls := indexedLanes vb mk b0 n
     (∀ at_, own ls at_ → exec (.vgat sm d a b m t) s = each ls at_) ∧
     (∀ f, s.checkLanes .read false ls [] = .error (.flt f) → exec (.vgat sm d a b m t) s = .next (s.raise f))) ∧
    (∀ p, isBlock p = true →
     let ls := packedLanes p base
     let w := if p = .e2m1x then 8 else 4
     (∀ f, s.checkLanes .read false ls [] = .error (.flt f) → exec (.vld sm d a 0 p o) s = .next (s.raise f)) ∧
     (∀ off, (∀ k, k < ls.length → s.ownSpad (base + word (w * k)) w cl (off + w * k)) →
      let bs := s.spadBytes x cl off (w * ls.length)
      ∃ v : VReg, exec (.vld sm d a 0 p o) s = .next ((((List.range ls.length).foldl (fun u k =>
          u.channelRead x cl (off + w * k) w) s).wrV d v).retire sm .seq) ∧ v.tag = p ∧
        (p = .e2m1x → ls.length = 9 ∧ ∀ b, b < 4 →
          (v.body.extractLsb' (128 * b) 128).toNat = leNat (slice bs (18 * b) 16) ∧
          (v.side.extractLsb' (16 * b) 16).toNat = leNat (slice bs (18 * b + 16) 2)) ∧
        (p = .b8 → ls.length = 17 ∧ v.side.toNat < 2 ^ 16 ∧ ∀ b, b < 2 →
          (v.body.extractLsb' (256 * b) 256).toNat = leNat (slice bs (34 * b) 32) ∧
          (v.side.extractLsb' (8 * b) 8).toNat = leNat (slice bs (34 * b + 32) 1))))) ∧
  (∀ (s : State) (sm : Bool) (d a b : Fin 16) (m : Fin 8) (o : BitVec 7) (v : VReg) (mk b0 : Word) (cl : Fin 96),
    s.me.chain = [] → s.rdV d = .ok v → s.rdM m = .ok mk → s.rdS a = .ok b0 →
    let x := secOf s.cur
    let n := tagWidth v.tag / 8
    let base := b0 + o.signExtend 64 * 64
    let here := fun (ea : Word) (n : Nat) (off : Nat) =>
      clusterOfAgent s.cur = some cl ∧ placeOf s.cur ea.toNat n = .ok (.spad cl off) ∧ ea.toNat % n = 0
    let own := fun (ls : List Lane) (at_ : Lane → Nat) => ∀ l ∈ ls, here l.ea l.n (at_ l)
    let out := fun (ls : List Lane) (at_ : Lane → Nat) => Host.Outcome.next ((ls.foldl (fun u l =>
      u.spadWrite x cl (at_ l) (leBytes l.n (v.lanes.getD l.i 0))) s).retire sm .seq)
    (∀ t, t = .raw ∨ t = v.tag → isBlock v.tag = true →
     let ls := packedLanes v.tag base
     let w := if v.tag = .e2m1x then 8 else 4
     let bs := packBlocks v.tag v.body.toNat v.side
     (∀ f, s.checkLanes .write false ls [] = .error (.flt f) → exec (.vst sm d a 0 t o) s = .next (s.raise f)) ∧
     (∀ off, (∀ k, k < ls.length → here (base + word (w * k)) w (off + w * k)) →
      exec (.vst sm d a 0 t o) s = .next (((List.range ls.length).foldl (fun u k =>
        u.spadWrite x cl (off + w * k) (slice bs (w * k) w)) s).retire sm .seq)) ∧
     bs.length = w * ls.length ∧
     (v.tag = .e2m1x → ∀ b, b < 4 → leNat (slice bs (18 * b) 16) = (v.body.extractLsb' (128 * b) 128).toNat ∧
       leNat (slice bs (18 * b + 16) 2) = (v.side.extractLsb' (16 * b) 16).toNat) ∧
     (v.tag = .b8 → ∀ b, b < 2 → leNat (slice bs (34 * b) 32) = (v.body.extractLsb' (256 * b) 256).toNat ∧
       leNat (slice bs (34 * b + 32) 2) = (v.side.extractLsb' (8 * b) 8).toNat)) ∧
    (∀ t, t = .raw ∨ t = v.tag → isBlock v.tag = false →
     let ls := activeLanes v.tag mk base (word n)
     (∀ off, m = 0 → here base 64 off → own ls (fun l => off + l.i * n) →
      exec (.vst sm d a m t o) s = .next ((s.spadWrite x cl off (leBytes 64 v.body.toNat)).retire sm .seq)) ∧
     (∀ off, m ≠ 0 → base.toNat % 64 = 0 → own ls (fun l => off + l.i * n) →
      exec (.vst sm d a m t o) s = out ls (fun l => off + l.i * n)) ∧
     (∀ f, s.checkLanes .write (tagWidth v.tag == 64) ls (baseFault base ls) = .error (.flt f) →
      exec (.vst sm d a m t o) s = .next (s.raise f)) ∧
     (∀ st, s.rdS (succ16 a) = .ok st →
      (∀ at_, own (activeLanes v.tag mk base st) at_ →
       exec (.vsts sm d a m t o) s = out (activeLanes v.tag mk base st) at_) ∧
      (∀ f, s.checkLanes .write (tagWidth v.tag == 64) (activeLanes v.tag mk base st) [] = .error (.flt f) →
       exec (.vsts sm d a m t o) s = .next (s.raise f)))) ∧
    (∀ vb, s.rdV b = .ok vb → vb.tag = .i32 ∨ vb.tag = .i64 → isBlock v.tag = false →
     tagLanes vb.tag ≤ tagLanes v.tag → s.me.tx = none →
     let ls := indexedLanes vb mk b0 n
     ((v.tag = .f64 → s.onDCore) →
      (∀ at_, own ls at_ → exec (.vsct sm d a b m) s = out ls at_) ∧
      (∀ f, s.checkLanes .write (tagWidth v.tag == 64) ls [] = .error (.flt f) →
       exec (.vsct sm d a b m) s = .next (s.raise f))) ∧
     (v.tag = .i32 ∨ v.tag = .i64 ∨ v.tag = .f32 → ∀ f, s.checkLanes .atomic false ls [] = .error (.flt f) →
      exec (.vsctadd sm d a b m) s = .next (s.raise f)) ∧
     (v.tag = .i32 ∨ v.tag = .i64 ∨ v.tag = .f32 → ∀ at_ : Lane → Nat, (∀ l ∈ ls, s.ownSpad l.ea l.n cl (at_ l)) →
      exec (.vsctadd sm d a b m) s = .next ((ls.foldl (fun u l =>
        let old := leNat (u.spadBytes x cl (at_ l) l.n)
        let new := if v.tag = .f32 then (fp32.add rneRnd old (v.lanes.getD l.i 0)).1
          else (old + v.lanes.getD l.i 0) % 2 ^ tagWidth v.tag
        (u.channelRead x cl (at_ l) l.n).spadWrite x cl (at_ l) (leBytes l.n new)) s).retire sm .seq))))

/-- R207: the heap of k pairs (score, index) in a vector register takes an arrival: its root is replaced, and the heap
order restored, where the arrival is greater than the root; a NaN score, or one not greater, leaves the register. -/
def Obligations.TopKHeap : Prop :=
  ∀ (s : State) (sm : Bool) (d a b k : Fin 16) (v : VReg) (sc ix : Word), s.me.chain = [] → 1 ≤ k.val → k.val ≤ 8 →
    s.rdV d = .ok v → v.tag = .raw → s.rdS a = .ok sc → s.rdS b = .ok ix →
    let word32 := fun (u : State) (j : Nat) => (lanesAs .f32 (u.vreg d).body).getD j 0
    let heap := fun (u : State) => (List.range k.val).map fun j => (word32 u j, word32 u (j + 8))
    let new := (sc.toNat % 2 ^ 32, ix.toNat % 2 ^ 32)
    ∃ u, exec (.hsift sm d a b k) s = .next (u.retire sm .seq) ∧ (u.vreg d).tag = .raw ∧ (u.vreg d).side = v.side ∧
      (∀ j, k.val ≤ j → j < 8 → word32 u j = word32 s j ∧ word32 u (j + 8) = word32 s (j + 8)) ∧
      ((fp32.decode new.1).isNan = true ∨ pairLt ((heap s).getD 0 (0, 0)) new = false → heap u = heap s) ∧
      ((fp32.decode new.1).isNan = false → pairLt ((heap s).getD 0 (0, 0)) new = true →
        (heap u).Perm ((heap s).set 0 new) ∧
        ((∀ j c, 0 < j → (c = 2 * j + 1 ∨ c = 2 * j + 2) → c < k.val →
            pairLt ((heap s).getD c (0, 0)) ((heap s).getD j (0, 0)) = false) →
          ∀ j c, (c = 2 * j + 1 ∨ c = 2 * j + 2) → c < k.val →
            pairLt ((heap u).getD c (0, 0)) ((heap u).getD j (0, 0)) = false))

/-- R208, R209, R212: a step from a leaf sets the predicate alone; any other reads the node, compares the row's
feature with its threshold, and goes to a child; a bound digest slot absorbs the node's number, the direction and its
seal. The node, and the feature, are read here from the own scratchpad. That the step raises no flags, and that it
reads a bitmap's count whatever the feature is, are the model's readings (log entries 55 and 115). R20, R210 to R213:
opening a digest slot and reopening an own one, absorbing bytes, the digest, and the digest log; on a master core
`dgi` answers 3, and the others, there and without a binding, raise SHP. -/
def Obligations.TreesAndDigests : Prop :=
  (∀ (s : State) (sm : Bool) (d a b : Fin 16) (p : Fin 8) (v tree row : Word) (cl : Fin 96) (o1 o2 : Nat),
    s.me.chain = [] → s.rdS d = .ok v → s.rdS a = .ok tree → s.rdS b = .ok row →
    (v.getLsbD 31 = true → exec (.tstep sm d a b p) s = .next ((s.wrP p true).retire sm .seq)) ∧
    (v.getLsbD 31 = false →
     let y := secOf s.cur
     let n := v.toNat % 2 ^ 31
     let na := tree + word (16 * n)
     s.ownSpad na 16 cl o1 →
     let w := fun (k : Nat) => leNat ((s.spadBytes y cl o1 16).drop (4 * k) |>.take 4)
     s.ownSpad (row + word (4 * (w 0 % 2 ^ 29))) 4 cl o2 →
     let u := (s.channelRead y cl o1 16).channelRead y cl o2 4
     let x := fp32.decode (leNat (s.spadBytes y cl o2 4))
     let t := fp32.decode (w 1)
     let go := fun (u : State) (left : Bool) =>
       let next := if left then w 2 else w 3
       Host.Outcome.next ((((u.absorbStep n left (s.nodeSeal na)).wrS d (word next)).wrP p
         (decide (next / 2 ^ 31 % 2 = 1))).retire sm .seq)
     (x.isNan = true → exec (.tstep sm d a b p) s = go u (decide (w 0 / 2 ^ 29 % 2 = 1))) ∧
     (x.isNan = false →
      (t.isNan = true → w 0 / 2 ^ 30 < 3 → exec (.tstep sm d a b p) s = go u false) ∧
      (∀ o3 o4, w 0 / 2 ^ 30 = 3 → s.ownSpad (tree + word (w 1)) 4 cl o3 →
       let count := leNat (s.spadBytes y cl o3 4)
       let u := u.channelRead y cl o3 4
       (x.category = none → exec (.tstep sm d a b p) s = go u false) ∧
       (∀ c, x.category = some c →
        (count ≤ c → exec (.tstep sm d a b p) s = go u false) ∧
        (c < count → s.ownSpad (tree + word (w 1) + 4 + word (4 * (c / 32))) 4 cl o4 →
         exec (.tstep sm d a b p) s =
           go (u.channelRead y cl o4 4) (decide (leNat (s.spadBytes y cl o4 4) / 2 ^ (c % 32) % 2 = 1))))) ∧
      (t.isNan = false →
       (w 0 / 2 ^ 30 = 0 → exec (.tstep sm d a b p) s = go u (decide (x.cmp t ≤ 0))) ∧
       (w 0 / 2 ^ 30 = 1 → exec (.tstep sm d a b p) s = go u (decide (x.cmp t < 0))) ∧
       (w 0 / 2 ^ 30 = 2 → exec (.tstep sm d a b p) s = go u (decide (x.cmp t = 0))))))) ∧
  (∀ (s : State) (sm : Bool) (d a b : Fin 16) (r : Bool) (n : Fin 8) (v : Word), s.me.chain = [] →
    let without := exec (.dga sm a n) s = .next (s.raise ⟨0x09, 4, 0, 0, 0⟩) ∧
      exec (.dgo sm d r) s = .next (s.raise ⟨0x09, 4, 0, 0, 0⟩) ∧
      ∀ va, s.rdV a = .ok va → va.tag = .raw → exec (.dglog sm a b) s = .next (s.raise ⟨0x09, 4, 0, 0, 0⟩)
    (∀ x m, s.cur = .master x m →
      (s.rdS a = .ok v → exec (.dgi sm d a r) s = .next ((s.wrS d 3).retire sm .seq)) ∧ without) ∧
    (∀ x i, s.cur = .thread x i →
     let cl := clusterOf i.val
     let slot := fun (u : State) (k : Fin 8) => (u.cluster x cl).digest.get k
     (s.rdS a = .ok v →
      let k := Fin.ofNat 8 v.toNat
      ((s.ctx x i.val).digest.isSome = true → exec (.dgi sm d a r) s = .next ((s.wrS d 4).retire sm .seq)) ∧
      ((s.ctx x i.val).digest = none →
       ((slot s k).owner ≠ none → (slot s k).owner ≠ s.slotOwner x i.val →
        exec (.dgi sm d a false) s = .next ((s.wrS d 1).retire sm .seq)) ∧
       (((slot s k).owner = none ∨ (slot s k).owner ≠ s.slotOwner x i.val) →
        exec (.dgi sm d a true) s = .next ((s.wrS d 2).retire sm .seq)) ∧
       ((slot s k).owner ≠ none → (slot s k).owner = s.slotOwner x i.val →
        exec (.dgi sm d a true) s =
          .next (((s.modCtx x i.val fun c => { c with digest := some k }).wrS d 0).retire sm .seq)) ∧
       ((slot s k).owner = none ∨ (slot s k).owner = s.slotOwner x i.val →
        ∃ u, exec (.dgi sm d a false) s = .next ((u.wrS d 0).retire sm .seq) ∧ (u.ctx x i.val).digest = some k ∧
          slot u k = ⟨s.slotOwner x i.val, [], none, 0⟩ ∧ ∀ j, j ≠ k → slot u j = slot s j)) ∧
      ((s.ctx x i.val).digest = none → without)) ∧
     (∀ k, (s.ctx x i.val).digest = some k →
      (s.rdS a = .ok v →
       ∃ u, exec (.dga sm a n) s = .next (u.retire sm .seq) ∧
         slot u k = { slot s k with bytes := (slot s k).bytes ++ leBytes (n.val + 1) v.toNat } ∧
         ∀ j, j ≠ k → slot u j = slot s j) ∧
      (∃ u, exec (.dgo sm d r) s =
         .next ((u.wrV d ⟨.raw, BitVec.ofNat 512 (leNat (shake256 (slot s k).bytes)), 0⟩).retire sm .seq) ∧
         (slot u k).bytes = [] ∧ (slot u k).lsid = ((slot s k).sid).getD 0 ∧
         (u.ctx x i.val).digest = (if r then none else some k) ∧
         (slot u k).owner = (if r then none else (slot s k).owner)) ∧
      (∀ va, s.rdV a = .ok va → va.tag = .raw → s.rdS b = .ok v → s.drained s.cur = true →
       let c := s.sec x
       let size := 2 ^ (c.dglogb.toNat % 64)
       (size < c.dgP + 64 → exec (.dglog sm a b) s = .next (s.raise ⟨0x09, 5, 0, 0, 0⟩)) ∧
       (c.dgP + 64 ≤ size →
        exec (.dglog sm a b) s = .next (((s.writePhys x (c.dglogb.toNat / 2 ^ 16 % 2 ^ 36 * 2 ^ 16 + c.dgP)
          (logRecord (slot s k).lsid (s.ctx x i.val).vtn va.body v c.dgSeq (s.homeIdx x i.val))).modSec x fun c =>
            { c with dgP := c.dgP + 64, dgSeq := c.dgSeq + 1 }).retire sm .seq))))))

/-! ## Instances -/

/-- R39 to R44, R152, R361: what `spawn` on a master core and `spawnn` in a context do with a record that has been
read (the state after the reads is `t`): the lowest free index and a handle made of it and the record's address; a
park without an index, and one without a pool entry, or behind a spawn that waits for one, with what the one read of
the record gave. A context whose instance does not nest gets ILL, wherever the record is aligned (R40, R389). R150,
R151, R154 to R156: a handle that names no instance raises SHP; `join` answers the final status of one that has ended,
as an acquire, which waits, without parking, for the agent's earlier releases (R311, log entry 99), and parks on one
that has not, `jtest` then answers RUNNING; `spabort` aborts the tree; `tres` resumes a parked context at its
instruction or behind it, and answers 1 where no context is parked on a fault. -/
def Obligations.SpawnForms : Prop :=
  (∀ (s t : State) (sm : Bool) (d a : Fin 16) (rec_ : Word) (rcd : SpawnRec) (ls : List (Nat × Nat)) (z : Vector Word 16)
    (regs : Vector Word 12), s.me.chain = [] →
    (∀ x i, s.cur = .thread x i → exec (.spawn sm d a) s = .next (s.raise ⟨0x03, 0, 0, 0, 0⟩)) ∧
    (∀ x n, s.cur = .master x n → exec (.spawnn sm d a) s = .next (s.raise ⟨0x01, 0, 0, 0, 0⟩)) ∧
    (∀ x i, s.cur = .thread x i → s.me.tx = none → s.rdS a = .ok rec_ →
      ((∃ va, placeOf s.cur rec_.toNat 64 = .ok (.app va)) ∨ ∃ n off, placeOf s.cur rec_.toNat 64 = .ok (.peer n off)) →
      (∀ j, s.instOf s.cur = some j → j.rcd.nest = false) →
      exec (.spawnn sm d a) s = .next (s.raise ⟨0x01, 0, 0, 0, 0⟩)) ∧
    (s.me.tx = none → s.rdS a = .ok rec_ → s.captureRegs = .ok regs → s.released true = .ok () →
     ∀ (nested : Bool) (e : Instr),
     ((∃ x n, s.cur = .master x n ∧ nested = false ∧ e = .spawn sm d a) ∨
      (∃ x i, s.cur = .thread x i ∧ nested = true ∧ e = .spawnn sm d a)) →
     s.readRecord rec_ nested = .ok (rcd, ls, z, t) →
     let x := secOf s.cur
     let pool := (t.sec x).insts
     (∀ j ∈ pool, j.uid ≠ t.nextId) →
     (1024 ≤ pool.length ∨ (t.sec x).poolWait ≠ [] →
      ∃ (u : State) (i : Inst), exec e s = .next (u.parkMe sm (.pool i.uid d)) ∧ (u.sec x).insts = pool ∧
        (u.sec x).poolWait = (t.sec x).poolWait ++ [i] ∧ i.uid = t.nextId ∧ i.idx = none ∧ i.rcd = rcd ∧ i.leases = ls ∧
        i.z = z ∧ i.regs = regs ∧ i.phase = .waitIdx) ∧
     (pool.length < 1024 → (t.sec x).poolWait = [] → (∀ j ∈ pool, j.phase ≠ .waitIdx) →
      (∀ k, t.freeIndex x = some k →
       ∃ (u : State) (i : Inst), exec e s =
         .next ((u.wrS d (word (rcd.addr % 2 ^ 56 / 64 * 64 + k.val))).retire sm .seq) ∧
         (u.sec x).insts = pool ++ [i] ∧ i.uid = t.nextId ∧ i.idx = some k ∧
         i.handle = word (rcd.addr % 2 ^ 56 / 64 * 64 + k.val) ∧ i.rcd = rcd ∧ i.leases = ls ∧ i.z = z ∧
         i.regs = regs ∧ i.fmode = t.me.fmode ∧ i.srseed = t.me.srseed ∧ i.asid = t.asidOf t.cur ∧
         i.chk = (rcd.chk && (t.sec x).rce) ∧ i.phase = .lease ∧ i.draw = 0 ∧ i.final = none ∧
         .leaseResidencyCheck x i.uid ∈ u.agenda) ∧
      (t.freeIndex x = none →
       ∃ (u : State) (i : Inst), exec e s = .next (u.parkMe sm (.index i.uid d)) ∧ (u.sec x).insts = pool ++ [i] ∧
         i.idx = none ∧ i.phase = .waitIdx ∧ i.rcd = rcd)))) ∧
  (∀ (s : State) (sm : Bool) (d a b : Fin 16) (k : Bool) (h n : Word), s.me.chain = [] → s.me.tx = none →
    s.rdS a = .ok h →
    let x := secOf s.cur
    let noHandle := Host.Outcome.next (s.raise ⟨0x09, 2, 0, 0, 0⟩)
    ((∀ i ∈ (s.sec x).insts, i.idx = none ∨ i.handle ≠ h) →
     exec (.join sm d a) s = noHandle ∧ exec (.jtest sm d a) s = noHandle ∧ exec (.spabort sm a) s = noHandle ∧
     (s.rdS b = .ok n → exec (.tres sm d a b k) s = noHandle)) ∧
    (∀ i, s.byHandle h true = .ok i →
     (∀ f, i.final = some f →
      let code : Word := match f with
        | .done => 0
        | .aborted => 1
        | .lost => 2
      let out := Host.Outcome.next ((((s.retireInst x i).acquired).wrS d code).retire sm .seq)
      (s.releaseOpen s.cur = true → exec (.join sm d a) s = .next (s.waitMe .releases) ∧
        exec (.jtest sm d a) s = .next (s.waitMe .releases)) ∧
      (s.releaseOpen s.cur = false → exec (.join sm d a) s = out ∧ exec (.jtest sm d a) s = out) ∧
      ∀ j ∈ ((s.retireInst x i).sec x).insts, j.uid ≠ i.uid) ∧
     (i.final = none →
      exec (.join sm d a) s = .next (s.parkMe sm (.join i.uid d)) ∧
      exec (.jtest sm d a) s = .next ((s.wrS d 3).retire sm .seq)) ∧
     (s.rdS b = .ok n →
      (6144 ≤ n.toNat → exec (.tres sm d a b k) s = .next ((s.wrS d 1).retire sm .seq)) ∧
      (n.toNat < 6144 →
       (s.resume x i n.toNat k = none → exec (.tres sm d a b k) s = .next ((s.wrS d 1).retire sm .seq)) ∧
       (∀ v next, s.vtAt x n.toNat = some v → v.uid = i.uid → (s.hart (ctxAgent x n.toNat)).park = some (.fault next) →
        ∃ t : State, exec (.tres sm d a b k) s = .next ((t.wrS d 0).retire sm .seq) ∧
          let was := s.hart (ctxAgent x n.toNat)
          t.hart (ctxAgent x n.toNat) =
            { was with park := none, sWait := false, pc := if k then next else was.pc })))) ∧
    (∀ i, s.byHandle h false = .ok i →
      (s.vtOf s.cur = none → exec (.spabort sm a) s = .next ((s.abortTree x i.uid).retire sm .seq)) ∧
      (∀ v, s.vtOf s.cur = some v →
       ((s.descendants x 1024 [i.uid]).contains v.uid = false →
        exec (.spabort sm a) s = .next ((s.abortTree x i.uid).retire sm .seq)) ∧
       ((s.descendants x 1024 [i.uid]).contains v.uid = true →
        exec (.spabort sm a) s = .next (s.abortTree x i.uid)))))

/-- R21, R157 to R160, R308: a Zenith form sends a request, which carries its order, and its result register is empty
until the request is served; a form without an instance raises SHP; a release waits, without parking, for the agent's
earlier accesses and an acquire for its earlier releases (R311, log entry 99), also where `zget` reads the kept values
of an ended instance; a form waits by interlock for an earlier write of its result register and `psmb` for one of its
predicate (R13, R121). A request that is served gives the old value and puts the new one, with a bounded add made only
where it does not pass the limit, and one that acquires begins a new interval of the read-only path (R124). -/
def Obligations.ZenithForms : Prop :=
  ∀ (s : State) (sm : Bool) (d a z : Fin 16) (k : Fin 8) (o : Order) (v w : Word), s.me.chain = [] →
    let open_ := isAcq o && s.releaseOpen s.cur
    (s.me.tx = none → s.rdS a = .ok v → s.released (isRel o) = .ok () →
     let done := fun (t : State) => Host.Outcome.next (t.retire (sm || isAcq o) .seq)
     let wait := Host.Outcome.next (s.waitMe .releases)
     (s.zInst false = .error (.flt ⟨0x09, 3, 0, 0, 0⟩) →
      exec (.psm sm d a z o) s = .next (s.raise ⟨0x09, 3, 0, 0, 0⟩) ∧
      exec (.zset sm a z o) s = .next (s.raise ⟨0x09, 3, 0, 0, 0⟩)) ∧
     (∀ i, s.zInst false = .ok i →
      (open_ = true → exec (.zset sm a z o) s = wait ∧ exec (.psm sm d a z o) s = wait ∧
        (s.rdS (succ16 a) = .ok w → exec (.psmb sm d a z k o) s = wait)) ∧
      (open_ = false →
       exec (.zset sm a z o) s = done (s.zIssue i z (.set v) none o) ∧
       (s.rdS (succ16 a) = .ok w → s.me.pBusy.get k = true →
         exec (.psmb sm d a z k o) s = .next (s.waitMe (.pred k))) ∧
       (s.zBusy s.cur d = true → exec (.psm sm d a z o) s = .next (s.waitMe (.result d))) ∧
       (s.zBusy s.cur d = false → exec (.psm sm d a z o) s = done (s.zIssue i z (.add v) (some d) o) ∧
        (s.rdS (succ16 a) = .ok w → s.me.pBusy.get k = false →
         exec (.psmb sm d a z k o) s =
           done ((s.zIssue i z (.addBounded v w k) (some d) o).modMe fun h => h.claimP k)))))) ∧
    (s.released (isRel o) = .ok () → ∀ i, s.zFinal = none → s.zInst true = .ok i → s.zBusy s.cur d = false →
      (open_ = true → exec (.zget sm d z o) s = .next (s.waitMe .releases)) ∧
      (open_ = false →
        exec (.zget sm d z o) s = .next ((s.zIssue i z .get (some d) o).retire (sm || isAcq o) .seq))) ∧
    (isRel o = true → s.drained s.cur = false → s.me.tx = none → s.rdS a = .ok v → ∀ i, s.zInst false = .ok i →
      exec (.psm sm d a z o) s = .next (s.waitMe (.drain false)) ∧
      exec (.zset sm a z o) s = .next (s.waitMe (.drain false))) ∧
    (∀ f, s.zFinal = some f → s.released (isRel o) = .ok () →
      (open_ = true → exec (.zget sm d z o) s = .next (s.waitMe .releases)) ∧
      (open_ = false → exec (.zget sm d z o) s =
        .next (((if isAcq o then s.acquired else s).wrS d (f.get z)).retire (sm || isAcq o) .seq))) ∧
    (∀ i op, let t := s.zIssue i z op (some d) o
      (t.me.s.get d).full = false ∧ (t.me.s.get d).claimed = true ∧
      ∃ r ∈ t.zreqs, r.id = s.nextId ∧ r.agent = s.cur ∧ r.z = z ∧ r.op = op ∧ r.acq = isAcq o ∧ r.rel = isRel o) ∧
    (∀ (x : Sec) (uid : Nat) (r : ZReq) (i : Inst), s.zreqs = [r] → r.sec = x → r.uid = uid → r.z = z → r.d = some d →
      (s.sec x).insts = [i] → i.uid = uid → ((s.hart r.agent).s.get d).claimed = true →
      ∃ (t : State) (i' : Inst), exec (.zenithCycle x uid z [r.id]) s = .next t ∧ t.zreqs = [] ∧ (t.sec x).insts = [i'] ∧
        (t.hart r.agent).s.get d = ⟨i.z.get z, true, false⟩ ∧
        (t.hart r.agent).roSeq = (if r.acq then s.wseq else (s.hart r.agent).roSeq) ∧
        i'.z.get z = (match r.op with
          | .add v => i.z.get z + v
          | .addBounded v lim _ => if (i.z.get z).toNat + v.toNat ≤ lim.toNat then i.z.get z + v else i.z.get z
          | .set v => v
          | .get => i.z.get z) ∧
        ∀ q, q ≠ z → i'.z.get q = i.z.get q)

/-! ## Thread control and migration -/

/-- R161 to R168, R371: thread control raises ILL on a master core. `done` ends the vt: it is counted no longer, its
slot loses it, and its home slot, if it is on hardware that runs and nothing else has it, draws the next number; with
the sync marker it waits first, without parking, for the earlier accesses (log entry 99). `yield` completes and gives
up the role, and a migrant to a D core returns with its registers to the slot that was kept for it; `go` and `goh`
move a context with no outstanding work, every s register full and no vector state, in a message with the next
sequence number, complete in place at the own cluster, and raise MIG or ADR; while work is outstanding they wait
without parking (log entry 99); `gohome` goes to the home cluster, where it takes the home slot that is kept for it,
and stays where it is if another vt has that slot (the model's reading, log entry 84); `sleep` completes where the
word differs and parks where it does not, raises ADR for a scratchpad or register window, and as an acquire waits,
without parking, for the agent's earlier releases (log entry 99). R166: what a migration message carries: the s
registers, the predicates, the floating-point state, the address behind the instruction, the vt with its home and the
home context's next sequence number; no vector state. -/
def Obligations.ThreadControl : Prop :=
  (∀ (s : State) (sm : Bool) (a b : Fin 16) (v ea : Word), s.me.chain = [] →
    (∀ x n, s.cur = .master x n →
      let ill := Host.Outcome.next (s.raise ⟨0x01, 0, 0, 0, 0⟩)
      exec (.done sm) s = ill ∧ exec (.yield sm) s = ill ∧ exec (.go sm a) s = ill ∧ exec (.goh sm a) s = ill ∧
      exec (.gohome sm) s = ill ∧ exec (.sleep sm a b) s = ill) ∧
    (∀ x i vt, s.cur = .thread x i → s.me.tx = none → s.vtAt x i.val = some vt →
     (sm = true → s.drained s.cur = false → exec (.done sm) s = .next (s.waitMe (.drain false))) ∧
     (s.released sm = .ok () → exec (.done sm) s = .next (s.finishVt x i.val vt) ∧
       let t := s.finishVt x i.val vt
       let home := s.homeIdx x i.val
       let draws := (t.ctx x home).holds = .bound vt.uid ∧ (t.ctx x home).reserved = none ∧
         .drawRequest (ctxAgent x home) ∈ t.agenda
       (∀ j ∈ (t.sec x).insts, j.uid = vt.uid → ∀ w ∈ j.vts, w.n ≠ vt.n) ∧
       ((s.ctx x i.val).extFrom = none →
         (s.slotUp x home = true →
           (i.val = home → (s.ctx x home).reserved = none → draws ∧ (t.ctx x home).accBound = false ∧
             (t.ctx x home).cirrus = none ∧ (t.ctx x home).digest = none) ∧
           (i.val ≠ home → home < 6144 → (s.ctx x home).reserved = some vt → (s.ctx x home).holds = .released →
             draws)) ∧
         (i.val ≠ home → (s.ctx x i.val).drawAfter = none → (t.ctx x i.val).holds = .released))) ∧
     ((s.ctx x i.val).extFrom = none → exec (.yield sm) s = .next ((s.retire sm .seq).dropRole s.cur) ∧
       let c := s.coreSt x (clusterOf i.val) (coreOf i.val)
       ((s.retire sm .seq).dropRole s.cur).coreSt x (clusterOf i.val) (coreOf i.val) =
         if c.holder = some (slotOf i.val) then { c with holder := none, last := slotOf i.val, watchdog := 0 } else c) ∧
     (∀ o, (s.ctx x i.val).extFrom = some o →
       exec (.yield sm) s = .next ((s.retire sm .seq).extReturn x i.val o) ∧
       (o < 6144 → o ≠ i.val →
         let t := (s.retire sm .seq).extReturn x i.val o
         t.hart (ctxAgent x o) = { (s.retire sm .seq).me with jobCtr := (s.hart (ctxAgent x o)).jobCtr } ∧
         t.vtAt x o = some vt ∧ (t.ctx x o).extFrom = none ∧ (t.ctx x o).reserved = none ∧ t.vtAt x i.val = none)) ∧
     (s.rdS a = .ok v → 95 < v.toNat → exec (.go sm a) s = .next (s.raise ⟨0x16, 0, v, 0, 0⟩)) ∧
     (s.rdS a = .ok v → (∀ t off, placeOf s.cur v.toNat 1 ≠ .ok (.spad t off)) →
       exec (.goh sm a) s = .next (s.raise ⟨0x16, 0, v, 0, 0⟩)) ∧
     (s.drained s.cur = false ∨ s.enginesIdle s.cur = false →
      let wait := Host.Outcome.next (s.waitMe (.drain true))
      exec (.gohome sm) s = wait ∧ (s.rdS a = .ok v → (v.toNat ≤ 95 → exec (.go sm a) s = wait) ∧
       ∀ t off, placeOf s.cur v.toNat 1 = .ok (.spad t off) → exec (.goh sm a) s = wait)) ∧
     (s.drained s.cur = true → s.enginesIdle s.cur = true →
      let full := ∀ r : Fin 16, (s.me.s.get r).full = true
      let home := s.homeIdx x i.val
      let left := s.acquired.modCtx x i.val fun c => { c with mxcfg := none }
      ∀ (e : Instr) (t : Fin 96) (homing : Bool),
        ((e = .go sm a ∧ homing = false ∧ s.rdS a = .ok v ∧ v.toNat ≤ 95 ∧ t = Fin.ofNat 96 v.toNat) ∨
          (e = .goh sm a ∧ homing = false ∧ s.rdS a = .ok v ∧ ∃ off, placeOf s.cur v.toNat 1 = .ok (.spad t off)) ∨
          (e = .gohome sm ∧ homing = true ∧ t = clusterOf home)) →
       (¬full → exec e s = .next (s.raise ⟨0x0C, 1, 0, 0, 0⟩)) ∧
       (full → s.vectorEmpty x i.val = false → exec e s = .next (s.raise ⟨0x0C, 2, 0, 0, 0⟩)) ∧
       (full → s.vectorEmpty x i.val = true →
        (t ≠ clusterOf i.val →
         exec e s = .next (left.migrateTo x i.val home vt t homing) ∧
         let u := left.migrateTo x i.val home vt t homing
         ((s.ctx x i.val).extFrom = none → (s.ctx x i.val).drawAfter = none →
           home < 6144 →
           (∃ f ∈ u.flight, f.sec = x ∧ f.cl = t ∧ f.body = .migrate (left.migration x i.val home vt homing) ∧
             .migrationMessageArrive f.id ∈ u.agenda) ∧
           (u.ctx x home).seq = (s.ctx x home).seq + 1 ∧ (u.ctx x i.val).holds = .released ∧
           ((s.ctx x home).reserved = none → i.val = home → (u.ctx x home).reserved = some vt))) ∧
        (t = clusterOf i.val →
         (homing = false ∨ i.val = home → exec e s = .next (left.retire sm .seq)) ∧
         (homing = true → i.val ≠ home →
          let r := left.retire sm .seq
          exec e s = .next (r.moveHome x i.val home vt) ∧
          ((s.ctx x home).reserved ≠ some vt → ((s.ctx x home).reserved ≠ none ∨ (s.ctx x home).holds ≠ .released) →
            r.moveHome x i.val home vt = r) ∧
          ((s.ctx x home).reserved = some vt → (s.ctx x i.val).extFrom = none → home < 6144 →
            let u := r.moveHome x i.val home vt
            u.hart (ctxAgent x home) = { r.me with jobCtr := (s.hart (ctxAgent x home)).jobCtr } ∧
            u.vtAt x home = some vt ∧ (u.ctx x home).reserved = none ∧ u.vtAt x i.val = none))))) ∧
     (s.rdS a = .ok ea → s.rdS b = .ok v → ∀ p, placeOf s.cur ea.toNat 8 = .ok p →
      ((∃ cl off, p = .spad cl off) ∨ (∃ c r, p = .reg c r) →
       exec (.sleep sm a b) s = .next (s.raise ⟨0x16, 0, ea, 0, 0⟩)) ∧
      ((∃ va, p = .app va) ∨ (∃ n off, p = .peer n off) → s.releaseOpen s.cur = true →
       exec (.sleep sm a b) s = .next (s.waitMe .releases))) ∧
     (s.rdS a = .ok ea → s.rdS b = .ok v → ∀ p r, placeOf s.cur ea.toNat 8 = .ok p → s.loadNat ea 8 true = .ok r →
      ((∃ va, p = .app va) ∨ (∃ n off, p = .peer n off)) → s.releaseOpen s.cur = false →
      (word r.1 ≠ v → exec (.sleep sm a b) s = .next (r.2.acquired.retire sm .seq)) ∧
      (word r.1 = v → exec (.sleep sm a b) s =
        .next (r.2.parkMe sm (.sleep (s.watchHome p).1 (s.watchHome p).2.1 (s.watchHome p).2.2 ea)))))) ∧
  (∀ (s : State) (x : Sec) (i home : Nat) (v : VtName) (bound : Bool),
    let h := s.hart (ctxAgent x i)
    let m := s.migration x i home v bound
    (∀ r : Fin 16, m.regs.get r = (h.s.get r).val) ∧ m.preds = h.p ∧ m.fmode = h.fmode ∧ m.fflags = h.fflags ∧
      m.srseed = h.srseed ∧ m.hpri = h.hpri ∧ m.pc = h.pc + 4 ∧ m.vt = v ∧ m.home = home ∧ m.seq = (s.ctx x home).seq ∧
      m.bound = bound ∧ m.from_ = i / 64)

/-! ## Special registers -/

/-- R25 to R37: what `mfs` reads at each number, on a thread context and on a master core; a number without a register
raises ILL, a privileged one PRV below sys level. CYCLE is a free value (log entry 9). -/
def Obligations.ReadSpecial : Prop :=
  ∀ (s : State) (sm : Bool) (d : Fin 16), s.me.chain = [] →
    let get := fun (n : BitVec 12) (v : Word) => exec (.mfs sm d n) s = .next ((s.wrS d v).retire sm .seq)
    get 0x008 s.me.fmode ∧ get 0x009 s.me.fflags ∧ get 0x00A s.me.srseed ∧ get 0x00B 0x0201 ∧ get 0x011 s.me.instret ∧
    exec (.mfs sm d 0x010) s =
      .next (({ s with freeCtr := s.freeCtr + 1 }.wrS d (Config.cycle s.freeCtr)).retire sm .seq) ∧
    (∀ n : BitVec 12, 0x10C < n.toNat ∨ (0x12 < n.toNat ∧ n.toNat < 0x100) ∨ (4 < n.toNat ∧ n.toNat < 8) ∨
      (11 < n.toNat ∧ n.toNat < 16) → exec (.mfs sm d n) s = .next (s.raise ⟨0x01, 0, 0, 0, 0⟩)) ∧
    (∀ x i, s.cur = .thread x i →
      let c := s.ctx x i.val
      let fused := (s.cluster x (clusterOf i.val)).dFused
      get 0x000 (word (65536 * x.val + i.val)) ∧ get 0x001 c.vtn ∧ get 0x002 c.sph ∧ get 0x003 c.homec ∧
      get 0x004 (if fused then 0 else if (coreOf i.val).val < 6 then 2 else 3) ∧
      get 0x012 (word (s.cluster x (clusterOf i.val)).migdup.toNat) ∧
      ∀ n : BitVec 12, 0x100 ≤ n.toNat → n.toNat ≤ 0x10C → exec (.mfs sm d n) s = .next (s.raise ⟨0x03, 0, 0, 0, 0⟩)) ∧
    (∀ x k, s.cur = .master x k →
      let m := s.master x k
      let c := s.sec x
      get 0x000 (word (65536 * x.val + 32768 + 4 * k.val)) ∧ get 0x001 0 ∧ get 0x002 0 ∧
      get 0x003 (word (65536 * x.val + 32768 + 4 * k.val)) ∧ get 0x004 7 ∧ get 0x012 0 ∧
      (m.sys = false → ∀ n : BitVec 12, 0x100 ≤ n.toNat → n.toNat ≤ 0x10C →
        exec (.mfs sm d n) s = .next (s.raise ⟨0x03, 0, 0, 0, 0⟩)) ∧
      (m.sys = true →
       get 0x100 (m.asid.setWidth 64) ∧ get 0x101 (s.ptbr x m.asid) ∧ get 0x102 m.evec ∧ get 0x103 m.epc ∧
       get 0x104 m.ecause ∧ get 0x105 m.eaddr ∧ get 0x106 m.estat ∧ get 0x107 m.escratch ∧
       (∃ v, get 0x108 v ∧ v.getLsbD 0 = c.rce ∧ v.getLsbD 1 = c.ovp ∧ v.getLsbD 2 = m.ie ∧ v.getLsbD 4 = false ∧
         v.extractLsb' 16 10 = m.tsel ∧ v.extractLsb' 5 11 = 0 ∧ v.extractLsb' 26 38 = 0 ∧
         v.getLsbD 3 = (decide (m.tsel.toNat < 768) &&
           s.pm x (Fin.ofNat 96 (m.tsel.toNat / 8)) (Fin.ofNat 8 m.tsel.toNat))) ∧
       (∃ v, get 0x109 v ∧ v.extractLsb' 32 7 = m.csel ∧ v.extractLsb' 39 25 = 0 ∧
         v.extractLsb' 0 32 = if m.csel.toNat < 96 then (s.cluster x (Fin.ofNat 96 m.csel.toNat)).weights else 0) ∧
       get 0x10A c.spillq ∧ get 0x10B c.dglogb ∧
       (∃ v, get 0x10C v ∧ v.getLsbD 63 = c.hxLock ∧ v.getLsbD 33 = c.hxDbi ∧ v.getLsbD 32 = c.hxDbo ∧
         v.extractLsb' 0 32 = c.hxIn ∧ v.extractLsb' 34 29 = 0)))

/-- R25, R29 to R37: what `mts` leaves in each register, reserved bits and illegal values as each layout says;
read-only registers discard the write. PMALL applies PM to every core whatever TSEL names, and else the new TSEL
selects (log entry 77). In HXMBOX a lock request that finds the lock with Horizon stands until the lock is free, a
write of LOCK = 0 withdraws it, and the doorbell works without the lock (the model's choice, log entry 78); a command
sent while an earlier one has not been taken, or not been answered, is answered BUSY (R423). ASID and PTBR wait,
without parking, for the master core's accesses and commands (R296, log entry 99). R32, R339: a write of PTBR gives
the address space its root, and no other address space another. -/
def Obligations.WriteSpecial : Prop :=
  (∀ (s : State) (sm : Bool) (a : Fin 16) (v : Word), s.me.chain = [] → s.rdS a = .ok v →
    let own := fun (n : BitVec 12) (f : Hart → Hart) => exec (.mts sm a n) s = .next ((s.modMe f).retire sm .seq)
    own 0x008 (fun h => { h with fmode := (v &&& 0x100) ||| if v.toNat % 8 ≤ 4 then v &&& 7 else 0 }) ∧
    own 0x009 (fun h => { h with fflags := v &&& 0x1F }) ∧ own 0x00A (fun h => { h with srseed := v }) ∧
    (∀ n : BitVec 12, n = 0 ∨ n = 1 ∨ n = 2 ∨ n = 3 ∨ n = 4 ∨ n = 0x0B ∨ n = 0x10 ∨ n = 0x11 ∨ n = 0x12 →
      own n (fun h => h)) ∧
    (∀ x i, s.cur = .thread x i → ∀ n : BitVec 12, 0x100 ≤ n.toNat → n.toNat ≤ 0x10C →
      exec (.mts sm a n) s = .next (s.raise ⟨0x03, 0, 0, 0, 0⟩)) ∧
    (∀ x k, s.cur = .master x k → (s.master x k).sys = true →
      let put := fun (n : BitVec 12) (f : Master → Master) =>
        exec (.mts sm a n) s = .next ((s.modMaster x k f).retire sm .seq)
      (s.drained s.cur = false ∨ s.enginesIdle s.cur = false →
        exec (.mts sm a 0x100) s = .next (s.waitMe (.drain true)) ∧
        exec (.mts sm a 0x101) s = .next (s.waitMe (.drain true))) ∧
      (s.drained s.cur = true → s.enginesIdle s.cur = true →
        put 0x100 (fun m => { m with asid := v.setWidth 16 }) ∧
        exec (.mts sm a 0x101) s = .next ((s.writeRoot x (s.master x k).asid v).retire sm .seq)) ∧
      put 0x102 (fun m => { m with evec := v &&& 0x00FFFFFFFFFFFFFC }) ∧ put 0x103 (fun m => { m with epc := v }) ∧
      put 0x104 (fun m => { m with ecause := v &&& 0xFF }) ∧ put 0x105 (fun m => { m with eaddr := v }) ∧
      put 0x106 (fun m => { m with estat := v &&& 0xFFFF03FF }) ∧ put 0x107 (fun m => { m with escratch := v }) ∧
      (∃ u : State, exec (.mts sm a 0x108) s = .next (u.retire sm .seq) ∧ (u.master x k).ie = v.getLsbD 2 ∧
        (u.master x k).tsel = v.extractLsb' 16 10 ∧ (u.sec x).rce = v.getLsbD 0 ∧ (u.sec x).ovp = v.getLsbD 1 ∧
        (v.getLsbD 4 = true → ∀ cl co, u.pm x cl co = v.getLsbD 3) ∧
        (v.getLsbD 4 = false → ∀ cl co, u.pm x cl co =
          if cl.val * 8 + co.val = (v.extractLsb' 16 10).toNat then v.getLsbD 3 else s.pm x cl co)) ∧
      (∃ u : State, exec (.mts sm a 0x109) s = .next (u.retire sm .seq) ∧ (u.master x k).csel = v.extractLsb' 32 7 ∧
        (∀ cl : Fin 96, cl.val = (v.extractLsb' 32 7).toNat → ∀ q, q < 8 →
          ((u.cluster x cl).weights.extractLsb' (4 * q) 4).toNat = max 1 (v.extractLsb' (4 * q) 4).toNat) ∧
        ∀ cl : Fin 96, cl.val ≠ (v.extractLsb' 32 7).toNat → u.cluster x cl = s.cluster x cl) ∧
      exec (.mts sm a 0x10A) s =
        .next ((s.modSec x fun c => { c with spillq := v &&& 0x000FFFFFFFFF000F }).retire sm .seq) ∧
      exec (.mts sm a 0x10B) s = .next ((s.modSec x fun c =>
        { c with dglogb := (v &&& 0x000FFFFFFFFF0000) ||| (if v.toNat % 64 < 16 then 16 else v &&& 0x3F)
                 dgP := 0 }).retire sm .seq) ∧
      (∃ u : State, exec (.mts sm a 0x10C) s = .next (u.retire sm .seq) ∧
        (u.sec x).hxLock = (v.getLsbD 63 && ((s.sec x).hxLock || !(s.sec x).hxHorizon)) ∧
        (u.sec x).hxWant = (v.getLsbD 63 && ((s.sec x).hxWant || (!(s.sec x).hxLock && (s.sec x).hxHorizon))) ∧
        (v.getLsbD 32 = true → (s.sec x).hxDbo = true ∨ (s.sec x).hxResps ≠ [] → (u.sec x).hxResps =
          (s.sec x).hxResps ++ [⟨BitVec.ofNat 32 ((v.toNat % 2 ^ 32) / 2 ^ 16 * 2 ^ 16 + 3 * 2 ^ 8), []⟩]) ∧
        (u.sec x).hxDbi = ((s.sec x).hxDbi && !v.getLsbD 33) ∧ 
        (u.sec x).hxDbo = ((s.sec x).hxDbo || (v.getLsbD 32 && (s.sec x).hxResps.isEmpty)) ∧
        (u.sec x).hxOut = v.setWidth 32))) ∧
  (∀ (s : State) (x : Sec) (asid other : BitVec 16) (v : Word),
    (s.writeRoot x asid v).ptbr x asid = v &&& 0x000FFFFFFFFF0001 ∧
    (other ≠ asid → (s.writeRoot x asid v).ptbr x other = s.ptbr x other) ∧
    (∀ y, y ≠ x → (s.writeRoot x asid v).sec y = s.sec y))

/-! ## Traps and system instructions -/

/-- R38, R298, R391: `trap`, `brk` and every fault of a master core enter the handler at EVEC, whatever IE is: EPC is
the address of the instruction (or of the first `himm` of its chain), ECAUSE, EADDR and ESTAT say what happened and
what level and IE were, the level is sys and IE 0; no general register changes and nothing is counted. R156, R298,
R395, R396: a fault of a thread context parks it at the instruction and changes none of its registers. The record at
its running sector index in the area of its instance, of which the LLC holds the line here, says VALID, the cause,
subcause and job, the pc (that of the first `himm` of a chain), the address, VTN, HOMEC, the instruction word and the
detail. R38, R299: `eret` goes to EPC at the level in PPL with IE from PIE; below sys level, and in a thread context,
it raises PRV; an EPC that is no legal target faults at the `eret` and changes nothing but what the fault does. R392
to R394: a pending event is taken while IE is 1: CHL first, then the IRQ subcause with the lowest code; taking it
clears it, EPC is the next instruction that has not retired (behind a parked `wfi`), and ESTAT.SUB and EADDR are the
event's. With IE 0 nothing is taken, nor, where the entry is an acquire, while an earlier release of the core is open
(R311; the form of the wait is log entry 99). -/
def Obligations.Exceptions : Prop :=
  (∀ (s : State) (sm : Bool) (n : BitVec 7) (x : Sec) (k : Fin 16) (c sub job : Nat) (addr : Word) (dt : Nat),
    s.cur = .master x k → s.me.tx = none →
    let m := s.master x k
    let pc := if s.me.chain.isEmpty then s.me.pc else s.me.chainPc
    let entered := fun (t : State) (c sub job : Nat) (addr : Word) =>
      (t.master x k).epc = pc ∧ (t.master x k).ecause = word c ∧ (t.master x k).eaddr = addr ∧
      (t.master x k).estat.extractLsb' 0 8 = BitVec.ofNat 8 sub ∧ (t.master x k).estat.getLsbD 8 = m.sys ∧
      (t.master x k).estat.getLsbD 9 = m.ie ∧ (t.master x k).estat.extractLsb' 16 16 = BitVec.ofNat 16 job ∧
      (t.master x k).sys = true ∧ (t.master x k).ie = false ∧ (t.master x k).evec = m.evec ∧ t.me.pc = m.evec ∧
      t.me.chain = [] ∧ t.me.park = none ∧ t.me.s = s.me.s ∧ t.me.p = s.me.p ∧ t.me.instret = s.me.instret
    (s.me.chain = [] →
     (∃ t, exec (.trap sm n) s = .next t ∧ entered t 0x12 n.toNat 0 0) ∧
     (∃ t, exec (.brk sm n) s = .next t ∧ entered t 0x11 n.toNat 0 0)) ∧
    (c ≠ 0x0E → entered (s.raise ⟨c, sub, addr, job, dt⟩) c sub job (if hasAddress c then addr else 0))) ∧
  (∀ (s : State) (sm : Bool) (n : BitVec 7) (x : Sec) (i : Fin 6144) (f : Flt), s.cur = .thread x i → s.me.tx = none →
    let parked := fun (t : State) => t.me = { s.me with
      pc := if s.me.chain.isEmpty then s.me.pc else s.me.chainPc
      chain := [], sWait := false
      park := some (.fault (s.me.pc + 4)) }
    (f.cause ≠ 0x0E → parked (s.raise f) ∧ ∀ j, j ≠ i → (s.raise f).hart (.thread x j) = s.hart (.thread x j)) ∧
    (f.cause ≠ 0x0E → ∀ inst r l, s.instOf s.cur = some inst → inst.rcd.save % 65536 = 0 →
     inst.rcd.save + 0x1000000 ≤ 2 ^ 56 →
     let va := inst.rcd.save + 0x900000 + 64 * i.val
     let k := lineKey x inst.asid va
     s.translateAs x inst.asid va false = .ok r → s.line k = some l → l.data.length = 128 →
     ∃ l', (s.raise f).line k = some l' ∧
       let field := fun (o : Nat) => leNat (slice l'.data (va % 128 + o) 8)
       field 0x00 = f.cause % 256 + f.sub % 256 * 256 + f.job % 65536 * 65536 + 2 ^ 32 +
         (if f.job = 0 then 0 else 2 ^ 33) ∧
       field 0x08 = (if s.me.chain.isEmpty then s.me.pc else s.me.chainPc).toNat ∧
       field 0x10 = (if hasAddress f.cause then f.addr.toNat else 0) ∧
       field 0x18 = (s.ctx x i.val).vtn.toNat ∧ field 0x20 = (s.ctx x i.val).homec.toNat ∧
       field 0x28 = s.curWord.toNat ∧ field 0x30 = f.detail % 2 ^ 64 ∧ field 0x38 = 0 ∧
       ∀ o, o < 128 → (o < va % 128 ∨ va % 128 + 64 ≤ o) → l'.data[o]? = l.data[o]?) ∧
    (s.me.chain = [] →
     (∃ t, exec (.trap sm n) s = .next t ∧ parked t) ∧ (∃ t, exec (.brk sm n) s = .next t ∧ parked t))) ∧
  (∀ (s : State) (sm : Bool) (x : Sec) (k : Fin 16) (i : Fin 6144), s.me.chain = [] →
    (s.cur = .thread x i → exec (.eret sm) s = .next (s.raise ⟨0x03, 0, 0, 0, 0⟩)) ∧
    (s.cur = .master x k → s.me.tx = none →
     let m := s.master x k
     (m.sys = false → exec (.eret sm) s = .next (s.raise ⟨0x03, 0, 0, 0, 0⟩)) ∧
     (m.sys = true →
      (2 ^ 56 ≤ m.epc.toNat → exec (.eret sm) s = .next (s.raise ⟨0x16, 0, m.epc, 0, 0⟩)) ∧
      (m.epc.toNat < 2 ^ 56 → m.epc.toNat % 4 ≠ 0 → exec (.eret sm) s = .next (s.raise ⟨0x05, 0, m.epc, 0, 0⟩)) ∧
      (m.epc.toNat < 2 ^ 56 → m.epc.toNat % 4 = 0 →
       ∃ t, exec (.eret sm) s = .next t ∧ t.me.pc = m.epc ∧ (t.master x k).sys = m.estat.getLsbD 8 ∧
         (t.master x k).ie = m.estat.getLsbD 9 ∧ (t.master x k).epc = m.epc ∧ (t.master x k).estat = m.estat ∧
         (t.master x k).ecause = m.ecause ∧ (t.master x k).eaddr = m.eaddr ∧ t.me.s = s.me.s ∧ t.me.p = s.me.p ∧
         .interruptTaken x k ∈ t.agenda)))) ∧
  (∀ (s : State) (x : Sec) (k : Fin 16),
    let m := s.master x k
    let g : Agent := .master x k
    let h := s.hart g
    (m.ie = false ∨ (m.chl = none ∧ m.irqs = []) ∨ (m.nextAcquires = true ∧ s.releaseOpen g = true) →
     exec (.interruptTaken x k) s = .next s) ∧
    (m.chl ≠ none → m.nextAcquires = true) ∧
    (m.ie = true → s.inService g = true → (m.nextAcquires && s.releaseOpen g) = false → h.tx = none →
     (∀ uid d, h.park ≠ some (.index uid d) ∧ h.park ≠ some (.pool uid d)) →
     ∀ c sub addr, ((∃ p, m.chl = some p ∧ c = 0x14 ∧ sub = p.sub ∧ addr = p.addr) ∨
       (m.chl = none ∧ c = 0x15 ∧ ∃ q rest, m.irqs = (sub, some q) :: rest ∧ addr = q)) →
     ∃ t, exec (.interruptTaken x k) s = .next t ∧ (t.hart g).pc = m.evec ∧ (t.hart g).park = none ∧
       (t.hart g).s = h.s ∧ (t.master x k).ecause = word c ∧ (t.master x k).eaddr = addr ∧
       (t.master x k).estat.extractLsb' 0 8 = BitVec.ofNat 8 sub ∧ (t.master x k).estat.getLsbD 9 = true ∧
       (t.master x k).estat.getLsbD 8 = m.sys ∧ (t.master x k).sys = true ∧ (t.master x k).ie = false ∧
       (c = 0x14 → (t.master x k).chl = none ∧ (t.master x k).irqs = m.irqs) ∧
       (c = 0x15 → (t.master x k).irqs = Sparse.erase m.irqs sub) ∧
       (t.master x k).epc = (if h.park = some .wfi then h.pc + 4 else if h.chain = [] then h.pc else h.chainPc)))

/-- R67, R299 to R304: the privileged forms at sys level: `wfi`, the invalidations and their wait, `seal`, which
meets a poisoned line as MCE (R408), and `ipi`. In a thread context and at app level each of them raises PRV. -/
def Obligations.SystemForms : Prop :=
  ∀ (s : State) (sm : Bool) (d a b : Fin 16) (v w u : Word), s.me.chain = [] →
    ((∀ x k, s.cur = .master x k → (s.master x k).sys = false) →
     let prv := Host.Outcome.next (s.raise ⟨0x03, 0, 0, 0, 0⟩)
     exec (.wfi sm) s = prv ∧ exec (.tlbi sm a b) s = prv ∧ exec (.tlbiAll sm a) s = prv ∧ exec (.tlbsync sm) s = prv ∧
     exec (.seal sm d a) s = prv ∧ exec (.ipi sm a b) s = prv) ∧
    (∀ x k, s.cur = .master x k → (s.master x k).sys = true → s.me.tx = none →
     let m := s.master x k
     (((m.chl ≠ none ∨ m.irqs ≠ []) → exec (.wfi sm) s = .next (s.retire sm .seq)) ∧
      (m.chl = none → m.irqs = [] → exec (.wfi sm) s = .next (s.parkMe sm .wfi))) ∧
     (m.tlbis = [] → exec (.tlbsync sm) s = .next ((s.afterSync x).retire sm .seq)) ∧
     (m.tlbis ≠ [] → exec (.tlbsync sm) s = .next (s.parkMe sm .tlbis)) ∧
     (s.rdS a = .ok v → s.rdS (succ16 a) = .ok w →
      (s.rdS b = .ok u → s.tlbiFaults x v.toNat w.toNat (some (u.setWidth 16)) = [] →
       exec (.tlbi sm a b) s = .next ((s.startTlbi x k v.toNat w.toNat (some (u.setWidth 16))).retire sm .seq)) ∧
      (s.tlbiFaults x v.toNat w.toNat none = [] →
       exec (.tlbiAll sm a) s = .next ((s.startTlbi x k v.toNat w.toNat none).retire sm .seq)) ∧
      (∀ fs, s.sealFaults x m.asid v.toNat w.toNat = [] → s.pageFrames x m.asid v.toNat (w.toNat / 65536) = .ok fs →
       (∀ bs, s.rangeBytes x m.asid v.toNat (w.toNat / 128) = .ok bs →
        exec (.seal sm d a) s = .next (((s.sealRange x m.asid v.toNat w.toNat fs bs).wrS d
          (word ((s.sec x).sealCount + 1))).retire sm .seq)) ∧
       (∀ va n, s.rangeBytes x m.asid v.toNat (w.toNat / 128) = .error (va, .mce n) →
        exec (.seal sm d a) s = .next (s.raise ⟨0x13, n, word va, 0, 0⟩)))) ∧
     (s.rdS a = .ok v → s.rdS b = .ok w →
      (∀ n : Fin 16, v.toNat = 65536 * x.val + 32768 + 4 * n.val → w.toNat % 16 = 0 → s.released true = .ok () →
       exec (.ipi sm a b) s = .next ((s.irq x n 3 (word (w.toNat / 256))).retire sm .seq)) ∧
      (∀ (cl : Fin 96) (co : Fin 8), v.toNat = 65536 * x.val + 64 * cl.val + 8 * co.val → s.released true = .ok () →
       (w.toNat % 16 = 1 → (s.sec x).spillq.toNat / 2 ^ 16 % 2 ^ 36 ≠ 0 →
        exec (.ipi sm a b) s = .next ((s.post (.preempt x cl co k)).retire sm .seq)) ∧
       (w.toNat % 16 = 2 → exec (.ipi sm a b) s = .next ((s.post (.coreRelease x cl co)).retire sm .seq))) ∧
      (3 ≤ w.toNat % 16 ∨ v.toNat / 65536 ≠ x.val →
       exec (.ipi sm a b) s = .next (s.raise ⟨0x09, 0x22, 0, 0, 0⟩))))

/-! ## Matrix commands -/

/-- R222 to R226, R228: `mxcfg` sets a legal configuration, turns an illegal one away with SHP CFG, and one that
reshapes a live accumulator with ACC unless it discards; `mxrel` frees the accumulators. Both wait for the context's
commands, parked, whose reads of open channels are then acquires (log entry 132). That a first configuration never
raises ACC is the model's reading (log entry 56). R215, R221, R229 to R234, R266: a matrix command whose operands pass
the checks is put at the end of its core's queue with its operands, configuration, FMODE and seed as they are at
issue, and its job's identifier is the result. A sparse command is queued on the state `u` that the load of its shape
record leaves, and a gathered one on the state that the read of its index list leaves, which in an open channel is an
acquire and waits, without parking, for the context's earlier releases (R311, R324, log entry 99). A record that
breaks a limit is refused before its tile is looked at (log entry 108). R232, R240, R16: a predicated command of any
form whose bit is 0 has a job that is DONE at once (log entry 62), queues nothing and binds nothing (the model's
choice, log entry 107); the tile predicate forms set, clear, load, store and test bits of a q register. -/
def Obligations.MatrixForms : Prop :=
  (∀ (s : State) (sm : Bool) (a : Fin 16) (b : Bool) (x : Sec) (i : Fin 6144) (c : Word × Word), s.me.chain = [] →
    s.cur = .thread x i → s.me.tx = none → s.rdPair a = .ok c →
    let own := s.ctx x i.val
    let live := own.accLive.get 0 = true ∨ own.accLive.get 1 = true
    let set := fun (t : State) => (t.engAwaited false).modCtx x i.val fun q => { q with mxcfg := some c, accInt := (mxShape c).int }
    (s.mxBusy s.cur = true →
     exec (.mxcfg sm a b) s = .next (s.parkMe sm .commands) ∧ exec (.mxrel sm) s = .next (s.parkMe sm .commands)) ∧
    (s.mxBusy s.cur = false →
     (mxLegal c = false → exec (.mxcfg sm a b) s = .next (s.raise ⟨0x09, 0x21, 0, 0, 0⟩)) ∧
     (mxLegal c = true →
      (own.mxcfg = none ∨ ¬live → exec (.mxcfg sm a false) s = .next ((set s).retire sm .seq)) ∧
      (∀ old, own.mxcfg = some old → live →
       (reshapes old c = true → exec (.mxcfg sm a false) s = .next (s.raise ⟨0x0B, 0, 0, 0, 0⟩)) ∧
       (reshapes old c = false → exec (.mxcfg sm a false) s = .next ((set s).retire sm .seq))) ∧
      (∃ t, exec (.mxcfg sm a true) s = .next t ∧ completed s t ∧ (t.ctx x i.val).mxcfg = some c ∧
        (t.ctx x i.val).accLive.get 0 = false ∧ (t.ctx x i.val).accLive.get 1 = false)) ∧
     (∃ t, exec (.mxrel sm) s = .next t ∧ completed s t ∧ (t.ctx x i.val).accBound = false ∧
       (t.ctx x i.val).accLive.get 0 = false ∧ (t.ctx x i.val).accLive.get 1 = false))) ∧
  (∀ (s : State) (sm : Bool) (d a b : Fin 16) (q : Fin 4) (p z n : Bool) (f : BitVec 4) (x : Sec) (i : Fin 6144)
    (a1 a2 b1 b2 : Word), s.me.chain = [] → s.cur = .thread x i → s.me.tx = none →
    let room := fun (u : State) => u.jobSpace ∧ ((u.cluster x (clusterOf i.val)).mx.get (coreOf i.val)).length < 4
    let queuedOn := fun (u : State) (e : Instr) (c : Actor → MxCmd) => room u →
      ∃ t act, exec e s = .next t ∧ u.queuedMx t x i d { c act with bind_ := (u.ctx x i.val).cirrus }
    let queued := queuedOn s
    queued (.mxzero sm d n) (s.mxCmd .zero n (0, 0)) ∧
    (s.rdS a = .ok a1 →
     (ownOperand s.cur a1.toNat 65536 128 true = [] →
      queued (.mxsave sm d a n) (fun act => { s.mxCmd .save n (0, 0) act with a := a1 }) ∧
      queued (.mxrest sm d a n) (fun act => { s.mxCmd .rest n (0, 0) act with a := a1 })) ∧
     (s.mxPred d q p = .ok true → ∀ cfg, (s.ctx x i.val).mxcfg = some cfg →
      let h := mxShape cfg
      (outFaults s.cur .scale h 0 a1.toNat 0 = [] →
       queued (.mxscale sm d a q p n) (fun act => { s.mxCmd .scale n cfg act with a := a1 })) ∧
      (s.rdS (succ16 a) = .ok a2 →
       (outFaults s.cur .st h f.toNat a1.toNat a2 = [] →
        queued (.mxst sm d a f q p n) (fun act => { s.mxCmd .st n cfg act with a := a1, a2 := a2, fmt := f.toNat })) ∧
       (outFaults s.cur .stq h f.toNat a1.toNat a2 = [] →
        queued (.mxstq sm d a f q p n) (fun act =>
          { s.mxCmd .stq n cfg act with a := a1, a2 := a2, fmt := f.toNat }))) ∧
      (s.rdS b = .ok b1 →
       (s.rdSecond a (blockTag h.af) = .ok a2 → s.rdSecond b (blockTag h.bf) = .ok b2 →
        aFaults s.cur h a1.toNat a2.toNat = [] → bFaults s.cur h b1.toNat b2.toNat = [] →
        queued (.mxmm sm d a b q p z n) (fun act =>
          { s.mxCmd .mm n cfg act with z := z, a := a1, a2 := a2, b := b1, b2 := b2, enumerated := true })) ∧
       (∀ rows u, s.rdS (succ16 a) = .ok a2 → s.rdSecond b (blockTag h.bf) = .ok b2 →
        s.readIndexList h a2.toNat = ([], none, rows, u) → gatherFaults s.cur h a1.toNat rows = [] →
        bFaults s.cur h b1.toNat b2.toNat = [] →
        queuedOn u (.mxmmg sm d a b q p z n) (fun act => { u.mxCmd .mmg n cfg act with
          z := z, a := a1, a2 := a2, b := b1, b2 := b2, rows := rows, enumerated := true })) ∧
       (s.rdS (succ16 a) = .ok a2 → ownOperand s.cur a2.toNat (2 * h.m) 2 false = [] →
        (s.inOpen x (clusterOf i.val) (a2.toNat % 0x400000) (2 * h.m) && s.releaseOpen s.cur) = true →
        (s.rdSecond b (blockTag h.bf) = .ok b2 →
          exec (.mxmmg sm d a b q p z n) s = .next (s.waitMe .releases)) ∧
        (s.rdS (succ16 b) = .ok b2 → exec (.mxmmgs sm d a b q p z n) s = .next (s.waitMe .releases))) ∧
       (∀ ws u, s.rdS (succ16 b) = .ok b2 → s.readShape b1 = ([], none, some (ws, u)) →
        let r := shapeRec ws
        let slot := if r.kind = 2 then (s.ctx x i.val).cirrus.map fun k => (u.cluster x (clusterOf i.val)).cirrus.get k
          else none
        (∀ g, recFault s.cur h r (s.ctx x i.val).cirrus = some g → s.rdSecond a (blockTag h.af) = .ok a2 →
          aFaults s.cur h a1.toNat a2.toNat = [] → exec (.mxmms sm d a b q p z n) s = .next (s.raise g)) ∧
        (recFault s.cur h r (s.ctx x i.val).cirrus = none → tileFaults s.cur h r b2 = [] →
         tileOk h r (b2.toNat % 2 ^ 32) (b2.toNat / 2 ^ 32) = true →
         (s.rdSecond a (blockTag h.af) = .ok a2 → aFaults s.cur h a1.toNat a2.toNat = [] →
          queuedOn u (.mxmms sm d a b q p z n) (fun act => { u.mxCmd .mms n cfg act with
            z := z, a := a1, a2 := a2, b := b1, b2 := b2, shape := ws, slot := slot, enumerated := r.kind == 0 })))) ∧
       (∀ rows w ws u, s.rdS (succ16 b) = .ok b2 → s.rdS (succ16 a) = .ok a2 →
        s.readIndexList h a2.toNat = ([], none, rows, w) → gatherFaults s.cur h a1.toNat rows = [] →
        w.readShape b1 = ([], none, some (ws, u)) →
        let r := shapeRec ws
        let slot := if r.kind = 2 then (s.ctx x i.val).cirrus.map fun k => (u.cluster x (clusterOf i.val)).cirrus.get k
          else none
        recFault s.cur h r (s.ctx x i.val).cirrus = none → tileFaults s.cur h r b2 = [] →
        tileOk h r (b2.toNat % 2 ^ 32) (b2.toNat / 2 ^ 32) = true →
        queuedOn u (.mxmmgs sm d a b q p z n) (fun act => { u.mxCmd .mmgs n cfg act with
          z := z, a := a1, a2 := a2, b := b1, b2 := b2, rows := rows, shape := ws, slot := slot
          enumerated := r.kind == 0 })))))) ∧
  (∀ (s : State) (sm : Bool) (d : Fin 4) (a b r : Fin 16) (k : Fin 8) (q : Fin 4) (z n : Bool) (f : BitVec 4) (x : Sec)
    (i : Fin 6144) (v ea : Word) (w : BitVec 128), s.me.chain = [] → s.cur = .thread x i → s.me.tx = none →
    (s.jobSpace → s.mxPred r q true = .ok false → ∀ e : Instr,
     (e = .mxmm sm r a b q true z n ∨ e = .mxmmg sm r a b q true z n ∨ e = .mxmms sm r a b q true z n ∨
       e = .mxmmgs sm r a b q true z n ∨ e = .mxst sm r a f q true n ∨ e = .mxstq sm r a f q true n ∨
       e = .mxscale sm r a q true n) →
     ∃ t id, exec e s = .next t ∧ (t.ctx x i.val).accBound = (s.ctx x i.val).accBound ∧ completed s t ∧
        t.me.s.get r = ⟨word id, true, false⟩ ∧
       (t.cluster x (clusterOf i.val)).mx = (s.cluster x (clusterOf i.val)).mx ∧
       ∃ j, t.job x (s.jobOwner s.cur) id = some j ∧ j.running = false ∧ j.status = 1 ∧ j.flt = none) ∧
    (s.rdS a = .ok v →
     let old := if (s.me.q.get d).void then 0 else (s.me.q.get d).val
     (∃ u : BitVec 128, exec (.qset sm d a) s = .next ((s.wrQ d u).retire sm .seq) ∧
       ∀ j, j < 128 → u.getLsbD j = (old.getLsbD j || decide (j = v.toNat % 128))) ∧
     (∃ u : BitVec 128, exec (.qclr sm d a) s = .next ((s.wrQ d u).retire sm .seq) ∧
       ∀ j, j < 128 → u.getLsbD j = (old.getLsbD j && decide (j ≠ v.toNat % 128))) ∧
     (s.rdQ d = .ok w → exec (.qtest sm k d a) s = .next ((s.wrP k (w.getLsbD (v.toNat % 128))).retire sm .seq))) ∧
    (∀ cl off, s.rdS a = .ok ea → s.ownSpad ea 16 cl off →
     exec (.qld sm d a) s = .next (((s.channelRead x cl off 16).wrQ d
       (BitVec.ofNat 128 (leNat (s.spadBytes x cl off 16)))).retire sm .seq) ∧
     (s.rdQ d = .ok w →
      exec (.qst sm d a) s = .next ((s.spadWrite x cl off (leBytes 16 w.toNat)).retire sm .seq))))

/-- R104, R231: the sums of the integer class: each element of the M×N part takes the old element, or 0 under Z, plus
the products along K, modulo 2^32; the elements beyond keep their values, and no flag is raised. -/
def Obligations.IntegerSums : Prop :=
  ∀ (h : MxShape) (z : Bool) (rows cols : List (List Nat)) (acc : List Nat) (i j : Nat), h.int = true →
    h.m ≤ 128 → h.n ≤ 128 → rows.length = h.m → cols.length = h.n → (∀ r ∈ rows, r.length = h.k) →
    (∀ c ∈ cols, c.length = h.k) → acc.length = 16384 → i < 128 → j < 128 →
    let strip := fun (l : List Nat) => (⟨l.map some, []⟩ : Strip)
    let out := multiplyAcc h z (rows.map strip) (cols.map strip) acc
    out.2 = 0 ∧ out.1.length = 16384 ∧
    out.1.getD (128 * i + j) 0 =
      if h.m ≤ i ∨ h.n ≤ j then acc.getD (128 * i + j) 0
      else modPow 32 ((if z then 0 else (acc.getD (128 * i + j) 0 : Int)) +
        ((List.range h.k).map fun k =>
          signedOf 8 ((rows.getD i []).getD k 0) * signedOf 8 ((cols.getD j []).getD k 0)).sum)

/-- R216, R227, R375: the steps of a cluster's engine: a grant goes to the visited queue while its visit lasts and its
head can run, else to the next queue with a runnable head, which then has its weight of steps; without one the engine
rests; a command whose time is used up has its effect, leaves the queue, and its job ends, or waits while the LLC has
no way for it (R331); a claim takes the slots that hold an owner's accumulator, and a command takes a slot that holds
another owner's: live contents are first written to the accumulator image of their owner's area (R19; log entries 59,
61). -/
def Obligations.EngineSteps : Prop :=
  ∀ (s : State) (x : Sec) (cl : Fin 96) (co : Fin 8) (h : MxCmd) (home : Fin 6144) (slot : Fin 2),
    let c := s.cluster x cl
    let runnable := fun (k : Fin 8) => ∃ h, s.mxHead x cl k = some h ∧ s.mxRunnable x cl h = true
    (s.unitsRun x = true → s.isFenced x (chipletOf cl) = false → c.budget = 0 →
     (0 < c.stepsLeft → runnable c.visit →
      ∃ t, exec (.engineStep x cl) s = .next t ∧ (t.cluster x cl).visit = c.visit ∧
        (t.cluster x cl).budget = 128 ∧ (t.cluster x cl).stepsLeft = c.stepsLeft - 1) ∧
     (c.stepsLeft = 0 → runnable co → (∀ k : Fin 8, (k.val + 8 - c.visit.val) % 8 < (co.val + 8 - c.visit.val) % 8 →
         ¬runnable k) →
      ∃ t, exec (.engineStep x cl) s = .next t ∧ (t.cluster x cl).visit = co ∧ (t.cluster x cl).budget = 128 ∧
        (t.cluster x cl).stepsLeft = max 1 (c.weights.toNat / 2 ^ (4 * co.val) % 16) - 1) ∧
     ((∀ k, ¬runnable k) →
      ∃ t, exec (.engineStep x cl) s = .next t ∧ (t.cluster x cl).budget = 0 ∧ (t.cluster x cl).stepsLeft = 0)) ∧
    (s.mxHead x cl co = some h → h.left = some 0 → s.mxRunnable x cl h = true →
     let r := match h.flt with
       | some f => (s, 0, some f)
       | none => (s.engObserve x cl h h.reads).mxEffect x cl co h
     (r.2.2.any Flt.waits = true →
       exec (.matrixCommandComplete x cl co) s = .next (s.post (.matrixCommandComplete x cl co))) ∧
     (r.2.2.any Flt.waits = false →
     ∃ t, exec (.matrixCommandComplete x cl co) s = .next t ∧ t.agenda.head? = some (.engineStep x cl) ∧
       t.accs = r.1.accs ∧ t.spad = r.1.spad ∧
       (t.cluster x cl).mx.get co = ((r.1.cluster x cl).mx.get co).tail)) ∧
    (∃ t, exec (.accumulatorClaim x home slot) s = .next t ∧
      (∀ o k, ∀ g : AccTag, (t.accTag x o k slot) = some g → g.owner.home ≠ home.val) ∧
      ∀ o k, ∀ (g : AccTag) (j : Inst), s.accTag x o k slot = some g → g.live = true → g.owner.home = home.val →
        s.inst x g.owner.uid = some j →
        (∀ o' k', ∀ g' : AccTag, s.accTag x o' k' slot = some g' → g'.owner.home = home.val → o' = o ∧ k' = k) →
        t = (s.areaWrite x j.asid (j.rcd.save + 0x1000000 + home.val * 0x20000 + slot.val * 0x10000)
          ((s.slotAcc x o k slot).flatMap (leBytes 4))).setAccTag x o k slot none) ∧
    (∀ (o : SlotOwner) (g : AccTag) (j : Inst), h.actor.accOwner = some o → s.accTag x cl co h.n = some g → g.owner ≠ o →
      g.live = true → s.inst x g.owner.uid = some j → s.accIsLive x cl co h.actor h.n = false →
      (s.takeSlot x cl co h).1 =
        ((s.areaWrite x j.asid (j.rcd.save + 0x1000000 + g.owner.home * 0x20000 + h.n.val * 0x10000)
          ((s.slotAcc x cl co h.n).flatMap (leBytes 4))).setAcc x cl co h.n (List.replicate 16384 0)).setAccTag x cl co h.n
          (some ⟨o, false⟩)) ∧
    (∀ (o : SlotOwner), h.actor.accOwner = some o → s.accTag x cl co h.n = none →
      (s.takeSlot x cl co h).1 =
        (if s.accIsLive x cl co h.actor h.n then s.restoreAcc x cl co h.n o
         else s.setAcc x cl co h.n (List.replicate 16384 0)).setAccTag x cl co h.n
          (some ⟨o, s.accIsLive x cl co h.actor h.n⟩)) ∧
    (∀ o k (e : Nat), e < 16384 →
      (s.slotAcc x o k slot).getD e 0 = (Sparse.get 0 s.accs (accKey x o k slot + e)).toNat)

/-! ## Pattern programs -/

/-- R246 to R251: each word of a run in progress spends a step, sets its counters from its sources modulo 2^32, and
goes on with the next index, or with the target of a branch that is taken; a zero divisor ends the run with PAT ILL; a
run that has spent 4096 steps ends with BUDGET; the end words end it. R248: `cnext` finds the least term of a
progression that is not below c1, and its number. R250 to R253, R256, R257: an emission in a forward run: a column
past NC is PAT RANGE; columns out of ascending order, or positions that do not count up by one, PAT ORDER; a column
past the window ends the run; one inside the window is kept with its position; in an inverse run only the queried
column, once, is an answer. An emission counts the position up, and `crun` emits the columns of its range one step
each, until the run ends or its steps are spent. -/
def Obligations.CirrusWords : Prop :=
  (∀ (s : State) (r : GenRun) (d : Fin 8) (a b : Src) (i : BitVec 17) (n : Bool) (c : Cond) (f : BitVec 14),
    s.gen = some r → r.finished = false →
    (4096 ≤ r.steps → ∀ e : Instr,
      (e = .csetReg d a ∨ e = .csetImm d i ∨ e = .caddReg d a n b ∨ e = .caddImm d a n i ∨ e = .cmulReg d a b ∨
        e = .cmulImm d a i ∨ e = .chashReg d a b ∨ e = .chashImm d a i ∨ e = .cdivReg d a b ∨ e = .cdivImm d a i ∨
        e = .cmodReg d a b ∨ e = .cmodImm d a i ∨ e = .ckronReg d a b ∨ e = .ckronImm d a i ∨ e = .cbr c a b f ∨
        e = .cloop d a f ∨ e = .cnextReg d a b ∨ e = .cnextImm d a i ∨ e = .cemitReg d a ∨ e = .cemitImm d i ∨
        e = .crunReg d a b ∨ e = .crunImm d a i ∨ e = .cinv ∨ e = .cstop) →
      exec e s = .next (s.genNext { r with flt := some 5, ended := true })) ∧
    (r.steps < 4096 →
    let r1 := { r with steps := r.steps + 1, index := r.index + 1 }
    let im : BitVec 32 := i.setWidth 32
    let A := r.src a
    let B := r.src b
    let go := fun (q : GenRun) => Host.Outcome.next (s.genNext q)
    let set := fun (v : BitVec 32) => go (r1.setC d v)
    let two := fun (v w : BitVec 32) => go ((r1.setC d v).setC (Fin.ofNat 8 (d.val + 1)) w)
    let jump := fun (off : BitVec 14) => go { r1 with index := ((r.index : Int) + off.toInt).toNat }
    let ill := go { r1 with flt := some 6, ended := true }
    exec (.csetReg d a) s = set A ∧ exec (.csetImm d i) s = set im ∧
    exec (.caddReg d a n b) s = set (if n then A - B else A + B) ∧
    exec (.caddImm d a n i) s = set (if n then A - im else A + im) ∧
    exec (.cmulReg d a b) s = set (A * B) ∧ exec (.cmulImm d a i) s = set (A * im) ∧
    exec (.chashReg d a b) s = set (cirrusHash A B) ∧ exec (.chashImm d a i) s = set (cirrusHash A im) ∧
    exec (.cdivReg d a b) s = (if B = 0 then ill else set (A / B)) ∧
    exec (.cdivImm d a i) s = (if im = 0 then ill else set (A / im)) ∧
    exec (.cmodReg d a b) s = (if B = 0 then ill else set (A % B)) ∧
    exec (.cmodImm d a i) s = (if im = 0 then ill else set (A % im)) ∧
    exec (.ckronReg d a b) s = (if B = 0 then ill else two (A / B) (A % B)) ∧
    exec (.ckronImm d a i) s = (if im = 0 then ill else two (A / im) (A % im)) ∧
    exec (.cbr c a b f) s = (if (match c with
      | .eq => decide (A = B)
      | .ne => decide (A ≠ B)
      | .lt | .ltu => decide (A.toNat < B.toNat)
      | .ge | .geu => decide (B.toNat ≤ A.toNat)
      | .le => decide (A.toNat ≤ B.toNat)
      | .gt => decide (B.toNat < A.toNat)) = true then jump f else go r1) ∧
    exec (.cloop d a f) s =
      (if (r.c.get d + 1).toNat < A.toNat then
        go { r1.setC d (r.c.get d + 1) with index := ((r.index : Int) + f.toInt).toNat }
      else set (r.c.get d + 1)) ∧
    exec .cinv s = go { r1 with ended := true } ∧ exec .cstop s = go { r1 with ended := true })) ∧
  (∀ (s : State) (r : GenRun) (d : Fin 8) (a b : Src) (i : BitVec 17), s.gen = some r → r.finished = false →
    r.steps < 4096 →
    let r1 := { r with steps := r.steps + 1, index := r.index + 1 }
    let A := r.src a
    let found := fun (e : BitVec 32) (o : Host.Outcome State Fault Refusal) => ∃ j : Nat,
      o = .next (s.genNext ((r1.setC d (A + BitVec.ofNat 32 j * e)).setC (Fin.ofNat 8 (d.val + 1)) (BitVec.ofNat 32 j))) ∧
      ((r.c.get 1).toNat ≤ A.toNat ∨ e = 0 → j = 0) ∧
      (A.toNat < (r.c.get 1).toNat → e ≠ 0 →
        (r.c.get 1).toNat ≤ A.toNat + j * e.toNat ∧ A.toNat + (j - 1) * e.toNat < (r.c.get 1).toNat)
    found (r.src b) (exec (.cnextReg d a b) s) ∧ found (i.setWidth 32) (exec (.cnextImm d a i) s)) ∧
  ((∀ (r : GenRun) (v p : Nat), r.rank = none →
    (r.inverse = false →
     (r.slot.nc.toNat ≤ v → r.emit v p = ({ r with flt := some 3, ended := true }, none)) ∧
     (v < r.slot.nc.toNat →
      (∀ v' p', r.prev = some (v', p') → (v ≤ v' ∨ p ≠ p' + 1) →
        r.emit v p = ({ r with flt := some 4, ended := true }, none)) ∧
      (((∃ v' p', r.prev = some (v', p') ∧ v' < v ∧ p = p' + 1) ∨ (r.prev = none ∧ (r.vlo ≠ 0 ∨ p = 0))) →
       (r.vhi < v → r.emit v p = ({ r with prev := some (v, p), ended := true }, none)) ∧
       (v < r.vlo → v ≤ r.vhi → r.emit v p = ({ r with prev := some (v, p) }, none)) ∧
       (r.vlo ≤ v → v ≤ r.vhi → r.emit v p = ({ r with prev := some (v, p) }, some (v, p)))))) ∧
    (r.inverse = true →
     (v = r.v → r.answer = none → r.emit v p = ({ r with answer := some p }, none)) ∧
     (v ≠ r.v ∨ r.answer ≠ none → r.emit v p = ({ r with flt := some 4, ended := true }, none)))) ∧
  ∀ (s : State) (r : GenRun) (d : Fin 8) (a b : Src) (i : BitVec 17), s.gen = some r → r.finished = false →
    r.steps < 4096 →
    let r1 := { r with steps := r.steps + 1, index := r.index + 1 }
    let emit := fun (v : BitVec 32) =>
      let q := s.genEmit r1 v.toNat (r.c.get d).toNat
      Host.Outcome.next (q.1.genNext (q.2.setC d (r.c.get d + 1)))
    exec (.cemitReg d a) s = emit (r.src a) ∧ exec (.cemitImm d i) s = emit (i.setWidth 32) ∧
    ((r.src b).toNat ≤ (r.src a).toNat → exec (.crunReg d a b) s = .next (s.genNext r1)) ∧
    (i.toNat ≤ (r.src a).toNat → exec (.crunImm d a i) s = .next (s.genNext r1)) ∧
    let one := fun (p : State × GenRun) (v : Nat) =>
      if p.2.ended then p
      else if 4096 ≤ p.2.steps then (p.1, { p.2 with flt := some 5, ended := true })
      else
        let q := p.1.genEmit { p.2 with steps := p.2.steps + 1 } v (p.2.c.get d).toNat
        (q.1, q.2.setC d (p.2.c.get d + 1))
    let run := fun (lo hi : Nat) =>
      let q := ((List.range (hi - lo)).map (lo + ·)).foldl one (s, { r with index := r.index + 1 })
      Host.Outcome.next (q.1.genNext q.2)
    ((r.src a).toNat < (r.src b).toNat → exec (.crunReg d a b) s = run (r.src a).toNat (r.src b).toNat) ∧
    ((r.src a).toNat < i.toNat → exec (.crunImm d a i) s = run (r.src a).toNat i.toNat))

/-- R242 to R245, R249, R258 to R265: loading a program into a slot and its answers, a parameter, a run as a job of
the core's queue, the release, and an inverse query, which makes its result register empty; SHP without a binding, and
for a capacity or rows out of range of a run whose operand passes the checks of address, and ILL on a master core. A
load and the release wait for the commands of the present binding only (R260, R263), whose channel reads are acquires
before it (R324). That an inverse query executes again while the generator runs for another is the model's choice (log
entry 60). -/
def Obligations.PatternForms : Prop :=
  ∀ (s : State) (sm : Bool) (d a b : Fin 16) (re : Bool) (x : Sec) (i : Fin 6144) (v w : Word), s.me.chain = [] →
    (∀ n, s.cur = .master x n →
      let ill := Host.Outcome.next (s.raise ⟨0x01, 0, 0, 0, 0⟩)
      exec (.pgld sm d a b re) s = ill ∧ exec (.pgset sm a b) s = ill ∧ exec (.pgrun sm d a b) s = ill ∧
      exec (.pgrel sm) s = ill ∧ exec (.pginv sm d a) s = ill) ∧
    (s.cur = .thread x i → s.me.tx = none →
     let cl := clusterOf i.val
     let bound := (s.ctx x i.val).cirrus
     let own := s.slotOwner x i.val
     let slot := fun (t : State) (k : Fin 8) => (t.cluster x cl).cirrus.get k
     let s0 := s.engAwaited true
     let answer := fun (e : Instr) (n : Word) => exec e s = .next ((s0.wrS d n).retire sm .seq)
     let shp := fun (e : Instr) (n : Nat) => exec e s = .next (s.raise ⟨0x09, n, 0, 0, 0⟩)
     (s.rdS b = .ok w → s.bindingBusy s.cur = false →
      let k := Fin.ofNat 8 w.toNat
      ((∃ o, bound = some o ∧ o ≠ k) → answer (.pgld sm d a b true) 4) ∧
      (bound = none ∨ bound = some k →
       ((slot s k).owner = none ∨ (slot s k).owner ≠ own → answer (.pgld sm d a b true) 2) ∧
       ((slot s k).owner ≠ none → (slot s k).owner = own →
        ∃ t, exec (.pgld sm d a b true) s = .next ((t.wrS d 0).retire sm .seq) ∧ slot t k = slot s k ∧
          (t.ctx x i.val).cirrus = some k) ∧
       (s.rdS a = .ok v → v.toNat % 4 = 0 →
        ((slot s k).owner ≠ none → (slot s k).owner ≠ own → answer (.pgld sm d a b false) 1) ∧
        (∀ ws inv u, (slot s k).owner = none ∨ (slot s k).owner = own → s0.readImage v = .ok (ws, inv, u) →
         ∃ t, exec (.pgld sm d a b false) s = .next ((t.wrS d 0).retire sm .seq) ∧
           slot t k = { CirrusSlot.reset with owner := own, prog := ws, inv := inv } ∧
           (t.ctx x i.val).cirrus = some k ∧ ∀ j, j ≠ k → slot t j = slot u j)))) ∧
     (bound = none → exec (.pgrel sm) s = .next (s.retire sm .seq) ∧ shp (.pgset sm a b) 0x27 ∧
      shp (.pgrun sm d a b) 0x27 ∧ shp (.pginv sm d a) 0x27) ∧
     (∀ k, bound = some k →
      (s.bindingBusy s.cur = true → exec (.pgrel sm) s = .next (s.waitMe .binding) ∧
        (s.rdS b = .ok w → exec (.pgld sm d a b true) s = .next (s.waitMe .binding)) ∧
        (s.rdS b = .ok w → s.rdS a = .ok v → v.toNat % 4 = 0 →
          exec (.pgld sm d a b false) s = .next (s.waitMe .binding))) ∧
      (s.bindingBusy s.cur = false →
       ∃ t, exec (.pgrel sm) s = .next (t.retire sm .seq) ∧ slot t k = CirrusSlot.reset ∧
         (t.ctx x i.val).cirrus = none) ∧
      (s.rdS a = .ok v → s.rdS b = .ok w →
       (11 < w.toNat → shp (.pgset sm a b) 0x26) ∧
       (w.toNat ≤ 11 →
        ∃ t, exec (.pgset sm a b) s = .next (t.retire sm .seq) ∧
          (∀ j : Fin 8, (slot t k).k.get j = if w.toNat = j.val then v.setWidth 32 else (slot s k).k.get j) ∧
          (slot t k).par0 = (if w.toNat = 8 then v.setWidth 32 else (slot s k).par0) ∧
          (slot t k).par1 = (if w.toNat = 9 then v.setWidth 32 else (slot s k).par1) ∧
          (slot t k).nr = (if w.toNat = 10 then v.setWidth 32 else (slot s k).nr) ∧
          (slot t k).nc = (if w.toNat = 11 then v.setWidth 32 else (slot s k).nc) ∧
          (slot t k).prog = (slot s k).prog ∧ (slot t k).owner = (slot s k).owner)) ∧
      (∀ dst row, s.rdPair a = .ok dst → s.rdPair b = .ok row →
       ownOperand s.cur dst.1.toNat (8 + 8 * dst.2.toNat) 8 false = [] →
       (dst.2 = 0 ∨ 262143 < dst.2.toNat ∨ row.1.toNat / 2 ^ 32 = 0 ∨
         (slot s k).nr.toNat < row.1.toNat % 2 ^ 32 + row.1.toNat / 2 ^ 32) →
       shp (.pgrun sm d a b) 0x26) ∧
      (∀ dst row, s.jobSpace → ((s.cluster x cl).mx.get (coreOf i.val)).length < 4 → s.rdPair a = .ok dst →
       s.rdPair b = .ok row → 1 ≤ dst.2.toNat → dst.2.toNat ≤ 262143 → 1 ≤ row.1.toNat / 2 ^ 32 →
       row.1.toNat % 2 ^ 32 + row.1.toNat / 2 ^ 32 ≤ (slot s k).nr.toNat →
       ownOperand s.cur dst.1.toNat (8 + 8 * dst.2.toNat) 8 false = [] →
       ∃ t act, exec (.pgrun sm d a b) s = .next t ∧ s.queuedMx t x i d { s.mxCmd .run false (0, 0) act with
         a := dst.1, a2 := dst.2, b := row.1, b2 := row.2, slot := some (slot s k), bind_ := some k }) ∧
      (s.rdS a = .ok v →
       ((slot s k).inv = none → exec (.pginv sm d a) s = .next (s.raise ⟨0x0A, 1, 0, 0, 0⟩)) ∧
       ((slot s k).inv ≠ none →
        ((slot s k).nr.toNat ≤ v.toNat % 2 ^ 32 ∨ (slot s k).nc.toNat ≤ v.toNat / 2 ^ 32 →
         exec (.pginv sm d a) s = .next (s.raise ⟨0x0A, 3, 0, 0, 0⟩)) ∧
        (v.toNat % 2 ^ 32 < (slot s k).nr.toNat → v.toNat / 2 ^ 32 < (slot s k).nc.toNat →
         (s.genFree = false → exec (.pginv sm d a) s = .next s) ∧
         (s.genFree = true → (s.me.s.get d).claimed = true ∨ s.zBusy s.cur d = true →
          exec (.pginv sm d a) s = .next (s.waitMe (.result d))) ∧
         (s.genFree = true → (s.me.s.get d).claimed = false → s.zBusy s.cur d = false →
         let r := GenRun.start (.query s.cur d s.curWord (s.me.s.get d) (s.me.unread.contains d)) (slot s k) true
           (v.toNat % 2 ^ 32) 0 0 (v.toNat / 2 ^ 32) none 0 0
         (r.finished = true → exec (.pginv sm d a) s = .next ((s.wrS d (BitVec.allOnes 64)).retire sm .seq)) ∧
         (r.finished = false →
          ∃ t, exec (.pginv sm d a) s = .next t ∧ t.gen = some r ∧ t.me.park = some (.pginv d) ∧
            (t.me.s.get d).full = false ∧ (t.me.s.get d).claimed = true ∧
            t.agenda.head? = some (.cirrus ((slot s k).prog.getD r.index 0)) ∧
            (r.c.get 0).toNat = v.toNat % 2 ^ 32 ∧ (r.c.get 1).toNat = v.toNat / 2 ^ 32)))))))

/-! ## Copies, gathers, jobs, leases, the network -/

/-- R266, R271 to R276: a copy whose operands pass the checks of issue is put at the end of its core's queue, with its
job's identifier as the result; a full queue parks. A source in another cluster's scratchpad, a length that is no
multiple of 8, and one of 0, are turned away. R23, R24, R278, R280: `wmset` opens a channel with its watermark at the
base and no word marked, or closes it for length 0; ranges of open channels do not overlap; `wmget` answers the
watermark with bit 63 for an open channel, and is an acquire, which waits, without parking, for the agent's earlier
releases (R311, log entry 99). R266, R284: a gather, scatter or scatter-add whose lists lie in the own scratchpad
becomes a job of Stratus with all its elements to do; a count outside 1 to 65536, an element size that a scatter-add
has not, and lists that overlap (the model's reading of R274, log entry 65) raise SHP. -/
def Obligations.CopyForms : Prop :=
  (∀ (s : State) (sm : Bool) (d a b : Fin 16) (k : Bool) (x : Sec) (i : Fin 6144) (dst set src len : Word),
    s.me.chain = [] → s.cur = .thread x i → s.me.tx = none → s.jobSpace →
    s.rdS b = .ok src → s.rdS (succ16 b) = .ok len → s.rdS a = .ok dst →
    let n := len.toNat
    let queue := (s.cluster x (clusterOf i.val)).cp.get (coreOf i.val)
    let own := fun (ea n : Nat) => ownOperand s.cur ea n 8 false
    let queued := fun (e : Instr) (c : Actor → CpCmd) =>
      (queue.length < 8 → ∃ t act, exec e s = .next t ∧ s.queuedCopy t x i d (c act)) ∧
      (8 ≤ queue.length → exec e s = .next (s.parkMe sm (.queue .copy)))
    (n % 8 = 0 → 8 ≤ n → n ≤ 0x200000 →
     (own src.toNat n = [] →
      (s.copyOperand dst.toNat n 8 true true = [] → s.overlaps src.toNat dst.toNat n = [] →
       queued (.send sm d a b k) (s.cpCmd .send k dst src n [])) ∧
      (s.copyOperand dst.toNat n 8 false false = [] → queued (.flush sm d a b k) (s.cpCmd .flush k dst src n [])) ∧
      (s.rdS (succ16 a) = .ok set → setFaults dst.toNat set.toNat n = [] →
       s.setOverlap dst.toNat set.toNat src.toNat n = [] →
       queued (.sendm sm d a b k) (s.cpCmd .sendm k dst src n (setClusters set.toNat)))) ∧
     (own dst.toNat n = [] → s.copyOperand src.toNat n 8 true false = [] → s.overlaps src.toNat dst.toNat n = [] →
      queued (.fetch sm d a b) (s.cpCmd .fetch false dst src n []))) ∧
    (1 ≤ n → n ≤ 4096 → own src.toNat ((n + 7) / 8 * 8) = [] → s.copyOperand dst.toNat 64 64 false false = [] →
     queued (.sendg sm d a b k) (s.cpCmd .sendg k dst src n [])) ∧
    (own src.toNat n = [] → s.copyOperand dst.toNat n 8 true true = [] → s.overlaps src.toNat dst.toNat n = [] →
     (n % 8 ≠ 0 → exec (.send sm d a b k) s = .next (s.raise ⟨0x05, 0, len, 0, 0⟩)) ∧
     (n = 0 → exec (.send sm d a b k) s = .next (s.raise ⟨0x09, 0x22, 0, 0, 0⟩))) ∧
    (∀ cl off, placeOf s.cur src.toNat n = .ok (.spad cl off) → clusterOfAgent s.cur ≠ some cl → src.toNat % 8 = 0 →
     n % 8 = 0 → 8 ≤ n → n ≤ 0x200000 → s.copyOperand dst.toNat n 8 true true = [] →
     s.overlaps src.toNat dst.toNat n = [] →
     exec (.send sm d a b k) s = .next (s.raise ⟨0x0D, 0, src, 0, 0⟩))) ∧
  (∀ (s : State) (sm : Bool) (d a b : Fin 16) (x : Sec) (i : Fin 6144) (q base len : Word), s.me.chain = [] →
    s.cur = .thread x i → s.me.tx = none → s.rdS a = .ok q →
    let cl := clusterOf i.val
    let c := Fin.ofNat 16 q.toNat
    let ch := (s.cluster x cl).channels.get c
    (s.releaseOpen s.cur = true → exec (.wmget sm d a) s = .next (s.waitMe .releases)) ∧
    (ch.wm < 2 ^ 63 → s.releaseOpen s.cur = false → exec (.wmget sm d a) s =
      .next ((s.acquired.wrS d (BitVec.ofNat 64 ch.wm ||| if ch.isOpen then BitVec.intMin 64 else 0)).retire sm .seq)) ∧
    (s.rdS b = .ok base → s.rdS (succ16 b) = .ok len →
     let opened := fun (t : State) (n : Channel) =>
       (t.cluster x cl).channels.get c = n ∧
       (∀ k, k ≠ c → (t.cluster x cl).channels.get k = (s.cluster x cl).channels.get k) ∧
       .watermarkWake x cl ∈ t.agenda ∧ completed s t
     (len = 0 → ∃ t, exec (.wmset sm a b) s = .next t ∧ opened t { ch with isOpen := false }) ∧
     (len ≠ 0 → ownOperand s.cur base.toNat len.toNat 8 false = [] → len.toNat % 8 = 0 →
      let off := spadOff base.toNat
      ((∃ k, k ≠ c ∧ ((s.cluster x cl).channels.get k).isOpen = true ∧
          off < ((s.cluster x cl).channels.get k).base + ((s.cluster x cl).channels.get k).len ∧
          ((s.cluster x cl).channels.get k).base < off + len.toNat) →
        exec (.wmset sm a b) s = .next (s.raise ⟨0x09, 0x22, 0, 0, 0⟩)) ∧
      ((∀ k, k ≠ c → ((s.cluster x cl).channels.get k).isOpen = false) →
       ∃ t, exec (.wmset sm a b) s = .next t ∧ opened t ⟨true, off, len.toNat, off⟩ ∧
         ∀ w, w < len.toNat / 8 → Sparse.get false t.spadMarks (spadWord x cl (off + 8 * w)) = false)))) ∧
  (∀ (s : State) (sm : Bool) (d a b : Fin 16) (w f : Bool) (z : BitVec 7) (x : Sec) (i : Fin 6144) (p q : Word × Word),
    s.me.chain = [] → s.cur = .thread x i → s.me.tx = none → s.jobSpace → s.rdPair a = .ok p → s.rdPair b = .ok q →
    (∀ j ∈ (s.sec x).asyncs, j.id ≠ s.nextId) →
    let n := q.2.toNat
    let size := z.toNat + 1
    ownOperand s.cur p.1.toNat (n * size) 8 false = [] →
    ownOperand s.cur p.2.toNat (n * if w then 8 else 4) 8 false = [] → s.baseFaults q.1.toNat = [] →
    let started := fun (e : Instr) (kind : AsyncKind) => ∃ t act, exec e s = .next t ∧ s.startedAsync t d
      { id := s.nextId, kind := kind, actor := act, started := false, pc := s.me.pc, instr := s.curWord
        base := q.1.toNat, len := n, side := p.1, list := p.2, size := size, wide := w, todo := List.range n, flt := none, count := 0 }
      (.xgComplete x s.nextId)
    let shp := fun (e : Instr) => exec e s = .next (s.raise ⟨0x09, 0x22, 0, 0, 0⟩)
    (extentsOverlap p.1.toNat (n * size) p.2.toNat (n * if w then 8 else 4) ≠ [] →
     shp (.xgat sm d a b w z) ∧ shp (.xsct sm d a b w z) ∧ shp (.xsctadd sm d a b w f z)) ∧
    (extentsOverlap p.1.toNat (n * size) p.2.toNat (n * if w then 8 else 4) = [] → 1 ≤ n → n ≤ 65536 →
     started (.xgat sm d a b w z) .xgat ∧ started (.xsct sm d a b w z) .xsct ∧
     (size = 4 ∨ (size = 8 ∧ f = false) → started (.xsctadd sm d a b w f z) (.xsctadd f)) ∧
     (size ≠ 4 → size ≠ 8 → shp (.xsctadd sm d a b w f z))) ∧
    (n = 0 ∨ 65536 < n →
     shp (.xgat sm d a b w z) ∧ shp (.xsct sm d a b w z) ∧ shp (.xsctadd sm d a b w f z)))

/-- R268: `jwait` and `jpoll` answer 0xFF for a job that the agent does not hold, and the status of one that has
ended, whose record they free; a fault that has not been reported is raised, once; on a job that runs, `jwait` parks
and `jpoll` answers 0. The report of a job that has ended is an acquire and waits, without parking, for the agent's
earlier releases (R311, log entry 99). R266, R267: with fewer than 64 records the next identifier is not 0 and names
no record; it is the counter's value where that is free. -/
def Obligations.JobForms : Prop :=
  (∀ (s : State) (sm : Bool) (d a : Fin 16) (v : Word), s.me.chain = [] → s.rdS a = .ok v →
    let id := v.toNat % 65536
    let both := fun (o : Host.Outcome State Fault Refusal) => exec (.jwait sm d a) s = o ∧ exec (.jpoll sm d a) s = o
    (s.ownJob s.cur id = none → both (.next ((s.wrS d 0xFF).retire sm .seq))) ∧
    (∀ j, s.ownJob s.cur id = some j →
     (j.running = true →
      exec (.jwait sm d a) s = .next (s.parkMe sm (.jwait id d)) ∧
      exec (.jpoll sm d a) s = .next ((s.wrS d 0).retire sm .seq)) ∧
     (j.running = false → s.releaseOpen s.cur = true → both (.next (s.waitMe .releases))) ∧
     (j.running = false → s.releaseOpen s.cur = false → j.flt = none →
      both (.next (((s.freeJob s.cur id).acquired.wrS d (word (j.info % 2 ^ 56 * 256 + j.status))).retire sm .seq)) ∧
      (s.freeJob s.cur id).ownJob s.cur id = none) ∧
     (∀ f, j.running = false → s.releaseOpen s.cur = false → j.flt = some f →
      (j.reported = true → both (.next (((s.freeJob s.cur id).acquired.wrS d 4).retire sm .seq))) ∧
      (j.reported = false → both (.next ((s.setJob (secOf s.cur) (s.jobOwner s.cur) id
        (some { j with reported := true })).acquired.raise { f with job := id })))))) ∧
  (∀ (held : List Nat) (c : Nat), held.length < 64 → c < 65536 →
    let id := nextJobId held 66 c
    id ≠ 0 ∧ id < 65536 ∧ id ∉ held ∧ (c ≠ 0 → c ∉ held → id = c))

/-- R287 to R292: `lease`, `llcwb` and `pmig` become jobs over their range; `unlease` takes an entry that matches out
of the lease set and answers 0, or 1 without one, and is a release, which waits for the agent's earlier accesses
(R311); `pf` completes whatever its lines do. A base or a length that is no multiple of the form's alignment (64 KiB,
128 bytes, 2 MiB), and a length of 0, raise ALN. R293, R294, R432: `nsend` makes a transfer of the descriptor that it
reads here from the own scratchpad, as a release, which waits for the agent's earlier accesses (R311), and `npoll`
answers the next completion entry of a bound receive queue, in order, or 0; the report of an entry is an acquire,
which waits, without parking, for the agent's earlier releases (log entry 99); a queue that is not bound to the
agent's address space raises SHP. -/
def Obligations.RangeForms : Prop :=
  (∀ (s : State) (sm : Bool) (d a : Fin 16) (far : Bool) (base len : Word), s.me.chain = [] → s.me.tx = none →
    s.rdS a = .ok base → s.rdS (succ16 a) = .ok len →
    let x := secOf s.cur
    let fine := fun (align : Nat) (peer : Bool) => rangeFaults s.cur base.toNat len.toNat align peer = []
    let job := fun (kind : AsyncKind) (act : Actor) (todo : List Nat) =>
      ({ id := s.nextId, kind := kind, actor := act, started := false, pc := s.me.pc, instr := s.curWord
         base := base.toNat, len := len.toNat, side := 0, list := 0, size := 0, wide := false, todo := todo, flt := none
         count := 0 } : Async)
    (s.jobSpace → (∀ j ∈ (s.sec x).asyncs, j.id ≠ s.nextId) →
     (fine 65536 false → ∃ t act, exec (.lease sm d a) s = .next t ∧
       s.startedAsync t d (job .lease act []) (.jobComplete x s.nextId)) ∧
     (fine 128 true → ∃ t act, exec (.llcwb sm d a) s = .next t ∧
       s.startedAsync t d (job .llcwb act []) (.jobComplete x s.nextId)) ∧
     (fine 0x200000 false → ∃ t act, exec (.pmig sm d a far) s = .next t ∧
       s.startedAsync t d (job (.pmig far) act ((List.range (len.toNat / 0x200000)).map fun g =>
         base.toNat + g * 0x200000)) (.jobComplete x s.nextId))) ∧
    (fine 65536 false → s.drained s.cur = false → exec (.unlease sm d a) s = .next (s.waitMe (.drain false))) ∧
    (fine 65536 false → s.drained s.cur = true →
     ((base.toNat, len.toNat) ∈ s.leaseSet s.cur → exec (.unlease sm d a) s =
       .next (((s.setLeases s.cur ((s.leaseSet s.cur).erase (base.toNat, len.toNat))).wrS d 0).retire sm .seq)) ∧
     ((base.toNat, len.toNat) ∉ s.leaseSet s.cur → exec (.unlease sm d a) s = .next ((s.wrS d 1).retire sm .seq))) ∧
    (fine 128 true → ∃ u : State, exec (.pf sm a) s = .next (u.retire sm .seq) ∧ u.me = s.me ∧ u.spad = s.spad) ∧
    (let app := ∃ va, placeOf s.cur base.toNat (max len.toNat 1) = .ok (.app va)
     let peer := ∃ n off, placeOf s.cur base.toNat (max len.toNat 1) = .ok (.peer n off)
     let off := fun (m : Nat) => base.toNat % m ≠ 0 ∨ len.toNat % m ≠ 0 ∨ len = 0
     let aln := Host.Outcome.next (s.raise ⟨0x05, 0, base, 0, 0⟩)
     (app → off 0x10000 → exec (.lease sm d a) s = aln ∧ exec (.unlease sm d a) s = aln) ∧
     (app ∨ peer → off 128 → exec (.pf sm a) s = aln ∧ exec (.llcwb sm d a) s = aln) ∧
     (app → off 0x200000 → exec (.pmig sm d a far) s = aln))) ∧
  (∀ (s : State) (sm : Bool) (d a : Fin 16) (v : Word), s.me.chain = [] → s.me.tx = none → s.rdS a = .ok v →
    let x := secOf s.cur
    let shp := Host.Outcome.next (s.raise ⟨0x09, 0x2B, 0, 0, 0⟩)
    (s.drained s.cur = false → exec (.nsend sm d a) s = .next (s.waitMe (.drain false))) ∧
    (∀ cl off, s.drained s.cur = true → s.ownSpad v 64 cl off →
     let bs := s.spadBytes x cl off 64
     let f := fun (o k : Nat) => leNat ((bs.drop o).take k)
     descFaults bs = [] →
     (s.sendBound x (f 2 2) (s.asidOf s.cur) = false → exec (.nsend sm d a) s = shp) ∧
     (s.sendBound x (f 2 2) (s.asidOf s.cur) = true → s.jobSpace →
      ∃ t act, exec (.nsend sm d a) s = .next t ∧ s.startedAsync t d
        { id := s.nextId, kind := .nsend (f 0 1) (f 1 1) (f 2 2) (f 24 8) (f 32 4), actor := act, started := false
          pc := s.me.pc, instr := s.curWord, base := f 8 8, len := f 16 8, side := 0, list := 0, size := 0, wide := false, todo := []
          flt := none, count := 0 } (.jobComplete x s.nextId))) ∧
    (let q := v.toNat % 65536
     let taken := Sparse.get 0 (s.sec x).rxTaken q
     (s.rxQueue x q = none → exec (.npoll sm d a) s = shp) ∧
     (∀ e, s.rxQueue x q = some e →
      (e.asid ≠ s.asidOf s.cur → exec (.npoll sm d a) s = shp) ∧
      (e.asid = s.asidOf s.cur →
       (Sparse.get 0 (s.sec x).rxDone q ≤ taken → exec (.npoll sm d a) s = .next ((s.wrS d 0).retire sm .seq)) ∧
       (taken < Sparse.get 0 (s.sec x).rxDone q → s.releaseOpen s.cur = true →
        exec (.npoll sm d a) s = .next (s.waitMe .releases)) ∧
       (taken < Sparse.get 0 (s.sec x).rxDone q → s.releaseOpen s.cur = false →
        ∃ t : State, exec (.npoll sm d a) s =
          .next ((t.acquired.wrS d (word (e.ring + 32 * (taken % e.entries)))).retire sm .seq) ∧
          Sparse.get 0 (t.sec x).rxTaken q = taken + 1)))))

/-! ## Steps of the machine: parked agents and messages -/

/-- R13, R24, R68, R148, R154, R168, R268, R361, R373: what becomes of a parked agent once what it waits for has come.
A read of an empty register, an issue at a full queue and a read below a watermark execute again; the oldest spawn that
waits for the pool enters it as the instance that it read before, and completes with the handle of the index that it
takes, or waits for one; `join`, `jwait` and the full/empty forms complete with their result, though a `join` or
`jwait` whose agent has meanwhile an earlier release open executes again (R311, log entry 99); `sleep` reloads its word
and completes, and executes again where the reload fails; a D-extension instruction executes on the D slot to which its
context moves. -/
def Obligations.Wakes : Prop :=
  ∀ (s : State) (g : Agent),
    let h := s.hart g
    let x := secOf g
    let wakes := fun (e : Instr) => ∃ t, exec e s = .next t ∧ t.hart g = { h with park := none, sWait := false }
    let past := fun (t : State) =>
      (t.hart g).pc = h.pc + 4 ∧ (t.hart g).instret = h.instret + 1 ∧ (t.hart g).park = none
    let filled := fun (t : State) (d : Fin 16) (v : Word) =>
      past t ∧ (t.hart g).s = h.s.set d.val ⟨v, true, false⟩ d.isLt
    (∀ r, h.park = some (.reg r) → (h.s.get r).full = true → wakes (.registerFillWake g)) ∧
    (∀ k, h.park = some (.queue k) → wakes (.queueEntryFree g)) ∧
    (∀ i rest d, (s.sec x).poolWait = i :: rest → (s.sec x).insts.length < 1024 → s.poolWaiter i.uid = some (g, d) →
      (∀ j ∈ (s.sec x).insts, j.uid ≠ i.uid) →
      (∀ k, s.poolIndex x = some k → ∃ t, exec (.poolEntryFree x) s = .next t ∧ filled t d (handleOf i.rcd.addr k) ∧
        t.inst x i.uid = some { i with idx := some k, handle := handleOf i.rcd.addr k, phase := .lease }) ∧
      (s.poolIndex x = none → ∃ t, exec (.poolEntryFree x) s = .next t ∧ (t.hart g).park = some (.index i.uid d) ∧
        t.inst x i.uid = some i)) ∧
    (∀ cl off n, h.park = some (.mark cl.val off n) → clusterOfAgent g = some cl → s.belowMark x cl off n = false →
      wakes (.watermarkWake x cl)) ∧
    (∀ uid d i f, h.park = some (.join uid d) → s.inst x uid = some i → i.final = some f →
      (s.releaseOpen g = true → wakes (.joinComplete g)) ∧
      (s.releaseOpen g = false →
      ∃ t, exec (.joinComplete g) s = .next t ∧ t.inst x uid = none ∧ filled t d (match f with
        | .done => 0
        | .aborted => 1
        | .lost => 2))) ∧
    (∀ id d, h.park = some (.jwait id d) →
      (s.ownJob g id = none → ∃ t, exec (.jwaitComplete g) s = .next t ∧ filled t d 0xFF) ∧
      (∀ j, s.ownJob g id = some j → j.running = false →
       (s.releaseOpen g = true → wakes (.jwaitComplete g)) ∧
       (j.flt = none → s.releaseOpen g = false → ∃ t, exec (.jwaitComplete g) s = .next t ∧
          filled t d (word (j.info % 2 ^ 56 * 256 + j.status)) ∧ t.ownJob g id = none) ∧
       (j.flt ≠ none → j.reported = false → wakes (.jwaitComplete g)))) ∧
    (∀ y asid va ea, h.park = some (.sleep y asid va ea) → h.tx = none →
      let own := { s with cur := g }
      (∀ l, own.heldLine ea 8 .read true l →
       ∃ t, exec (.sleepWake g) s = .next t ∧ past t ∧ (t.hart g).s = h.s ∧ t.cur = s.cur) ∧
      (∀ e, State.load own ea 8 true = .error e → e ≠ .stall → wakes (.sleepWake g))) ∧
    (∀ (cl : Fin 96) (w : Fin 262144) (kind : FeKind) (d : Fin 16) (o : Nat),
      let off := 8 * w.val
      s.feNext x cl off = some (o, g, kind, d) → s.feCount (spadWord x cl off) = 1 →
      (kind = .stfe →
       ∃ t, exec (.feWordWake x cl w) s = .next t ∧ past t ∧ (t.hart g).s = h.s ∧
         t.spadBytes x cl off 8 = leBytes 8 (h.s.get d).val.toNat ∧ t.spadFull x cl off = true) ∧
      (kind ≠ .stfe → s.belowMark x cl off 8 = false → s.spadBad x cl off 8 = false →
       ∃ t, exec (.feWordWake x cl w) s = .next t ∧ filled t d (word (leNat (s.spadBytes x cl off 8))) ∧
         t.spadFull x cl off = (kind == .ldff)) ∧
      (kind ≠ .stfe → s.belowMark x cl off 8 = true → exec (.feWordWake x cl w) s = .next s)) ∧
    (∀ y cl i j, s.dWaiter y cl = some i → s.freeDSlot y cl = some j →
      ∃ t, exec (.dSlotFree y cl) s = .next t ∧ (t.ctx y j.val).extFrom = some i.val ∧
        (t.ctx y i.val).reserved = s.vtAt y i.val ∧ (t.hart (.thread y j)).s = (s.hart (.thread y i)).s ∧
        (t.hart (.thread y j)).pc = (s.hart (.thread y i)).pc ∧ (t.hart (.thread y j)).park = none ∧
        clusterOf j.val = cl ∧ 6 ≤ (coreOf j.val).val)

/-- R14, R166, R167, R170, R279, R377: a message reaches its cluster, on a chiplet in service. A push puts its bytes
there and makes their words full; a deposit that an earlier access of its issuer holds back stays on its way (R311); one
for a context that no vt holds is discarded; it is kept for the vt that holds the context, lands in its register when it
is empty, and waits in the receive inbox otherwise; a migration message starts its vt in a free slot with the registers
that it carries, is only counted when its number is a duplicate, and waits in the inbox when no slot is free. -/
def Obligations.Messages : Prop :=
  ∀ (s : State) (id : Nat) (f : Flight), s.flightOf id = some f → s.isFenced f.sec (chipletOf f.cl) = false →
    let x := f.sec
    let c := s.cluster x f.cl
    let gone := fun (t : State) => t.flightOf id = none
    (∀ off data, f.body = .push off data → s.heldBack f = false →
      (∀ o ∈ wordsOf off data.length, s.feCount (spadWord x f.cl o) = 0) →
      ∃ t, exec (.pushAccept id) s = .next t ∧ gone t ∧ t.spadBytes x f.cl off data.length = data ∧
        ∀ k, k < data.length → t.spadFull x f.cl (off + k) = true) ∧
    (∀ q r v, f.body = .deposit q r v →
      (s.heldBack f = true ∨ s.earlierOpen f = true → exec (.depositArrive id) s = .next s) ∧
      (s.heldBack f = false → s.earlierOpen f = false →
       let own := f.kept.orElse fun _ => s.holderOf x q.val
       let k := { f with kept := own }
       (own = none → ∃ t, exec (.depositArrive id) s = .next t ∧ gone t ∧ t.harts = s.harts ∧
         t.clusters = s.clusters) ∧
       (own ≠ none → s.diverted k = false →
        (s.depositReady k q r = true → ∃ t, exec (.depositArrive id) s = .next t ∧ gone t ∧
          (t.hart (.thread x q)).s.get r = ⟨v, true, false⟩ ∧
          ∀ r', r' ≠ r → (t.hart (.thread x q)).s.get r' = (s.hart (.thread x q)).s.get r') ∧
        (s.depositReady k q r = false → c.recvInbox.length < 32 → ∃ t, exec (.depositArrive id) s = .next t ∧ gone t ∧
          (t.cluster x f.cl).recvInbox = c.recvInbox ++ [{ k with arrived := some s.nextId }] ∧
          t.harts = s.harts)))) ∧
    (∀ m, f.body = .migrate m → m.bound = false → s.vtLives x m.vt = true →
      (∀ i, s.messageWaits x f.cl = false → s.freeSlotIn x f.cl = some i →
       (∀ w, windowNext (Sparse.get none c.windows (originKey m.home)) m.seq = some w →
        ∃ t, exec (.migrationMessageArrive id) s = .next t ∧ gone t ∧
          (t.ctx x i).holds = .running m.vt ∧ (t.ctx x i).vtn = word m.vt.n ∧
          (m.home < 6144 → (t.ctx x i).homec = word (65536 * x.val + m.home)) ∧
          let h := t.hart (ctxAgent x i)
          (∀ r : Fin 16, h.s.get r = ⟨m.regs.get r, true, false⟩) ∧ h.p = m.preds ∧ h.pc = m.pc ∧ h.fmode = m.fmode ∧
          h.fflags = m.fflags ∧ h.srseed = m.srseed ∧ h.hpri = m.hpri ∧ h.park = none ∧ ctxAgent x i ∈ t.turns) ∧
       (windowNext (Sparse.get none c.windows (originKey m.home)) m.seq = none →
        ∃ t, exec (.migrationMessageArrive id) s = .next t ∧ gone t ∧ t.harts = s.harts ∧
          (t.cluster x f.cl).migdup.toNat = min (c.migdup.toNat + 1) (2 ^ 32 - 1))) ∧
      (s.messageWaits x f.cl = true ∨ s.freeSlotIn x f.cl = none → c.migInbox.length < 32 →
       ∃ t, exec (.migrationMessageArrive id) s = .next t ∧ gone t ∧ t.harts = s.harts ∧
         (t.cluster x f.cl).migInbox = c.migInbox ++ [{ f with arrived := some s.nextId }]))

/-- R377 to R382, R401, R406: a waiting deposit lands, and a waiting vt is admitted, when its place is free; a full
inbox moves its 16 oldest entries to the overflow heaps and takes the arriving message, or refuses it; the heaps replay
their oldest record of the cluster first, and refused messages are offered again; a probe token that has come back to
its cluster lets a refused message into the reserve buffer, and another one goes on to the sender's cluster; a diverted
message becomes a record of the spill queue, whose head and tail words count records (the model's reading, log entry
20), a full queue refuses it, and one that is diverted no longer when its append comes goes to its cluster (log entry
84). -/
def Obligations.Inboxes : Prop :=
  ∀ (s : State) (x : Sec) (cl : Fin 96) (id : Nat),
    let c := s.cluster x cl
    (∀ f q r v, s.waitingFlight id = some f → f.body = .deposit q r v → s.depositReady f q r = true →
      ∃ t, exec (.depositLand id) s = .next t ∧ (t.hart (.thread f.sec q)).s.get r = ⟨v, true, false⟩ ∧
        ∀ e ∈ (t.cluster f.sec f.cl).recvInbox, e.id ≠ id) ∧
    (∀ f m i w, s.nextAdmitted x cl = some (f, m, i) → s.vtLives x m.vt = true →
      windowNext (Sparse.get none c.windows (originKey m.home)) m.seq = some w →
      ∃ t, exec (.migrationAdmit x cl) s = .next t ∧ (t.ctx x i).holds = .running m.vt ∧
        (t.hart (ctxAgent x i)).pc = m.pc ∧
        (∀ r : Fin 16, (t.hart (ctxAgent x i)).s.get r = ⟨m.regs.get r, true, false⟩) ∧
        ∀ e ∈ (t.cluster x cl).migInbox, e.id ≠ f.id) ∧
    (∀ f, s.flightOf id = some f → f.sec = x → f.cl = cl → (s.sec x).ovp = false →
      let box := fun (k : Cluster) => match f.body with
        | .migrate _ => k.migInbox
        | _ => k.recvInbox
      32 ≤ (box c).length →
      (∀ u, s.heapAll ((box c).take 16) = some u →
       ∃ t, exec (.inboxOverflow x cl id) s = .next t ∧ t.flightOf id = none ∧ t.mem = u.mem ∧
         box (t.cluster x cl) = (box c).drop 16 ++ [{ f with arrived := some u.nextId }]) ∧
      (s.heapAll ((box c).take 16) = none → exec (.inboxOverflow x cl id) s = .next (s.refuse f) ∧
        f ∈ ((s.refuse f).sec x).refused)) ∧
    (∀ u, firstSome (fun i => s.heapTake x i cl) (s.heapOrder x cl) = some u →
      s.isFenced x (chipletOf cl) = false →
      ∃ t f, exec (.heapReplay x cl) s = .next t ∧ t.flight = s.flight ++ [f] ∧
        ((f.sec = x ∧ f.cl = cl) ∨ ∃ r ∈ (s.sec x).stored, f = { r.flight with arrived := none }) ∧
        .heapReplay x cl ∈ t.agenda) ∧
    (∀ y f, firstSome (fun (z : Sec) => (s.sec z).refused.find? fun e => e.id == id) [0, 1, 2, 3] = some f → f.sec = y →
      ∃ t, exec (.backpressureRetry id) s = .next t ∧ t.flight = s.flight ++ [{ f with arrived := none }] ∧
        (t.sec y).refused = (s.sec y).refused.filter (fun e => e.id != id)) ∧
    (∀ k f, s.tokens.find? (fun t => t.id == id) = some k → (s.sec k.sec).refused.find? (fun e => e.cl == k.at_) = some f →
      (k.at_ = k.name → (s.cluster k.sec k.at_).reserveBuf.length < 4 →
       ∃ t, exec (.probeToken id) s = .next t ∧ t.tokens = s.tokens.filter (fun u => u.id != id) ∧
         (t.cluster k.sec k.at_).reserveBuf = (s.cluster k.sec k.at_).reserveBuf ++
           [{ f with arrived := some s.nextId }] ∧
         ∀ e ∈ (t.sec k.sec).refused, e.id ≠ f.id) ∧
      (∀ onto, k.at_ ≠ k.name → k.hops < 96 → s.blocked k.sec k.at_ = true → senderCluster f = some onto →
       ∃ t, exec (.probeToken id) s = .next t ∧ .probeToken id ∈ t.agenda ∧
         t.tokens = s.tokens.filter (fun u => u.id != id) ++ [{ k with at_ := onto, hops := k.hops + 1 }])) ∧
    (∀ f, s.flightOf id = some f →
      let y := f.sec
      let q := (s.sec y).spillq
      let head := leNat (s.readPhys y (spillBase q) 8)
      let tail := leNat (s.readPhys y (spillBase q + 8) 8)
      let diverted := s.diverted f
      (diverted = false → ∃ t, exec (.spillQueueAppend id) s = .next t ∧ t.mem = s.mem ∧
        t.flight = s.flight.filter (fun e => e.id != id) ++ [{ f with arrived := none }]) ∧
      (diverted = true → tail - head < spillRecords q →
       ∃ t, exec (.spillQueueAppend id) s = .next t ∧ t.flightOf id = none ∧
         t.readPhys y (spillBase q + 192 * (1 + tail % spillRecords q)) 192 = s.recordBytes f tail ∧
         leNat (t.readPhys y (spillBase q + 8) 8) = (tail + 1) % 2 ^ 64) ∧
      (diverted = true → spillRecords q ≤ tail - head →
       ∃ t, exec (.spillQueueAppend id) s = .next t ∧ t.flightOf id = none ∧ t.mem = s.mem ∧
         (t.sec y).refused = (s.sec y).refused ++ [f] ∧ (t.sec y).spillFull = true))

/-! ## Steps of the machine: units and jobs -/

/-- R285, R286, R309, R332, R357: a request of a gather or scatter is served where its line is held: at the home bank
of an address of application space that lies in a lease, or at the exporting home of an address in a peer window. A
read sends its bytes back, a write puts its bytes there, and an added element the sum, in one step; what R357 turns
away is the job's fault, with the element's number. R271 to R277, R279, R282, R284, R376: the steps of the copy and
gather units: the queue that is next by rotation starts the command at its head; a running `send` moves its next flit
as a push; bytes that come back land in the scratchpad; a `sendg` reserves its record by one indivisible update of the
ring's header, after which its bytes are moved flit by flit, and is FULL where the record does not fit; a gather
begins its next element; a command with nothing left ends with DONE, or PARTIAL with its resume point. R275 to R277,
R281 to R283, R309, R376: copies whose global side is application space or a peer window. A flit of `send` or `flush`
reads its bytes in the own scratchpad and goes to the home of its address, one of `fetch` asks there for its bytes,
and one of `sendm` is a push to every cluster of the set that is in service. At the home a flit reads or writes its
words in order; the bytes read come back to the scratchpad, and `flush` empties the source words that have been
accepted. A `sendg` collects its bytes flit by flit, and with the last one the record is complete and goes to its
ring: payload, length word with the sender's home cluster and slot, and number, each at its place in the data area,
which wraps. A page of the record without a mapping holds the record at the port that received it, or here while that
port's fault queue is full (log entry 131 names the port). -/
def Obligations.UnitSteps : Prop :=
  (∀ (s : State) (id : Nat) (b : BankReq) (a : Async), s.bankq.find? (fun e => e.id == id) = some b → b.back = false →
    b.copy = false → s.async b.sec b.cmd = some a →
    let event := fun (e : Instr) => if b.far then Instr.peerRequest id else e
    let rest := s.bankq.filter fun e => e.id != id
    (∀ (y : Sec) (asid : BitVec 16) (va : Nat) (l : Line),
      (placeOf b.actor.agent b.ea b.len = .ok (.app va) ∧ y = b.sec ∧ asid = b.actor.asid ∧
          s.elemLease b.actor va b.len = .ok ()) ∨
        (∃ slot off, placeOf b.actor.agent b.ea b.len = .ok (.peer slot off) ∧ (s.sec b.sec).power = .running ∧
          s.peerCheck b.sec slot off b.len b.kind = .ok (y, asid, va)) →
      s.homeLine y asid va b.len (s.actAcc b.actor b.kind (b.kind != .atomic)) l →
      (b.op = .read → ∃ t, exec (event (.bankRead id)) s = .next t ∧
        t.bankq = rest ++ [{ b with id := s.nextId, back := true, data := slice l.data (va % 128) b.len }] ∧
        .flitArrive b.sec b.cl s.nextId ∈ t.agenda) ∧
      (b.op = .write → b.data.length = b.len → ∃ t, exec (event (.bankWrite id)) s = .next t ∧ t.bankq = rest ∧
        t.lineHas y asid va l b.data ∧ .xgComplete b.sec b.cmd ∈ t.agenda) ∧
      (∀ f, b.op = .add f → ∃ t, exec (event (.bankAtomic id)) s = .next t ∧ t.bankq = rest ∧
        .xgComplete b.sec b.cmd ∈ t.agenda ∧
        let old := leNat (slice l.data (va % 128) b.len)
        let v := leNat b.data
        t.lineHas y asid va l (leBytes b.len (if f then (fp32.add rneRnd old v).1 else (old + v) % 2 ^ (8 * b.len))))) ∧
    (∀ slot off sub, placeOf b.actor.agent b.ea b.len = .ok (.peer slot off) → (s.sec b.sec).power = .running →
      s.peerCheck b.sec slot off b.len b.kind = .error sub → a.flt = none →
      ∃ t a', exec (.peerRequest id) s = .next t ∧ t.bankq = rest ∧ t.async b.sec b.cmd = some a' ∧
        a'.flt = some ⟨0x0E, sub, word b.ea, 0, b.elem⟩)) ∧
  (∀ (s : State) (x : Sec) (cl : Fin 96) (id : Nat),
    let c := s.cluster x cl
    (s.unitsRun x = true → s.isFenced x (chipletOf cl) = false →
      (∀ q h, c.cpRunning.length < 8 → s.cpNext x cl = some (q, h) →
       ∃ t, exec (.copyCommandStart x cl) s = .next t ∧ (t.cluster x cl).cp.get q = (c.cp.get q).tail ∧
         (t.cluster x cl).cpRunning = c.cpRunning ++ [h] ∧ (t.cluster x cl).cpLast = q ∧
         .copyCommandStart x cl ∈ t.agenda) ∧
      (∀ k off len rest own so dst o, c.cpRunning = [k] → s.cpNext x cl = none → k.op = .send →
       k.todo = (off, len) :: rest → placeOf k.actor.agent (k.src.toNat + off) 1 = .ok (.spad own so) →
       placeOf k.actor.agent (k.dst.toNat + off) 1 = .ok (.spad dst o) → s.isFenced x (chipletOf dst) = false →
       s.belowMark x cl so len = false → s.spadBad x cl so len = false →
       ∃ t, exec (.copyCommandStart x cl) s = .next t ∧
         t.flight = s.flight ++ [⟨s.nextId, x, dst, k.actor, .push o (s.spadBytes x cl so len), false, none,
           none⟩] ∧
         (t.cluster x cl).cpRunning = [{ k with todo := rest, unaccepted := k.unaccepted + len }])) ∧
    (∀ k j, s.running x cl id = some k → k.todo = [] → k.unaccepted = 0 → k.flt = none → k.full = false →
      s.jobOfActor x k.actor = some j →
      ∃ t, exec (.copyComplete x cl id) s = .next t ∧ (∀ e ∈ (t.cluster x cl).cpRunning, e.id ≠ id) ∧
        (k.stop = none → t.endedJob x k.actor j 1 (match k.ring with
          | some r => r.q % 2 ^ 56
          | none => 0)) ∧
        ∀ f, k.stop = some f → t.endedJob x k.actor j 2 (f.addr.toNat - k.side)) ∧
    (∀ b, s.bankq.find? (fun b => b.id == id && b.back && b.sec == x && b.cl == cl) = some b →
      (b.copy = true → (∀ o ∈ wordsOf (spadOff b.ea) b.data.length, s.feCount (spadWord x cl o) = 0) →
       ∃ t, exec (.scratchpadFlitArrive x cl id) s = .next t ∧
        t.bankq = s.bankq.filter (fun e => e.id != id) ∧
        t.spadBytes x cl (spadOff b.ea) b.data.length = b.data) ∧
      (∀ a, b.copy = false → s.async x b.cmd = some a →
       (∀ o ∈ wordsOf (spadOff (a.side.toNat + b.elem * a.size)) b.data.length, s.feCount (spadWord x cl o) = 0) →
       ∃ t, exec (.scratchpadFlitArrive x cl id) s = .next t ∧
        t.bankq = s.bankq.filter (fun e => e.id != id) ∧
        t.spadBytes x cl (spadOff (a.side.toNat + b.elem * a.size)) b.data.length = b.data)) ∧
    (∀ k va l, s.running x cl id = some k → k.op = .sendg → k.ring = none → k.unaccepted ≠ 0 →
      s.belowMark x cl (spadOff k.src.toNat) ((k.len + 7) / 8 * 8) = false →
      s.spadBad x cl (spadOff k.src.toNat) ((k.len + 7) / 8 * 8) = false →
      placeOf k.actor.agent k.dst.toNat 64 = .ok (.app va) → s.actLease k.actor va 64 = .ok () →
      let y := secOf k.actor.agent
      s.homeLine y k.actor.asid va 64 ⟨.atomic, true, false, none⟩ l → l.data.length = 128 →
      let q := parseRing (slice l.data (va % 128) 64)
      let r := 16 + (k.len + 15) / 16 * 16
      q.legal = true →
      (q.fits r = true → ∃ t k' l', exec (.ringReservation x cl id) s = .next t ∧ t.running x cl id = some k' ∧
        k'.ring = some ⟨q.tail, (q.count + 1) % 2 ^ 64, q.data, q.size⟩ ∧ k'.flt = k.flt ∧ k'.full = k.full ∧
        t.line (lineKey y k.actor.asid va) = some l' ∧ parseRing (slice l'.data (va % 128) 64) =
          ⟨q.head, (q.tail + r) % 2 ^ 64, q.size, q.data, (q.count + 1) % 2 ^ 64⟩ ∧
        t.bankq = s.bankq ∧ k'.todo = flitsOf (q.data + (q.tail + 16) % q.size) ((k.len + 7) / 8 * 8) ∧ k'.got = k.got ∧
        .copyCommandStart x cl ∈ t.agenda) ∧
      (q.fits r = false → ∃ t k', exec (.ringReservation x cl id) s = .next t ∧ t.running x cl id = some k' ∧
        k'.full = true ∧ k'.unaccepted = 0 ∧ k'.ring = none ∧ t.mem = s.mem ∧ t.llc = s.llc)) ∧
    (∀ a, s.async x id = some a → a.flt = none →
      (∀ i rest, a.todo = i :: rest → s.earlierDone a.actor = true →
       (∀ r ∈ a.elemReads i, s.belowMark x a.cluster (spadOff r.1) r.2 = false ∧
         s.spadBad x a.cluster (spadOff r.1) r.2 = false) →
       let w := if a.wide then 8 else 4
       ∀ ea, a.elemAddr (leNat (s.spadBytes x a.cluster (spadOff (a.list.toNat + i * w)) w)) = .ok ea →
        ∃ t b, exec (.xgComplete x id) s = .next t ∧ t.bankq = s.bankq ++ [b] ∧ b.ea = ea ∧ b.elem = i ∧
          b.len = a.size ∧ b.cmd = id ∧ b.back = false ∧ t.async x id = some { a with todo := rest, started := true } ∧
          (a.kind ≠ .xgat →
            b.data = s.spadBytes x a.cluster (spadOff (a.side.toNat + i * a.size)) a.size)) ∧
      (∀ j, a.todo = [] → (∀ b ∈ s.bankq, b.copy = true ∨ b.cmd ≠ id) → s.jobOfActor x a.actor = some j →
       ∃ t, exec (.xgComplete x id) s = .next t ∧ t.endedJob x a.actor j 1 0 ∧ t.async x id = none))) ∧
  ((∀ (s : State) (x : Sec) (cl : Fin 96) (k : CpCmd) (off len : Nat) (rest : List (Nat × Nat)),
    s.unitsRun x = true → s.isFenced x (chipletOf cl) = false → (s.cluster x cl).cpRunning = [k] →
    s.cpNext x cl = none → k.todo = (off, len) :: rest →
    let src := k.src.toNat + off
    let dst := k.dst.toNat + off
    let asks := fun (ea : Nat) (op : BankOp) (bs : List Byte) =>
      ∃ t, exec (.copyCommandStart x cl) s = .next t ∧
        t.bankq = s.bankq ++ [{ copyReq x cl k off ea len op bs false with id := s.nextId }] ∧
        (t.cluster x cl).cpRunning = [{ k with todo := rest, unaccepted := k.unaccepted + len }]
    ((∀ c o, placeOf k.actor.agent src 1 ≠ .ok (.spad c o)) → asks src .read []) ∧
    (∀ own so, placeOf k.actor.agent src 1 = .ok (.spad own so) → s.belowMark x cl so len = true →
      exec (.copyCommandStart x cl) s = .next s) ∧
    (∀ own so, placeOf k.actor.agent src 1 = .ok (.spad own so) → s.belowMark x cl so len = false →
      s.spadBad x cl so len = false →
      (k.ring = none → k.op = .send ∨ k.op = .flush → (∀ c o, placeOf k.actor.agent dst 1 ≠ .ok (.spad c o)) →
       asks dst .write (s.spadBytes x cl so len)) ∧
      (k.ring = none → k.op = .sendm →
       let cls := (k.set.map (Fin.ofNat 96)).filter fun c => !s.isFenced x (chipletOf c)
       ∃ t fs, exec (.copyCommandStart x cl) s = .next t ∧ t.flight = s.flight ++ fs ∧
         fs.map (fun f => (f.sec, f.cl, f.body)) = cls.map (fun c => (x, c, .push dst (s.spadBytes x cl so len))) ∧
         (t.cluster x cl).cpRunning = [{ k with todo := rest, unaccepted := k.unaccepted + len * cls.length }]) ∧
      (∀ r, k.ring = some r → so = spadOff k.src.toNat + off →
       let got := k.got ++ s.spadBytes x cl so len
       ∃ t, exec (.copyCommandStart x cl) s = .next t ∧
         (t.cluster x cl).cpRunning = [{ k with todo := rest, got := got }] ∧
         (rest ≠ [] → t.bankq = s.bankq) ∧
         (rest = [] → ∃ b, t.bankq = s.bankq ++ [b] ∧ b.op = .record ∧ b.copy = true ∧ b.cmd = k.id ∧
           b.data = got.take k.len)))) ∧
  (∀ (s : State) (id : Nat) (b : BankReq) (k : CpCmd) (va : Nat) (l : Line),
    s.bankq.find? (fun e => e.id == id) = some b → b.back = false → b.copy = true →
    s.running b.sec b.cl b.cmd = some k → b.actor.agent = .thread b.sec (Fin.ofNat 6144 b.actor.home) →
    placeOf b.actor.agent b.ea 8 = .ok (.app va) → va % 8 = 0 → b.len % 8 = 0 → b.len ≤ 64 →
    (∀ i, i < b.len / 8 → placeOf b.actor.agent (b.ea + 8 * i) 8 = .ok (.app (va + 8 * i)) ∧
      s.actLease b.actor (va + 8 * i) 8 = .ok () ∧ s.sealAt b.sec b.actor.asid (va + 8 * i) = none) →
    let rest := s.bankq.filter fun e => e.id != id
    (b.op = .read → s.homeLine b.sec b.actor.asid va b.len (s.actAcc b.actor .read true) l →
      ∃ t, exec (.bankRead id) s = .next t ∧ t.bankq = rest ++ [{ copyReq b.sec b.cl k b.elem (k.dst.toNat + b.elem) b.len
        .read (slice l.data (va % 128) b.len) true with id := s.nextId }]) ∧
    (b.op = .write → b.data.length = b.len →
      s.homeLine b.sec b.actor.asid va b.len (s.actAcc b.actor .write true) l → l.data.length = 128 →
      let so := spadOff (k.src.toNat + b.elem)
      (k.op = .flush → ∀ i, i < b.len / 8 → s.feCount (spadWord b.sec b.cl (so + 8 * i)) = 0) →
      ∃ t, exec (.bankWrite id) s = .next t ∧ t.bankq = rest ∧ t.lineHas b.sec b.actor.asid va l b.data ∧
        t.running b.sec b.cl b.cmd = some { k with unaccepted := k.unaccepted - b.len } ∧
        ∀ i, i < b.len / 8 → t.spadFull b.sec b.cl (so + 8 * i) =
          if k.op = .flush then false else s.spadFull b.sec b.cl (so + 8 * i))) ∧
  (∀ (r : RingSlot) (home : Nat) (bs : List Byte), 8192 ≤ r.size → bs.length ≤ 4096 →
    let at_ := fun (o : Nat) (v : List Byte) => ∀ j, j < v.length → ∃ p ∈ recordPieces r home bs,
      let q := r.data + (r.off + o + j) % r.size
      p.1 ≤ q ∧ q < p.1 + p.2.length ∧ p.2[q - p.1]? = v[j]?
    at_ 16 bs ∧ at_ 0 (leBytes 4 bs.length ++ leBytes 4 (home % 2 ^ 13)) ∧ at_ 8 (leBytes 8 r.q) ∧
    ∀ p ∈ recordPieces r home bs, p.2 ≠ [] ∧ p.1 / 128 = (p.1 + p.2.length - 1) / 128) ∧
  ∀ (s : State) (id : Nat) (b : BankReq) (k : CpCmd) (r : RingSlot) (h : RingHome),
    s.bankq.find? (fun e => e.id == id) = some b → b.back = false → b.copy = true → b.op = .record → b.ea < 2 ^ 56 →
    s.running b.sec b.cl b.cmd = some k → k.ring = some r → k.dst.toNat < 2 ^ 56 →
    (2 ^ 56 ≤ r.data → ∃ t k', exec (.bankWrite id) s = .next t ∧ t.mem = s.mem ∧ t.llc = s.llc ∧
      t.running b.sec b.cl b.cmd = some k' ∧ k'.unaccepted = 0 ∧
      (k.flt = none → k'.flt = some ⟨0x16, 0, word r.data, 0, 0⟩)) ∧
    (r.data < 2 ^ 56 → s.ringHome b.actor r.data r.size .write = .ok h →
      let segs := (recordPieces r b.actor.home b.data).map fun p => (p.1 - h.base + h.va, p.2)
      let rest := s.bankq.filter fun e => e.id != b.id
      (∀ u, s.missingPage h.sec h.asid segs = none → s.writeRecord h.sec h.asid (s.raceOf b.actor) segs = .ok u →
       ∃ t k', exec (.bankWrite id) s = .next t ∧ t.mem = u.mem ∧ t.llc = u.llc ∧
         t.running b.sec b.cl b.cmd = some k' ∧ k'.unaccepted = 0 ∧ k'.flt = k.flt) ∧
      (∀ page, s.missingPage h.sec h.asid segs = some page →
       let port := s.receivingPort b.sec b.cl h.sec
       let there := (s.sec h.sec).held.filter fun e => e.port == port
       (there.length < 64 → ∃ t, exec (.bankWrite id) s = .next t ∧ t.mem = s.mem ∧ t.llc = s.llc ∧ t.bankq = rest ∧
         (t.sec h.sec).held = (s.sec h.sec).held ++ [⟨port, h.asid, r.q, h.va + r.off % r.size, segs⟩]) ∧
       (64 ≤ there.length → exec (.bankWrite id) s = .next s))))

/-- R267, R269, R288, R291 to R293, R301, R353, R434: jobs of Stratus and the network end with their status: a lease of
pages that are all resident pins them, one that meets a gap, of whatever kind of page failure (log entry 71), is PARTIAL
there, and one whose walk meets an error ends with MCE; a write-back leaves a dirty line held and clean, and its bytes
at the device, loses a line without a mapping (log entry 69), and ends with MCE at a line that the device does not take
(R409, log entry 116); a migration ends when its groups have all been looked at; a transfer ends DONE, REFUSED with the
other side's syndrome (a free value, log entry 21), with the failure of a local access, or PARTIAL at a page that is not
resident; a detached job is freed; a receiver without a buffer is tried again; an invalidation leaves nothing of its
range in the LLC and the TLBs; and a group that the engine moves has its bytes, and its old frame is on the pool (log
entries 31, 72: the model's order of the pools and of the groups). -/
def Obligations.JobEnds : Prop :=
  ∀ (s : State) (x : Sec) (id : Nat),
    (∀ j r, s.async x id = some j → s.earlierDone j.actor = true → s.jobOfActor x j.actor = some r →
      let a := j.actor
      let ends := fun (st info : Nat) (P : State → Prop) =>
        ∃ t, exec (.jobComplete x id) s = .next t ∧ t.endedJob x a r st info ∧ t.async x id = none ∧ P t
      let fails := fun (f : Flt) (P : State → Prop) =>
        ∃ t, exec (.jobComplete x id) s = .next t ∧ t.async x id = none ∧ t.job x a.home a.job =
          some { r with running := false, queued := false, status := 1, info := 0, flt := some { f with job := a.job } } ∧
          P t
      (j.kind = .lease → s.leaseCount x a < 4096 →
       (s.firstGap x a.asid j.base (j.len / 65536) 0 = none →
        ends 1 0 fun t => ∀ v i, a.vt = some v → s.inst x v.uid = some i → i.final = none →
          ∃ i', t.inst x v.uid = some i' ∧ i'.leases = i.leases ++ [(j.base, j.len)]) ∧
       (∀ k n, s.firstGap x a.asid j.base (j.len / 65536) 0 = some (k, .mce n) →
        fails ⟨0x13, n, word (j.base + k * 65536), 0, 0⟩ fun _ => True) ∧
       (∀ k sub, s.firstGap x a.asid j.base (j.len / 65536) 0 = some (k, .page sub) →
        ends 2 (k * 65536) fun t => ∀ v i, a.vt = some v → s.inst x v.uid = some i → i.final = none → 0 < k →
          ∃ i', t.inst x v.uid = some i' ∧ i'.leases = i.leases ++ [(j.base, k * 65536)])) ∧
      (∀ va, j.kind = .llcwb → placeOf a.agent j.base 1 = .ok (.app va) →
       ((s.sec x).badDevice = [] → ends 1 0 fun _ => True) ∧
       (∀ l, j.base % 128 = 0 → j.len = 128 → s.line (lineKey x a.asid j.base) = some l → l.dirty = true →
        l.data.length = 128 →
        (∀ tl u, s.translate x a.asid j.base = .ok (tl, u) →
         let bad := (s.sec x).badDevice.contains (tl.addr j.base / 128)
         (bad = false → ends 1 0 fun t => t.line (lineKey x a.asid j.base) = some { l with dirty := false } ∧
           t.readPhys x (tl.addr j.base) 128 = l.data) ∧
         (bad = true → fails ⟨0x13, 1, word j.base, 0, 0⟩ fun t => t.line (lineKey x a.asid j.base) = some l)) ∧
        (∀ e, s.translate x a.asid j.base = .error e → ends 1 0 fun t => t.line (lineKey x a.asid j.base) = none))) ∧
      (∀ far, j.kind = .pmig far →
       (j.todo = [] → ends 1 j.count fun _ => True) ∧
       (∀ va rest, j.todo = va :: rest → ∃ t, exec (.jobComplete x id) s = .next t ∧
         .migrationGroupMove x a.asid (word va) far ∈ t.agenda)) ∧
      (∀ op port queue remote key, j.kind = .nsend op port queue remote key →
       let s' := s.startAsync x j
       let n := s.freeCtr
       let reply := Config.netReply n
       let bs := (List.range j.len).map fun i => Config.netByte (n + 1 + i)
       (∀ y, reply = some y → op = 2 → ends 5 y.toNat fun _ => True) ∧
       (∀ m, m = (if op = 2 ∧ reply = none then { s' with freeCtr := n + 1 + j.len }.netStores a j.len j.base bs
           else { s' with freeCtr := n + 1 }.netLoads a j.len j.base j.len) → (op = 2 → reply = none) →
        (m.2 = none → (match reply with
          | some y => ends 5 y.toNat fun _ => True
          | none => ends 1 0 fun _ => True)) ∧
        (∀ f, m.2 = some f → f.waits = false →
         (f.cause = 0x06 → f.sub = 1 →
          ends 2 (max j.base (f.addr.toNat / 65536 * 65536) - j.base) fun _ => True) ∧
         (f.cause ≠ 0x06 ∨ f.sub ≠ 1 → fails f fun _ => True))))) ∧
    (∀ j queue port remote key, s.async x id = some j → j.kind = .nsend 0 port queue remote key →
      exec (.receiverNotReadyNak x id) s = .next (s.post (.jobComplete x id))) ∧
    (∀ j, s.job x (id / 65536) (id % 65536) = some j → j.running = false → j.detached = true →
      ∃ t, exec (.detachedJobEnd x id) s = .next t ∧ t.job x (id / 65536) (id % 65536) = none) ∧
    (∀ u, (s.sec x).tlbis.find? (fun t => t.id == id) = some u → (s.sec x).badDevice = [] →
      ∃ t, exec (.tlbiComplete x id) s = .next t ∧ (∀ v ∈ (t.sec x).tlbis, v.id ≠ id) ∧
        (∀ n, id ∉ (t.master x n).tlbis) ∧ (∀ k, u.holdsLine x k = true → t.line k = none) ∧
        ∀ e ∈ (t.sec x).tlb, u.holdsEntry e.1 = false) ∧
    (∀ a far va rest at_ frame, (s.sec x).asyncs = [a] → a.kind = .pmig far → a.todo = va :: rest → va < 2 ^ 64 →
      s.movable x a.actor.asid va far = some (at_, frame) →
      let dst := (if far then (s.sec x).fpool else (s.sec x).npool).headD 0
      ∃ t, exec (.migrationGroupMove x a.actor.asid (word va) far) s = .next t ∧
        (t.sec x).asyncs = [{ a with todo := rest, count := a.count + 1 }] ∧
        ((∀ i, i < 256 → at_ + i < dst ∨ dst + 0x200000 ≤ at_ + i) →
          ∀ i, i < 0x200000 → t.memByte x (dst + i) = s.memByte x (frame + i)) ∧
        (far = true → (t.sec x).fpool = (s.sec x).fpool.tail ∧ (t.sec x).npool = frame :: (s.sec x).npool) ∧
        (far = false → (t.sec x).npool = (s.sec x).npool.tail ∧ (t.sec x).fpool = frame :: (s.sec x).fpool))

/-! ## Steps of the machine: the spawn unit -/

/-- R44, R153, R154, R348, R361 to R366: the steps of the spawn unit. A freed index goes to the oldest entry that
waits, whose issuer completes with the handle; the residency check holds an entry at its first absent page and tells
the master core, at every check that fails (log entry 45), or makes it READY, or ends it at once without vts; a ready
entry is broadcast and probed; a free context binds to an entry, which counts as a bypass of every older eligible
entry of its priority (R366), draws the oldest number of the replay list or the next one, and begins the vt with the
registers of R44; a context without a number is released, and its draw counts; an instance whose vts have all ended
gets its final status, and its joiner goes on; one that a vt owned which has ended frees its index (R9). R364, R366:
which entry a context chooses among those for which it is eligible: one of the highest priority; an entry that has
been bypassed four times before all others, then one whose probe hits, and among equals the one that became READY
first. -/
def Obligations.SpawnUnit : Prop :=
  (∀ (s : State) (x : Sec) (uid : Nat) (j : Fin 6144),
    let g : Agent := .thread x j
    (∀ i k w d, (s.sec x).insts.find? (fun i => i.phase == .waitIdx) = some i → s.inst x i.uid = some i →
      s.freeIndex x = some k → s.indexWaiter i.uid = some (w, d) →
      let handle := word (i.rcd.addr % 2 ^ 56 / 64 * 64 + k.val)
      ∃ t i', exec (.indexAssign x) s = .next t ∧ t.inst x i.uid = some i' ∧ i'.idx = some k ∧ i'.handle = handle ∧
        i'.phase = .lease ∧ .leaseResidencyCheck x i.uid ∈ t.agenda ∧
        (t.hart w).s = (s.hart w).s.set d.val ⟨handle, true, false⟩ d.isLt ∧ (t.hart w).pc = (s.hart w).pc + 4 ∧
        (t.hart w).park = none) ∧
    (∀ i, s.inst x uid = some i →
      (i.phase = .lease →
       let absent := s.firstAbsent x i.asid (i.leases ++ [(i.rcd.save, 0x1000000)])
         (pageCount (i.leases ++ [(i.rcd.save, 0x1000000)]) - i.leasePage) i.leasePage
       (∀ k va, absent = some (k, va) → s.quiet x i.top 5 →
        ∃ t i', exec (.leaseResidencyCheck x uid) s = .next t ∧ t.inst x uid = some i' ∧ i'.leasePage = k ∧
          i'.phase = .lease ∧ t.pends x i.top 5 (word va)) ∧
       (absent = none → ∃ t i', exec (.leaseResidencyCheck x uid) s = .next t ∧ t.inst x uid = some i' ∧
         (0 < i.rcd.count → i'.phase = .ready ∧ i'.bypass = 0 ∧ i'.readySeq = (s.sec x).readySeq ∧
           (t.sec x).readySeq = (s.sec x).readySeq + 1 ∧ .readyBroadcast x uid ∈ t.agenda) ∧
         (i.rcd.count = 0 → i'.phase = .drained ∧ .instanceEnd x uid ∈ t.agenda))) ∧
      (i.phase = .ready →
       (∃ t, exec (.readyBroadcast x uid) s = .next t ∧ t.inst x uid = some { i with broadcast := true }) ∧
       (∃ t, exec (.residencyProbe x uid) s = .next t ∧ t.inst x uid = some { i with probeHit := match i.probe with
          | some va => (s.line (lineKey x i.asid va)).isSome
          | none => false })) ∧
      (s.endable x i = true → s.ownerGone x i = false →
       ∃ t i', exec (.instanceEnd x uid) s = .next t ∧ t.inst x uid = some i' ∧ i'.phase = .ended ∧ i'.leases = [] ∧
         i'.final = some (if i.aborted then .aborted else if i.lost then .lost else .done) ∧
         ∀ w d, (s.hart w).park = some (.join uid d) → .joinComplete w ∈ t.agenda) ∧
      (∀ n, i.owner = .master n → s.ownerGone x i = false) ∧
      (∀ v, i.owner = .vt v → (s.ownerGone x i = false ↔ ∃ p, s.inst x v.uid = some p ∧ ∃ t ∈ p.vts, t.n = v.n)) ∧
      (s.endable x i = true → s.ownerGone x i = true →
       ∃ t, exec (.instanceEnd x uid) s = .next t ∧ t.inst x uid = none ∧ .indexAssign x ∈ t.agenda)) ∧
    (∀ n, s.slotFree x j.val = true → s.dWanted x j.val = false → s.messageWaits x (clusterOf j.val) = false →
      s.imageFor x j.val = none →
      chooseEntry ((s.sec x).insts.filter fun n => n.phase == .ready && n.broadcast && n.eligible j.val) = some n →
      ∃ t, exec (.contextChoose g) s = .next t ∧ (t.ctx x j.val).holds = .bound n.uid ∧ .drawRequest g ∈ t.agenda ∧
        (t.sec x).insts = (s.sec x).insts.map fun m =>
          if m.uid = n.uid then { m with bypass := 0 }
          else if m.phase = .ready ∧ m.broadcast ∧ m.rcd.prio = n.rcd.prio ∧ m.readySeq < n.readySeq ∧
            m.eligible j.val then { m with bypass := m.bypass + 1 } else m) ∧
    ((s.ctx x j.val).holds = .bound uid → s.dWanted x j.val = false → ∀ n, s.inst x uid = some n →
      (∀ k, n.phase = .ready → ((∃ rest, n.replay = k :: rest) ∨ (n.replay = [] ∧ n.draw = k ∧ k < n.rcd.count)) →
       ∃ t n', exec (.drawRequest g) s = .next t ∧ (t.ctx x j.val).holds = .drawn uid k ∧ t.inst x uid = some n' ∧
         n'.vts = n.vts ++ [⟨k, j.val, none⟩] ∧ n'.replay = n.replay.tail ∧ .vtStart g ∈ t.agenda ∧
         n'.draw = (if n.replay = [] then k + 1 else n.draw) ∧
         n'.phase = (if n'.replay = [] ∧ n.rcd.count ≤ n'.draw then .drained else .ready)) ∧
      (n.replay = [] → n.rcd.count ≤ n.draw → (s.ctx x j.val).drawAfter = none →
       ∃ t n', exec (.drawRequest g) s = .next t ∧ (t.ctx x j.val).holds = .released ∧ t.inst x uid = some n' ∧
         n'.phase = (if n.phase = .ready then .drained else n.phase) ∧ n'.draw = n.draw + 1)) ∧
    (∀ n i, (s.ctx x j.val).holds = .drawn uid n → s.inst x uid = some i →
      ∃ t, exec (.vtStart g) s = .next t ∧ (t.ctx x j.val).holds = .running ⟨uid, n⟩ ∧ (t.ctx x j.val).vtn = word n ∧
        (t.ctx x j.val).sph = i.handle ∧ g ∈ t.turns ∧
        let h := t.hart g
        (∀ r : Fin 12, h.s.get (Fin.ofNat 16 r.val) = ⟨i.regs.get r, true, false⟩) ∧
        h.s.get 12 = ⟨word n, true, false⟩ ∧ h.s.get 13 = ⟨i.handle, true, false⟩ ∧
        h.s.get 14 = ⟨word (0xFF40000000000000 + 0x1C0000 + (j.val % 64 + 1) * 0x1000), true, false⟩ ∧
        h.s.get 15 = ⟨0, true, false⟩ ∧ h.pc = i.rcd.entry ∧ h.fmode = i.fmode ∧ h.srseed = i.srseed + word n ∧
        (∀ k : Fin 8, k ≠ 0 → h.p.get k = false) ∧ (∀ k : Fin 16, (h.v.get k).tag = .inv) ∧
        (∀ k : Fin 8, k ≠ 0 → (h.m.get k).void = true) ∧ (∀ k : Fin 4, (h.q.get k).void = true) ∧ h.park = none)) ∧
  (∀ (ns : List Inst),
    (chooseEntry ns = none ↔ ns = []) ∧
    (∀ n, chooseEntry ns = some n → n ∈ ns ∧ ∀ m ∈ ns, m.rcd.prio ≤ n.rcd.prio ∧
      (m.rcd.prio = n.rcd.prio →
        (n.bypass ≠ 4 → m.bypass ≠ 4 ∧ (n.probeHit = false → m.probeHit = false) ∧
          (m.probeHit = n.probeHit → n.readySeq ≤ m.readySeq)) ∧
        (n.bypass = 4 → m.bypass = 4 → n.readySeq ≤ m.readySeq))))

/-! ## Steps of the machine: pre-emption and special registers -/

/-- R401 to R404: a thread core that is stopped stops every slot at its instruction boundary, with its transaction
aborted, and keeps a park on a fault; that a query of the generator is taken back, its result register as it was, is the
model's choice (log entry 83); once it is quiet the image of every vt on it is written to its place in the save area and
listed, and the issuer gets PREEMPTED with the core's number; a release puts it back to allocation; and a free slot to
which nothing else comes first takes the first saved image, with the program counter, the full registers and the fault
that it was saved with. What of an edited image is read back is log entry 85, and that its vt is the one that Stratus
recorded is log entry 117: both are the model's choice. -/
def Obligations.Preemption : Prop :=
  ∀ (s : State) (x : Sec) (cl : Fin 96) (co : Fin 8) (n : Fin 16),
    let core := s.coreSt x cl co
    (core.stopped = none → s.isFenced x (chipletOf cl) = false → (s.sec x).power = .running →
      ∃ t, exec (.preempt x cl co n) s = .next t ∧ (t.coreSt x cl co).stopped = some n ∧
        (t.coreSt x cl co).saved = false ∧ .preemptImagesSaved x cl co ∈ t.agenda ∧
        ∀ i ∈ slotsOf cl co, let h := s.hart (ctxAgent x i)
          (t.hart (ctxAgent x i)).tx = none ∧
          (h.tx = none → ∀ next, h.park = some (.fault next) → t.hart (ctxAgent x i) = h) ∧
          (h.tx = none → (∀ next, h.park ≠ some (.fault next)) → (∀ d, h.park ≠ some (.pginv d)) →
            t.hart (ctxAgent x i) =
              { h with pc := if h.chain = [] then h.pc else h.chainPc, chain := [], park := none, sWait := false }) ∧
          (∀ e r d w was unread, h.tx = none → h.park = some (.pginv e) → s.gen = some r →
            r.for_ = .query (ctxAgent x i) d w was unread → t.hart (ctxAgent x i) =
              { h with s := h.s.set d.val was d.isLt, unread := if unread then d :: h.unread else h.unread
                       pc := if h.chain = [] then h.pc else h.chainPc, chain := [], park := none, sWait := false })) ∧
    (core.stopped ≠ none → exec (.preempt x cl co n) s = .next s) ∧
    (core.stopped = some n → core.saved = false → s.coreQuiet x cl co = true → s.quiet x n 4 →
      ∃ t, exec (.preemptImagesSaved x cl co) s = .next t ∧ (t.coreSt x cl co).saved = true ∧
        (t.coreSt x cl co).holder = none ∧ t.pends x n 4 (word (cl.val * 8 + co.val)) ∧
        ∀ i ∈ slotsOf cl co, ∀ v inst, s.vtAt x i = some v → s.inst x v.uid = some inst →
          (t.ctx x i).holds = .released ∧ ∃ w ∈ (t.sec x).saved, w.vt = v ∧ w.ran = i ∧
            w.idx = (s.ctx x i).extFrom.getD i ∧ w.needsD = (s.ctx x i).extFrom.isSome ∧
            (∀ next, w.fault = some next ↔ (s.hart (ctxAgent x i)).park = some (.fault next)) ∧
            let va := inst.rcd.save + 1536 * w.idx
            ((∀ k ∈ slotsOf cl co, k ≠ i → s.vtAt x k = none) → va % 128 = 0 → va + 1536 ≤ 2 ^ 56 →
              (∀ k, k < 12 → (∃ l, s.line (lineKey x inst.asid (va + 128 * k)) = some l ∧ l.data.length = 128) ∧
                s.tlbHit x inst.asid (va + 128 * k) ≠ none) →
              (t.areaRead x inst.asid va 1536).1 = imageBytes (s.hart (ctxAgent x i)) (s.ctx x i)
                (s.ctx x (s.homeIdx x i)).seq.toNat (s.ctx x i).extFrom.isSome)) ∧
    (core.stopped ≠ none → ∃ t, exec (.coreRelease x cl co) s = .next t ∧ (t.coreSt x cl co).stopped = none ∧
      (t.coreSt x cl co).watchdog = 0) ∧
    (∀ (j : Fin 6144) w inst, s.slotFree x j.val = true → s.dWanted x j.val = false → s.boundWaits x j.val = false →
      s.messageWaits x (clusterOf j.val) = false → s.imageFor x j.val = some w → s.inst x w.uid = some inst →
      let bs := (s.areaRead x inst.asid (inst.rcd.save + 1536 * w.idx) 1536).1
      ∃ t, exec (.imageRestore x j) s = .next t ∧ (t.ctx x j.val).holds = .running w.vt ∧
        (t.ctx x j.val).homec = word (homecBits (imageNat bs 0x5A8 8)) ∧ (∀ v ∈ (t.sec x).saved, v.order ≠ w.order) ∧
        .thread x j ∈ t.turns ∧ (t.hart (.thread x j)).pc = word (imageNat bs 0x580 8 / 4 * 4) ∧
        (t.hart (.thread x j)).park = w.fault.map Park.fault ∧ (t.hart (.thread x j)).roSeq = w.roSeq ∧
        ∀ r : Fin 16, imageNat bs 0x5B8 8 / 2 ^ r.val % 2 = 1 →
          (t.hart (.thread x j)).s.get r = ⟨word (imageNat bs (8 * r.val) 8), true, false⟩)

/-- R48, R49: the layout of a saved context, field by field, in 1,536 bytes; nothing is written before the core has
drained. Restored, an image gives back every s register with its full bit, the predicates, the v registers with their
side fields and tags, the m and q registers with their void bits, the program counter, the modes, the seed, the count
and the request class, and of the context its number, handle, home, accumulator binding and matrix configuration;
Cirrus and digest bindings are invalid. -/
def Obligations.SavedImage : Prop :=
  (∀ (h own : Hart) (c : Ctx) (seq : Nat) (ext : Bool) (w : Saved) (own2 : Ctx),
    let bs := imageBytes h c seq ext
    let g := imageHart bs own w
    let q := imageCtx bs own2 w
    let word8 := fun (off : Nat) => imageNat bs off 8
    let state := word8 0x5B8
    bs.length = 1536 ∧
    ((∀ r : Fin 16, word8 (8 * r.val) = (h.s.get r).val.toNat ∧ state.testBit r.val = (h.s.get r).full ∧
        imageNat bs (0x80 + 64 * r.val) 64 = (h.v.get r).body.toNat ∧ word8 (0x480 + 8 * r.val) = (h.v.get r).side.toNat ∧
        word8 0x5C0 / 16 ^ r.val % 16 = tagCode (h.v.get r).tag) ∧
      word8 0x500 = 2 ^ 64 - 1 ∧
      (∀ k : Fin 8, k ≠ 0 → word8 (0x500 + 8 * k.val) = (h.m.get k).val.toNat ∧
        state.testBit (23 + k.val) = (h.m.get k).void ∧ state.testBit (16 + k.val) = h.p.get k) ∧
      (∀ k : Fin 4, imageNat bs (0x540 + 16 * k.val) 16 = (h.q.get k).val.toNat ∧
        state.testBit (32 + k.val) = (h.q.get k).void) ∧
      state.testBit 16 = true ∧ state.testBit 31 = false ∧ state < 2 ^ 36 ∧
      word8 0x580 = h.pc.toNat ∧ word8 0x588 = h.fmode.toNat ∧ word8 0x590 = h.fflags.toNat ∧
      word8 0x598 = h.srseed.toNat ∧ word8 0x5A0 = c.vtn.toNat ∧ word8 0x5A8 = c.homec.toNat ∧
      word8 0x5B0 = h.instret.toNat ∧
      word8 0x5C8 = c.accBound.toNat + 2 * (c.accLive.get 0).toNat + 4 * (c.accLive.get 1).toNat + 8 * c.accInt.toNat ∧
      word8 0x5D0 = seq % 65536 + ext.toNat * 2 ^ 16 + h.hpri.val * 2 ^ 17 ∧ word8 0x5D8 = c.sph.toNat ∧
      (c.mxcfg = none → slice bs 0x5E0 32 = List.replicate 32 0) ∧
      ∀ w v, c.mxcfg = some (w, v) → word8 0x5E0 = w.toNat % 2 ^ 63 + 2 ^ 63 ∧ word8 0x5E8 = v.toNat ∧
        slice bs 0x5F0 16 = List.replicate 16 0) ∧
    ((∀ r : Fin 16, g.s.get r = ⟨(h.s.get r).val, (h.s.get r).full, false⟩) ∧
      (∀ k : Fin 8, k ≠ 0 → g.p.get k = h.p.get k) ∧ g.v = h.v ∧ (∀ k : Fin 8, k ≠ 0 → g.m.get k = h.m.get k) ∧
      g.q = h.q ∧ (h.pc.toNat % 4 = 0 → g.pc = h.pc) ∧
      (h.fmode.toNat ≤ 4 ∨ (0x100 ≤ h.fmode.toNat ∧ h.fmode.toNat ≤ 0x104) → g.fmode = h.fmode) ∧
      (h.fflags.toNat < 32 → g.fflags = h.fflags) ∧ g.srseed = h.srseed ∧ g.instret = h.instret ∧ g.hpri = h.hpri ∧
      g.park = w.fault.map Park.fault ∧ g.roSeq = w.roSeq ∧ g.unread = w.unread) ∧
    (q.accBound = c.accBound ∧ q.accLive = c.accLive ∧ q.accInt = c.accInt ∧
      q.cirrus = none ∧ q.digest = none ∧ (c.vtn.toNat < 2 ^ 40 → q.vtn = c.vtn) ∧
      (c.sph.toNat < 2 ^ 56 → q.sph = c.sph) ∧ (homecBits c.homec.toNat = c.homec.toNat → q.homec = c.homec) ∧
      (c.mxcfg = none → q.mxcfg = none) ∧
      ∀ w v, c.mxcfg = some (w, v) → w.toNat < 2 ^ 26 → v.toNat < 2 ^ 48 → q.mxcfg = some (w, v))) ∧
  ∀ (s : State) (x : Sec) (cl : Fin 96) (co : Fin 8), s.coreQuiet x cl co = false →
    exec (.preemptImagesSaved x cl co) s = .next s

/-- R32, R34, R37, R339, R369, R371, R372: what is left by the writes of special registers that are steps of their
own: the translation root with its reserved bits clear; the progress mode that PM shows, and its taking effect, in
mode Y with the lowest ready slot as the next holder; the watchdog of a holder run out; and the mailbox lock, which
Horizon receives when both ask, with the release and DBI. That PM applied to all cores ignores the selection is log
entry 77, and that a lock request which is not granted stands until the lock is free is log entry 78: the model's
choices. -/
def Obligations.RegisterSteps : Prop :=
  ∀ (s : State) (x : Sec) (cl : Fin 96) (co : Fin 8),
    let core := s.coreSt x cl co
    let c := s.sec x
    (∀ (asid : BitVec 16) (v : BitVec 64), ∃ t, exec (.ptbrWrite x asid v) s = .next t ∧
      t.ptbr x asid = v &&& 0x000FFFFFFFFF0001 ∧ ∀ b, b ≠ asid → t.ptbr x b = s.ptbr x b) ∧
    (∀ (tsel : BitVec 10) (pm all : Bool), ∃ t, exec (.sysctlPmWrite x tsel pm all) s = .next t ∧
      (all = true ∨ tsel.toNat = 8 * cl.val + co.val →
        t.pm x cl co = pm ∧ (s.pm x cl co ≠ pm → .progressModeApply x cl co ∈ t.agenda)) ∧
      (all = false → tsel.toNat ≠ 8 * cl.val + co.val → t.pm x cl co = s.pm x cl co)) ∧
    (∀ y, core.next = some y → ∃ t, exec (.progressModeApply x cl co) s = .next t ∧
      (t.coreSt x cl co).modeY = y ∧ (t.coreSt x cl co).next = none ∧ (t.coreSt x cl co).watchdog = 0 ∧
      (t.coreSt x cl co).holder = none ∧
      (y = true → ∀ sl, (t.roleOf x cl co (t.coreSt x cl co)).holder = some sl ↔
        t.ready (.thread x (indexOf cl co sl)) = true ∧ ∀ l, l < sl → t.ready (.thread x (indexOf cl co l)) = false)) ∧
    (∀ sl, core.modeY = true → core.holder = some sl → core.stopped = none →
      ∃ t, exec (.watchdogExpire x cl co) s = .next t ∧ t.watchdogOut (.thread x (indexOf cl co sl)) = true) ∧
    (∀ both, ∃ t, exec (.hxmboxLockRequest x both) s = .next t ∧ t.sec x =
      if c.hxLock = true then c
      else if c.hxHorizon = true then { c with hxWant := true }
      else if both then { c with hxHorizon := true, hxWant := true } else { c with hxLock := true }) ∧
    (∃ t, exec (.hxmboxLockRelease x) s = .next t ∧ t.sec x = { c with hxLock := false, hxWant := false } ∧
      (c.hxResps ≠ [] → .horizonResponse x ∈ t.agenda)) ∧
    (∃ t, exec (.hxmboxDbiClear x) s = .next t ∧ t.sec x = { c with hxDbi := false })

/-! ## Steps of the machine: the control window, errors and fences -/

/-- R337, R355, R356, R358: the frame pools push and pop; an export entry opens when its range is legal; a revocation
advances the generation and sets BUSY until it has drained; a handle that is written clears its slot and is put to its
home, which answers with the entry's bounds, or ERR, as does Stratus where no path of bridges in service leads there
(R412, R414); and a write to the window does what is written at its offset. That a
pool answers the frame pushed last is log entry 31, that the write of an illegal range is discarded whole log entry 34,
and that RD, WR and LEN become 0 when a handle is written log entry 120: the model's choices. -/
def Obligations.ControlWindow : Prop :=
  ∀ (s : State) (x : Sec) (e : Fin 4096) (k : Fin 256) (v : BitVec 64),
    let c := s.sec x
    let en := s.export_ x e.val
    let im := s.import_ x k.val
    let frame := v.toNat / 2 ^ 21 % 2 ^ 31 * 2 ^ 21
    let push := fun (p : List Nat) => if p.length < 1024 then frame :: p else p
    let sets := fun (i : Instr) (c' : Sector) => ∃ t, exec i s = .next t ∧ t.sec x = c'
    let entry := fun (i : Instr) (e' : Export) => ∃ t, exec i s = .next t ∧ t.export_ x e.val = e' ∧
      ∀ f, f ≠ e.val → t.export_ x f = s.export_ x f
    let slot := fun (i : Instr) (i' : Import) => ∃ t, exec i s = .next t ∧ t.import_ x k.val = i' ∧
      ∀ f, f ≠ k.val → t.import_ x f = s.import_ x f
    sets (.npoolPush x v) { c with npool := push c.npool } ∧ sets (.npoolPop x) { c with npool := c.npool.tail } ∧
    sets (.fpoolPush x v) { c with fpool := push c.fpool } ∧ sets (.fpoolPop x) { c with fpool := c.fpool.tail } ∧
    (let legal := en.len % 65536 = 0 ∧ 65536 ≤ en.len ∧ en.len ≤ 2 ^ 40 ∧ en.base + en.len ≤ 2 ^ 56
     (en.valid = false → legal → entry (.exportOpen x e) { en with valid := true }) ∧
     (¬legal → exec (.exportOpen x e) s = .next s)) ∧
    (∀ bump, bump = true ∨ en.valid = true →
      entry (.exportRevoke x e bump) { en with valid := bump && en.valid, busy := true, gen := en.gen + 1 }) ∧
    (en.valid = false → exec (.exportRevoke x e false) s = .next s) ∧
    (en.busy = true → entry (.revocationDrained x e) { en with busy := false }) ∧
    (let h := v.toNat
     let bad := h / 2 ^ 34 ≠ 0 ∨ h / 2 ^ 28 % 16 ≠ 0 ∨ h / 2 ^ 32 % 4 = x.val
     (v = 0 → slot (.importHandleWrite x k v) ⟨0, false, false, false, false, 0⟩) ∧
     (v ≠ 0 → bad → slot (.importHandleWrite x k v) ⟨v, false, true, false, false, 0⟩) ∧
     (v ≠ 0 → ¬bad → slot (.importHandleWrite x k v) ⟨v, false, false, false, false, 0⟩ ∧
       ∃ t, exec (.importHandleWrite x k v) s = .next t ∧ .importQuery x k ∈ t.agenda)) ∧
    (im.handle ≠ 0 → im.valid = false → im.err = false →
     let home := handleSec im.handle.toNat
     let far := s.export_ home (handleIndex im.handle.toNat)
     let path := s.bridgeUp x home = true ∨ ∃ y, s.bridgeUp x y = true ∧ s.bridgeUp y home = true
     let answers := s.bridgeTakes home x = true ∧ path ∧ far.valid = true ∧ far.gen.toNat = im.handle.toNat % 65536
     ((s.sec home).power = .running → s.bridgeTakes home x = true) ∧
     ((s.sec home).power = .down ∨ (s.sec home).power = .ready → s.bridgeTakes home x = false) ∧
     (answers → slot (.importQuery x k) { im with valid := true, rd := far.rd, wr := far.wr, len := far.len }) ∧
     (¬answers → slot (.importQuery x k) { im with err := true })) ∧
    (let writes := fun (off : Nat) => exec (.controlWindowWrite x (BitVec.ofNat 24 off) v) s
     (∀ off : BitVec 24, off.toNat % 8 ≠ 0 ∨ 0x21018 ≤ off.toNat →
       exec (.controlWindowWrite x off v) s = .next s) ∧
     writes 0x21000 = exec (.npoolPush x v) s ∧ writes 0x21010 = exec (.fpoolPush x v) s ∧
     writes (0x20000 + 16 * k.val) = exec (.importHandleWrite x k v) s ∧
     writes (0x20000 + 16 * k.val + 8) = .next s ∧
     (en.valid = false →
      entry (.controlWindowWrite x (BitVec.ofNat 24 (32 * e.val)) v) { en with base := v.toNat / 2 ^ 16 % 2 ^ 40 * 2 ^ 16 } ∧
      entry (.controlWindowWrite x (BitVec.ofNat 24 (32 * e.val + 8)) v) { en with len := v.toNat % 2 ^ 41 }) ∧
     (en.valid = true → writes (32 * e.val) = .next s ∧ writes (32 * e.val + 8) = .next s ∧
       (v.getLsbD 31 = false → writes (32 * e.val + 16) = exec (.exportRevoke x e false) s) ∧
       (v.getLsbD 31 = true → v.getLsbD 29 = true → writes (32 * e.val + 16) = exec (.exportRevoke x e true) s)))

/-- R383, R407, R408, R410, R414, R417, R419: an error that a retry clears is counted; one that is corrected is counted
and reported; one that lasts marks its location, or takes the chiplet out of service. A flit that fails its CRC counts
at the sectors of its link, and one that fails again has the bridge or the chiplet fenced. An agent that meets a lasting
error raises MCE with the address of its access (R391); which access met it is what the event says (log entry 87). A
fence leaves nothing of the chiplet's contexts and scratchpads and tells the interrupt master; an admitted chiplet that
passes its test (log entry 17) has its master cores started at the entry address, with s1 = 0; while a release or reset
of the sector is under way both wait for their turn (R426). The model's choices: the requester, and the locations that
are reported (log entries 87 and 88), s1 (90), and a device that does not take a line's bytes (116). -/
def Obligations.ErrorsAndFences : Prop :=
  ∀ (s : State) (x : Sec) (ch : Fin 4),
    let inc := fun (n : Nat) => min (n + 1) (2 ^ 64 - 1)
    (∀ (site : EccSite), siteSector site = x →
      let counted := fun (r : EccRetry) (f : Telemetry → Telemetry) (P : State → Prop) =>
        ∃ t, exec (.eccEvent site r) s = .next t ∧ (t.sec x).telemetry = f (s.sec x).telemetry ∧ P t
      counted .clean (fun m => { m with soft := inc m.soft }) (fun t => t.mem = s.mem ∧ t.llc = s.llc) ∧
      counted .corrected (fun m => { m with correctable := inc m.correctable }) (fun t =>
        ∀ n, s.intMaster x = some n → s.quiet x n 0xB → t.pends x n 0xB (word (siteLocation site))) ∧
      counted (.uncorrectable .nobody) (fun m => { m with uncorrectable := inc m.uncorrectable }) (fun t => match site with
        | .dram _ pa => t.poisoned x pa = true ∧
          ∀ n, s.intMaster x = some n → s.quiet x n 0xB → t.pends x n 0xB (word pa)
        | .llc _ asid va => ∀ l, s.line (lineKey x (BitVec.ofNat 16 asid) va) = some l →
          t.line (lineKey x (BitVec.ofNat 16 asid) va) = if l.dirty then some { l with poison := true } else none
        | .scratchpad _ cl w => t.spadBad x cl (8 * w.val) 8 = true
        | .register _ ch => .chipletFence x ch ∈ t.agenda
        | .table _ => t.mem = s.mem ∧ t.llc = s.llc
        | .device _ pa => t.mem = s.mem ∧ pa / 128 ∈ (t.sec x).badDevice) ∧
      ∀ u n, exec (.eccEvent site (.uncorrectable .nobody)) s = .next u → u.canIssue (.master x n) = true →
        (u.hart (.master x n)).tx = none → ∀ ea : Word,
        ∃ t, exec (.eccEvent site (.uncorrectable (.agent (.master x n) ea))) s = .next t ∧
          (t.master x n).ecause = 0x13 ∧ (t.master x n).estat.extractLsb' 0 8 = 1 ∧ (t.master x n).eaddr = ea ∧
          (t.hart (.master x n)).pc = (u.master x n).evec) ∧
    (∀ (l : Link) again, again = none ∨ again = some .nobody → ∃ t, exec (.linkCrcError l again) s = .next t ∧
      (∀ y ∈ linkSectors l, (t.sec y).telemetry.retries = inc (s.sec y).telemetry.retries) ∧
      (∀ y, y ∉ linkSectors l → t.sec y = s.sec y)) ∧
    (∀ (b : Fin 6) req, linkSectors (.bridge b) = [(bridgeEnds b).1, (bridgeEnds b).2] ∧
      ∃ t, exec (.linkCrcError (.bridge b) (some req)) s = .next t ∧ .bridgeFence b ∈ t.agenda) ∧
    (∀ req, linkSectors (.chiplet x ch) = [x] ∧
      ∃ t, exec (.linkCrcError (.chiplet x ch) (some req)) s = .next t ∧ .chipletFence x ch ∈ t.agenda) ∧
    (∀ b : Fin 6, ∃ t, exec (.bridgeFence b) s = .next t ∧ t.bridges.get b = false ∧
      ∀ k, k ≠ b → t.bridges.get k = s.bridges.get k) ∧
    (s.isFenced x ch = false → (s.sec x).power = .running →
      ∃ t, exec (.chipletFence x ch) s = .next t ∧ t.isFenced x ch = true ∧
        (∀ i : Fin 6144, chipletOf (clusterOf i.val) = ch →
          t.hart (.thread x i) = Hart.resetThread ∧ (t.ctx x i.val).holds = .released) ∧
        (∀ cl off, chipletOf cl = ch → off < 0x200000 →
          t.spadBytes x cl off 1 = [0] ∧ (off % 8 = 0 → t.spadFull x cl off = true)) ∧
        ∀ n, t.intMaster x = some n → (t.master x n).chl ≠ none ∧ .interruptTaken x n ∈ t.agenda) ∧
    (s.isFenced x ch = true → (s.sec x).power = .running → exec (.chipletFence x ch) s = .next s) ∧
    (∀ entry : BitVec 64, (s.sec x).power ≠ .running → (s.sec x).power ≠ .down →
      let later := fun (t : State) (l : Later) => t.sec x = { s.sec x with later := (s.sec x).later ++ [l] }
      (∃ t, exec (.chipletFence x ch) s = .next t ∧ later t (.fence ch false)) ∧
      ∃ t, exec (.chipletAdmit x ch entry) s = .next t ∧ later t (.readmit ch entry)) ∧
    (∀ entry : BitVec 64, s.isFenced x ch = true → (s.sec x).power = .running →
      ∃ t, exec (.chipletAdmit x ch entry) s = .next t ∧ if Config.selfTest s.freeCtr then
          t.isFenced x ch = false ∧ ∀ n : Fin 16, n.val / 4 = ch.val →
            (t.hart (.master x n)).pc = entry ∧ (t.hart (.master x n)).s.get 0 = ⟨word n.val, true, false⟩ ∧
            (t.hart (.master x n)).s.get 1 = ⟨0, true, false⟩ ∧ t.master x n = Master.reset ∧ .master x n ∈ t.turns
        else t.isFenced x ch = true ∧ t.harts = s.harts)

/-- R363, R383 to R386, R397: what the loss of a chiplet does to the vts of an instance. Lost are those whose home or
running context lies on it, and those with a migration message to or from it or held in a cluster of it. With `re` and a
context left that is eligible, the lost numbers go behind what the replay list holds, in ascending order, and a drained
entry is READY again; without such a context the replay list goes to the unit-lost list, and without `re` the lost
numbers do: no further number is drawn, and the instance ends LOST. The unit-lost list of the status block counts its
numbers. What a lost vt had under way that has not been accepted is dropped, with its commands and job records; what the
chiplet's fence has accepted goes on. An instance whose owner is lost is aborted. -/
def Obligations.VtLoss : Prop :=
  ∀ (s : State) (x : Sec) (ch : Fin 4) (i : Inst), s.inst x i.uid = some i →
    let lost := s.lostVts x ch i
    let ns := lost.map (·.n)
    let on := fun (k : Nat) => chipletOf (clusterOf k) = ch
    let name := fun (n : Nat) => (⟨i.uid, n⟩ : VtName)
    (∀ v, v ∈ lost ↔ v ∈ i.vts ∧ (on v.home ∨ (∃ k, v.running = some k ∧ on k) ∨
      ∃ (f : Flight) (m : Migration), f.body = .migrate m ∧ m.vt = name v.n ∧ f.sec = x ∧
        (chipletOf f.cl = ch ∨ chipletOf (Fin.ofNat 96 m.from_) = ch) ∧
        (f ∈ s.flight ∨ f ∈ (s.sec x).refused ∨
          (chipletOf f.cl = ch ∧ (f ∈ s.inboxes x ∨ ∃ r ∈ (s.sec x).stored, r.flight = f))))) ∧
    ns.Pairwise (· ≤ ·) ∧
    (let t := s.loseVts x ch i lost
     let left := ∃ k, k < 6144 ∧ s.isFenced x (chipletOf (clusterOf k)) = false ∧ i.eligible k = true
     (∃ i', t.inst x i.uid = some i' ∧ i'.vts = i.vts.filter (fun v => !ns.contains v.n) ∧
       (i.rcd.re = true → left → i'.replay = i.replay ++ ns ∧ i'.lost = i.lost ∧
         i'.phase = if i.phase = .drained then .ready else i.phase) ∧
       (i.rcd.re = true → ¬left → i'.replay = [] ∧ i'.lost = true ∧ i'.phase = .drained) ∧
       (i.rcd.re = false → i'.replay = i.replay ∧ i'.lost = true ∧ i'.phase = .drained)) ∧
     (∀ n ∈ ns,
       let whose := fun (a : Actor) => secOf a.agent = x ∧ a.vt = some (name n)
       (∀ f ∈ t.flight, f.sec = x → whose f.actor → chipletOfAgent f.actor.agent = ch) ∧
       (∀ b ∈ t.bankq, whose b.actor → chipletOfAgent b.actor.agent = ch) ∧
       (∀ (cl : Fin 96) (co : Fin 8), (∀ c ∈ (t.cluster x cl).mx.get co, ¬whose c.actor) ∧
         ∀ c ∈ (t.cluster x cl).cp.get co, ¬whose c.actor) ∧
       (∀ cl, ∀ c ∈ (t.cluster x cl).cpRunning, ¬whose c.actor) ∧ (∀ a ∈ (t.sec x).asyncs, ¬whose a.actor) ∧
       ∀ e ∈ (t.sec x).jobs, ∀ j, e.2 = some j → j.vt ≠ some (name n))) ∧
    (∀ (l : Line) (ms : List Nat), let va := i.rcd.save + 0xA80000
      va % 128 = 0 → va + 128 ≤ 2 ^ 56 → s.tlbHit x i.asid va ≠ none → s.line (lineKey x i.asid va) = some l →
      l.data.length = 128 → l.poison = false →
      let m := leNat (slice l.data 24 8)
      m + ms.length ≤ 8 →
      ((s.listLost x i ms).areaRead x i.asid va 128).1 =
        splice (splice l.data (0x40 + 8 * m) (ms.flatMap (leBytes 8))) 24 (leBytes 8 (m + ms.length))) ∧
    ∀ k ∈ (s.sec x).insts, ∀ n ∈ ns, k.owner = .vt (name n) → k.final = none → k.phase ≠ .waitIdx →
      ∃ k', (s.abortOwned x i.uid ns).inst x k.uid = some k' ∧ k'.aborted = true ∧ k'.phase = .drained ∧
        k'.vts = [] ∧ k'.replay = []

/-! ## Steps of the machine: resets, Horizon, ports -/

/-- R415, R416, R420, R421, R426, R437: at power-on every sector is reset and is held or ready afterwards, without an
instance, and is held when Horizon's own image is missing; release makes a ready sector run, and a request that Horizon
received meanwhile has its turn. An orderly reset stops the agents and, once what the sector has accepted is complete,
asks the three neighbours to be quiet, which put their import slots out of force, or whose time runs out when they reset
themselves; a forced one, a thermal trip and a rail fault complete what has been accepted too, wait for no neighbour and
leave no line. A reset closes every export entry of the sector with the next generation, and empties its import slots;
power-on sets the generations to 0. The clock moves by steps of 100 MHz within its limits. What the specification leaves
open is the model's choice: memory that nothing has written (log entry 4), the clock at reset (32), what survives a
reset (93), and the slots of Horizon's images (94). -/
def Obligations.Resets : Prop :=
  ∀ (s : State) (x : Sec),
    let c := s.sec x
    let held := fun (t : State) => (t.sec x).insts = [] ∧ ((t.sec x).power = .down ∨ (t.sec x).power = .ready) ∧
      (∀ k, k < 256 → t.import_ x k = ⟨0, false, false, false, false, 0⟩) ∧ ∀ e, e < 4096 → (t.export_ x e).valid = false
    let nextGen := fun (t : State) => ∀ e, e < 4096 → (t.export_ x e).gen = (s.export_ x e).gen + 1
    let noLines := fun (t : State) =>
      ∀ (asid : BitVec 16) (va : Nat), va < 2 ^ 56 → t.line (lineKey x asid va) = none
    let asked := fun (t : State) => ∀ y, y ≠ x → .quiesceRequest x y ∈ t.agenda
    let stopped := fun (t : State) (forced : Bool) => (t.sec x).power = .settling forced ∧
      (if forced then .sectorResetForced x else .sectorResetOrderly x) ∈ t.agenda ∧
      ∀ i ∈ (t.sec x).insts, i.aborted = true ∨ i.final ≠ none ∨ i.phase = .waitIdx
    let later := fun (t : State) (l : Later) => t.sec x = { c with later := c.later ++ [l] }
    (∃ t, exec .modulePowerOn s = .next t ∧ held t ∧ noLines t ∧ (∀ e, (t.export_ x e).gen = 0) ∧
      (∀ ch, t.isFenced x ch = false) ∧
      (∀ b, t.bridges.get b = true) ∧ (s.imageOf 1 = none → (t.sec x).power = .down ∧
        ∀ pa, pa < 2 ^ 52 → t.memByte x pa = 0) ∧
      ∀ i, s.imageOf 1 = some i → s.verifies i.bytes = true → t.hz.running = i.version) ∧
    (c.power = .ready → c.later = [] → ∃ t, exec (.sectorRelease x) s = .next t ∧
      t.sec x = { c with power := .running }) ∧
    (∀ ch, c.power = .ready → c.later = [.fence ch true] → ∃ t, exec (.sectorRelease x) s = .next t ∧
      t.isFenced x ch = true ∧ (t.sec x).power = .running ∧ (t.sec x).later = []) ∧
    (c.power ≠ .ready → exec (.sectorRelease x) s = .next s) ∧
    (c.power = .running ∨ c.power = .down → ∃ t, exec (.sectorResetOrderly x) s = .next t ∧ stopped t false) ∧
    (c.power = .settling false →
      (s.workLeft x = true → exec (.sectorResetOrderly x) s = .next (s.post (.sectorResetOrderly x))) ∧
      (s.workLeft x = false → ∃ t ws, exec (.sectorResetOrderly x) s = .next t ∧
        t.sec x = { c with power := .resetting ws } ∧ (∀ y, y ∈ ws ↔ y ≠ x) ∧ asked t)) ∧
    (∀ ws, c.power = .ready ∨ c.power = .resetting ws →
      ∃ t, exec (.sectorResetOrderly x) s = .next t ∧ later t (.reset false c.scrub)) ∧
    (let all := fun (P : State → Prop) =>
        ∃ t, exec (.sectorResetForced x) s = .next t ∧ exec (.thermalTrip x) s = .next t ∧
          exec (.railFault [x]) s = .next t ∧ P t;
      (c.power = .running ∨ c.power = .down ∨ c.power = .ready ∨ c.power = .settling false →
        all fun t => stopped t true) ∧
      (∀ ws, c.power = .resetting ws → all fun t => held t ∧ nextGen t ∧ noLines t)) ∧
    (c.power = .settling true →
      (s.workLeft x = true → exec (.sectorResetForced x) s = .next (s.post (.sectorResetForced x))) ∧
      (s.workLeft x = false → ∃ t, exec (.sectorResetForced x) s = .next t ∧ held t ∧ nextGen t ∧ noLines t ∧ asked t) ∧
      exec (.thermalTrip x) s = .next s ∧ exec (.railFault [x]) s = .next s) ∧
    (∀ n, n ≠ x →
      ((s.sec n).power = .running ∨ (∃ f, (s.sec n).power = .settling f) →
        ∃ t, exec (.quiesceRequest x n) s = .next t ∧ .quiesceDone x n ∈ t.agenda ∧
        ∀ k, k < 256 → s.importsFrom n x k = true →
          (t.import_ n k).valid = false ∧ (t.import_ n k).err = true ∧
          (t.import_ n k).handle = (s.import_ n k).handle) ∧
      ((s.sec n).power = .down ∨ (s.sec n).power = .ready ∨ (∃ ws, (s.sec n).power = .resetting ws) →
        exec (.quiesceRequest x n) s = .next (s.post (.quiesceTimeout x n))) ∧
      exec (.quiesceTimeout x n) s = exec (.quiesceDone x n) s ∧
      (∀ ws, c.power = .resetting ws →
        (∀ m ∈ ws, m ≠ n → ∃ t, exec (.quiesceDone x n) s = .next t ∧
          t.sec x = { c with power := .resetting (ws.filter fun m => m ≠ n) }) ∧
        ((∀ m ∈ ws, m = n) → ∃ t, exec (.quiesceDone x n) s = .next t ∧ held t ∧ nextGen t ∧ noLines t))) ∧
    (∀ up, ∃ t, exec (.clockStep x up) s = .next t ∧
      t.sec x = { c with clock := if up then min 2700 (c.clock + 100) else max 1600 (c.clock - 100) }) ∧
    (∀ forced scrub,
      (c.power ≠ .down → exec (.mgmtBootReset x false forced scrub) s = .next (s.post (.sectorRelease x))) ∧
      (c.power = .down → ∃ t, exec (.mgmtBootReset x false forced scrub) s = .next t ∧
        ((t.sec x).power = .ready → .sectorRelease x ∈ t.agenda)) ∧
      (c.power = .running ∨ c.power = .down → ∃ t, exec (.mgmtBootReset x true forced scrub) s = .next t ∧
        stopped t forced ∧ (t.sec x).scrub = scrub) ∧
      (c.power ≠ .running → c.power ≠ .down → ∃ t, exec (.mgmtBootReset x true forced scrub) s = .next t ∧
        later t (.reset forced scrub)))

/-- R37, R423 to R425, R430, R432, R435: Horizon takes the mailbox command that it is sent and answers with its
status: operator policy, a free value (log entry 22), may refuse it; an argument outside its range is BADARG, and a
word that is no command BADCMD. Carried out, each command has the effect that the list of commands gives it. The
answer is posted when the sector does not hold the lock: the body in the mailbox page, the word in DATA, DBI set and
IRQ HXM sent. The model's choices: whether a chiplet passes its test (log entry 17), that a lock request that was not
granted stands, and is granted as Horizon unlocks (78), that an answer waits for the lock and not for DBI (82), and the
statuses that the list of commands does not give (91). -/
def Obligations.Mailbox : Prop :=
  ∀ (s : State) (x : Sec),
    let c := s.sec x
    let cmd := c.hxSent.toNat
    let arg := cmd % 2 ^ 16
    let ch : Fin 4 := Fin.ofNat 4 arg
    let answer := fun (t : State) (st : Nat) (body : List (Nat × List Byte)) =>
      (t.sec x).hxResps = c.hxResps ++ [⟨BitVec.ofNat 32 (cmd / 2 ^ 16 % 2 ^ 16 * 2 ^ 16 + st * 2 ^ 8), body⟩] ∧
        (t.sec x).hxDbo = false ∧ .horizonResponse x ∈ t.agenda
    let page := fun (off n : Nat) => leNat (s.readPhys x (0x40000 + off) n)
    (c.hxDbo = true → c.power = .running → ∀ e : Instr,
      [(1, Instr.hxQuote x), (2, .hxReadlog x), (3, .hxTelem x), (4, .hxFence x), (5, .hxAdmit x), (6, .hxSreset x),
        (7, .hxNetcfg x), (8, .hxPciecfg x), (9, .hxPcap x)].lookup (cmd / 2 ^ 24) = some e →
      (∃ t, exec e s = .next t ∧ if Config.policyDenies s.freeCtr then answer t 2 [] else
        match cmd / 2 ^ 24 with
        | 1 => if arg = 0 then answer t 0 [(0x100, s.quote x (s.readPhys x 0x40000 64))] else answer t 4 []
        | 2 =>
          let es := (c.mlog.drop arg).take 960
          answer t 0 [(0x80, leBytes 8 es.length), (0x100, es.flatten)]
        | 3 => if arg = 0 then
            answer t 0 [(0x100, ({ s with freeCtr := s.freeCtr + 1 }.telemetryRecord x).1)] else answer t 4 []
        | 4 => if 4 ≤ arg then answer t 4 [] else if s.lastChiplet x ch then answer t 2 [] else
            answer t 0 [] ∧ t.isFenced x ch = true
        | 5 => if 4 ≤ arg then answer t 4 [] else if s.isFenced x ch = false then answer t 0 []
          else if Config.selfTest (s.freeCtr + 1) then answer t 0 [] ∧ t.isFenced x ch = false ∧
            ∀ n : Fin 16, n.val / 4 = ch.val → (t.hart (.master x n)).pc = word (page 0 8)
          else answer t 2 [] ∧ t.isFenced x ch = true
        | 6 => if cmd / 2 % 128 ≠ 0 then answer t 4 [] else
            (t.sec x).power = .settling false ∧ (t.sec x).scrub = (arg % 2 == 1) ∧
              (t.sec x).bootSlot = arg / 256 ∧ (t.sec x).hxResps = c.hxResps
        | 7 => if arg = 0 then answer t 0 [] ∧ (t.sec x).netBase = some (page 0 8) else answer t 4 []
        | 8 => if arg = 0 then answer t 0 [] ∧ (t.sec x).pcieRing = page 0 8 ∧
            (t.sec x).pcieAsid = BitVec.ofNat 16 (page 8 8) ∧ (t.sec x).pcieMsg = page 16 8 else answer t 4 []
        | _ => answer t 0 [] ∧ (t.sec x).cap = arg)) ∧
    (c.power = .running → c.hxDbo = true → cmd / 2 ^ 24 = 0 ∨ 9 < cmd / 2 ^ 24 → c.hxLock = true →
      ∃ t, exec (.horizonResponse x) s = .next t ∧ answer t 1 []) ∧
    (∀ r rest, c.power = .running → c.hxDbo = false → c.hxResps = r :: rest →
      (c.hxLock = true → exec (.horizonResponse x) s = .next s) ∧
      (c.hxLock = false → ∃ t, exec (.horizonResponse x) s = .next t ∧ (t.sec x).hxIn = r.word ∧ (t.sec x).hxDbi = true ∧
        (t.sec x).hxResps = rest ∧ (t.sec x).hxLock = c.hxWant ∧
        (∀ n, s.intMaster x = some n → s.quiet x n 0xC → t.pends x n 0xC 0) ∧
        ∀ off bs, r.body = [(off, bs)] → t.readPhys x (0x40000 + off) bs.length = bs)) ∧
    (c.power = .running → c.hxDbo = false → c.hxResps = [] → ∃ t, exec (.horizonResponse x) s = .next t ∧
      t.sec x = { c with hxHorizon := false, hxLock := c.hxLock || c.hxWant, hxWant := false })

/-- R422, R425, R427, R430: the management port: the power of the rails and the telemetry of the four sectors, 256
bytes each; an image is staged, verified and, only when it has been verified, committed, which advances its kind's
rollback counter and never moves it back; a fence or an admission is what it is for Horizon, waits while a release or
reset of the sector is under way (R426), and the fence of a chiplet is answered OK; the cap of a sector; and a quote
with the log, which names the version of the firmware that Horizon runs. The model's choices: the nonce that a request
carries (log entry 95), a cap beyond 16 bits (97), and the layout of the rails' report (106). -/
def Obligations.ManagementPort : Prop :=
  ∀ (s : State) (x : Sec),
    (∃ t r a b c d, exec .mgmtTelemetry s = .next t ∧ t.hz.reports = [d, c, b, a, r] ++ s.hz.reports ∧
      r = s.railReport.1 ∧ r.length = 20 ∧
      a = ({ s with freeCtr := s.freeCtr + 5 }.telemetryRecord 0).1 ∧ a.length = 256 ∧ b.length = 256 ∧ c.length = 256 ∧
      d.length = 256) ∧
    (∀ k bs, ∃ t, exec (.mgmtFirmware (.stage k bs)) s = .next t ∧
      t.image k = some ⟨leNat (bs.take 1), leNat ((bs.drop 8).take 8), false, bs⟩) ∧
    (∀ k i, s.image k = some i →
      (∃ t, exec (.mgmtFirmware (.verify k)) s = .next t ∧ t.image k = some { i with verified := s.verifies i.bytes }) ∧
      (i.verified = true → ∃ t, exec (.mgmtFirmware (.commit k)) s = .next t ∧
        Sparse.get 0 t.hz.rollback i.kind = max (Sparse.get 0 s.hz.rollback i.kind) i.version ∧
        ∀ j, Sparse.get 0 s.hz.rollback j ≤ Sparse.get 0 t.hz.rollback j) ∧
      (i.verified = false → exec (.mgmtFirmware (.commit k)) s = .next s)) ∧
    ((s.sec x).power = .running ∨ (s.sec x).power = .down →
      ∀ ch u, exec (.chipletFence x ch) s = .next u → ∃ t, exec (.mgmtFence (.fence x ch)) s = .next t ∧
        t = { u with hz := { u.hz with reports := leBytes 8 0 :: u.hz.reports } } ∧ t.isFenced x ch = true) ∧
    ((s.sec x).power ≠ .running → (s.sec x).power ≠ .down → ∀ ch entry,
      let later := fun (t : State) (l : Later) => t.sec x = { s.sec x with later := (s.sec x).later ++ [l] }
      (∃ t, exec (.mgmtFence (.fence x ch)) s = .next t ∧ later t (.fence ch true) ∧ t.hz = s.hz) ∧
      ∃ t, exec (.mgmtFence (.readmit x ch entry)) s = .next t ∧ later t (.readmit ch entry)) ∧
    (∀ b, exec (.mgmtFence (.bridge b)) s = .next (s.post (.bridgeFence b))) ∧
    (∀ ch entry, exec (.mgmtFence (.readmit x ch entry)) s = exec (.chipletAdmit x ch entry) s) ∧
    (∀ cap, ∃ t, exec (.mgmtPower x cap) s = .next t ∧ t.sec x = { s.sec x with cap := cap.toNat % 65536 }) ∧
    (∀ nonce : BitVec 512, ∃ t, exec (.mgmtAttestation x nonce) s = .next t ∧
      t.hz.reports = [(s.sec x).mlog.flatten, s.quote x (leBytes 64 nonce.toNat)] ++ s.hz.reports ∧
      slice (s.quote x (leBytes 64 nonce.toNat)) 152 8 = leBytes 8 s.hz.running)

/-- R303, R433 to R435: what reaches memory through the network and the PCIe port: an RDMA WRITE or READ whose key and
range name a region is carried out and accepted, and any other, or one that fails at a page or line, is answered with
a remote-access NAK: a READ then moves nothing, and of a WRITE what lies in the lines before the failing one stands; a
SEND goes into the next free buffer with its completion entry, and
without a free one is answered with a receiver-not-ready NAK; descriptors that have been posted begin, and one that is
answered is done; an endpoint's access is answered by the port, and a write to the message address, or a message, is a
note to the master core that its low bits name. The model's choices: the descriptor ring's layout (log entry 24),
buffers and ports of the network (73), what is kept of the answers (96), and that an outside port tries again while a
set of the LLC is full of pinned lines (100). -/
def Obligations.Ports : Prop :=
  ∀ (s : State) (x : Sec), (s.sec x).power = .running →
    let c := s.sec x
    let answered := fun (u t : State) (a : NetReply) => t.mem = u.mem ∧ t.llc = u.llc ∧
      t.sec x = { u.sec x with netReplies := a :: (u.sec x).netReplies }
    (∀ r : RdmaIn,
      (s.region x r true = none → ∃ t, exec (.rdmaWriteIn x r) s = .next t ∧ answered s t .remoteAccess) ∧
      (s.region x r false = none → ∃ t, exec (.rdmaReadIn x r) s = .next t ∧ answered s t .remoteAccess) ∧
      (∀ asid e, s.region x r true = some asid →
        let p := s.portStore x asid r.va (r.data.take r.len)
        p.2 = some e → e ≠ .busy →
        (∃ t, exec (.rdmaWriteIn x r) s = .next t ∧ answered p.1 t .remoteAccess) ∧
        (r.va % 128 + r.len ≤ 128 → ∃ t, exec (.rdmaWriteIn x r) s = .next t ∧ answered s t .remoteAccess)) ∧
      (∀ asid, s.region x r true = some asid → (s.portStore x asid r.va (r.data.take r.len)).2 = some .busy →
        exec (.rdmaWriteIn x r) s = .next s) ∧
      (∀ asid, s.region x r false = some asid → s.portBytes x asid (chunks r.va r.len) = .error .busy →
        exec (.rdmaReadIn x r) s = .next s) ∧
      (∀ asid e, s.region x r false = some asid → s.portBytes x asid (chunks r.va r.len) = .error e → e ≠ .busy →
        ∃ t, exec (.rdmaReadIn x r) s = .next t ∧ answered s t .remoteAccess) ∧
      (∀ asid l, s.region x r true = some asid → r.data.length = r.len →
        s.homeLine x asid r.va r.len (portAcc .write) l →
        ∃ t, exec (.rdmaWriteIn x r) s = .next t ∧ t.lineHas x asid r.va l r.data ∧
          (t.sec x).netReplies.head? = some (.accepted [])) ∧
      (∀ asid l, s.region x r false = some asid → s.homeLine x asid r.va r.len (portAcc .read) l →
        ∃ t l', exec (.rdmaReadIn x r) s = .next t ∧ t.line (lineKey x asid r.va) = some l' ∧ l'.data = l.data ∧
          t.mem = s.mem ∧ t.harts = s.harts ∧
          (t.sec x).netReplies.head? = some (.accepted (slice l.data (r.va % 128) r.len))) ∧
      (s.rxQueue x r.queue = none → exec (.rdmaSendIn x r) s = .next s) ∧
      (∀ e l m, s.rxQueue x r.queue = some e →
        let n := Sparse.get 0 c.rxDone r.queue
        let buf := e.buffers + n % e.count * e.size
        let entry := e.ring + 32 * (n % e.entries)
        let bs := r.data.take e.size
        (min e.count e.entries ≤ n - Sparse.get 0 c.rxTaken r.queue →
          ∃ t, exec (.rdmaSendIn x r) s = .next t ∧ answered s t .notReady) ∧
        (n - Sparse.get 0 c.rxTaken r.queue < min e.count e.entries →
          lineKey x e.asid buf ≠ lineKey x e.asid entry → s.homeLine x e.asid buf bs.length (portAcc .write) l →
          s.homeLine x e.asid entry 32 (portAcc .write) m →
          ∃ t seq, exec (.rdmaSendIn x r) s = .next t ∧ Sparse.get 0 (t.sec x).rxDone r.queue = n + 1 ∧
            (t.sec x).netReplies.head? = some (.accepted []) ∧
            t.lineHas x e.asid buf l bs ∧ t.lineHas x e.asid entry m (leBytes 8 buf ++ leBytes 8 bs.length ++
              leBytes 8 (if e.size < r.data.length then 1 else 0) ++ leBytes 8 seq)))) ∧
    (c.pcieRing ≠ 0 → ∃ t, exec (.pcieDescriptorRing x) s = .next t ∧
      match s.readHome x c.pcieAsid (c.pcieRing + Config.pcieTail) 8 (portAcc .read) with
      | .error (.busy, _) => t = s.post (.pcieDescriptorRing x)
      | .error _ => t = s
      | .ok (bs, _) =>
        let k := min (leNat bs - c.pcieHead) Config.pcieSlots
        (t.sec x).pcieHead = c.pcieHead + k ∧
          (t.sec x).pcieOut = c.pcieOut ++ (List.range k).map fun i => c.pcieHead + i) ∧
    (∀ slot status data,
      (slot ∈ c.pcieOut →
        let a := pcieSlot c.pcieRing slot
        let u := s.modSec x fun c => { c with pcieOut := c.pcieOut.erase slot }
        let p := u.portStore x c.pcieAsid (a + Config.pcieData % 64) (data.take (64 - Config.pcieData % 64))
        let q := p.1.portStore x c.pcieAsid (a + Config.pcieStatus % 63) (leBytes 2 status.toNat)
        (p.2 ≠ some .busy → q.2 ≠ some .busy → ∃ t, exec (.pcieCompletion x slot status data) s = .next t ∧
          (t.sec x).pcieOut = c.pcieOut.erase slot) ∧
        (p.2 = some .busy ∨ q.2 = some .busy → exec (.pcieCompletion x slot status data) s = .next s)) ∧
      (slot ∉ c.pcieOut → exec (.pcieCompletion x slot status data) s = .next s)) ∧
    (∀ v : BitVec 64, s.quiet x (Fin.ofNat 16 v.toNat) 3 → ∃ t, exec (.pcieMessageWrite x v) s = .next t ∧
      t.pends x (Fin.ofNat 16 v.toNat) 3 (word (v.toNat / 2 ^ 8 % 2 ^ 24))) ∧
    (∀ r : PcieDma,
      let said := fun (t : State) (q : DmaReply) (bs : List Byte) =>
        (t.sec x).pcieReplies = (q, bs) :: c.pcieReplies
      (r.write = true → c.pcieMsg ≠ 0 → r.va = c.pcieMsg →
        let v := leNat (r.data.take 4)
        s.quiet x (Fin.ofNat 16 v) 3 → ∃ t, exec (.pcieDma x r) s = .next t ∧ said t .success [] ∧
          t.pends x (Fin.ofNat 16 v) 3 (word (v / 2 ^ 8 % 2 ^ 24))) ∧
      (r.write = false ∨ r.va ≠ c.pcieMsg →
        (2 ^ 56 < r.va + r.len → ∃ t, exec (.pcieDma x r) s = .next t ∧ said t .unsupported [] ∧ t.mem = s.mem ∧
          t.llc = s.llc) ∧
        (∀ l, r.va + r.len ≤ 2 ^ 56 → s.homeLine x c.pcieAsid r.va r.len
            (portAcc (if r.write then .write else .read)) l →
          (r.write = true → r.data.length = r.len → ∃ t, exec (.pcieDma x r) s = .next t ∧ said t .success [] ∧
            t.lineHas x c.pcieAsid r.va l r.data) ∧
          (r.write = false → ∃ t, exec (.pcieDma x r) s = .next t ∧
            said t .success (slice l.data (r.va % 128) r.len)))))

/-! ## The machine as a whole -/

/-- R7, R50, R66, R130, R325, R371, R373: the next step of an agent whose turn it is, once the roles of cores in mode Y
have settled. The word at its program counter that decodes is executed, in a state that differs only in that the agent
is the executing one, last in the round, and no longer parked, in what the fetch leaves in the caches, and, where an
operand is a deposited value read for the first time, in the acquire that this is; such a read waits, without parking,
while an earlier release is outstanding (log entry 99). A word that does not decode raises ILL, and a fetch that fails,
or a watchdog that has run out, raises its fault. A due step comes before every agent, and what the tape names before
both; the order of steps is the model's (log entry 1). -/
def Obligations.StepRunsDecoded : Prop :=
  ∀ (s : State),
    let r := s.grantRoles
    { r with clusters := s.clusters } = s ∧
    (∀ g, s.tape = [] → s.agenda = [] → s.turns.find? r.canIssue = some g →
      let t := r.begin_ g
      t.cur = g ∧ t.hart g = { s.hart g with park := none, sWait := false, wait := none } ∧
      (∀ g', g' ≠ g → t.hart g' = s.hart g') ∧
      t.mem = s.mem ∧ t.llc = s.llc ∧ t.sectors = s.sectors ∧ t.masters = s.masters ∧ t.copies = s.copies ∧
      (t.watchdogOut g = false →
       (∀ bs rest i u, decode bs = .ok (i, rest) →
        t.fetchWord g (s.hart g).pc.toNat = .ok (some (leNat (bs.take 4), u)) →
        let v := { u with curWord := BitVec.ofNat 32 (leNat (bs.take 4)) }
        (v.me.unread = [] → step s = exec i v) ∧ (∀ o, v.observe i = some o → step s = exec i o) ∧
        (v.observe i = none → v.releaseOpen v.cur = true ∧ step s = .next (v.waitMe .releases))) ∧
       (t.fetchWord g (s.hart g).pc.toNat = .ok none → step s = .next t) ∧
       (∀ w u e, t.fetchWord g (s.hart g).pc.toNat = .ok (some (w, u)) → decodeWord w = .error e →
        step s = .next ({ u with curWord := BitVec.ofNat 32 w }.raise ⟨0x01, 0, 0, 0, 0⟩)) ∧
       (∀ f, t.fetchWord g (s.hart g).pc.toNat = .error f → step s = .next ({ t with curWord := 0 }.raise f))) ∧
      (t.watchdogOut g = true →
        (∀ n u, t.fetchWord g (s.hart g).pc.toNat = .ok (some (n, u)) →
          step s = .next ({ u with curWord := BitVec.ofNat 32 n }.raise ⟨0x10, 1, 0, 0, 0⟩)) ∧
        ((∀ n u, t.fetchWord g (s.hart g).pc.toNat ≠ .ok (some (n, u))) →
          step s = .next ({ t with curWord := 0 }.raise ⟨0x10, 1, 0, 0, 0⟩)))) ∧
    (∀ d ds, s.tape = [] → s.agenda = d :: ds → step s = exec d.toInstr { r with agenda := ds }) ∧
    (∀ k d ts, s.tape = .due k :: ts → s.agenda[k]? = some d →
      step s = exec d.toInstr { r with tape := ts, agenda := s.agenda.eraseIdx k }) ∧
    (∀ i ts, s.tape = .event i :: ts → wordSpace i = .event → step s = exec i { r with tape := ts }) ∧
    (∀ g va l, va % 4 = 0 → va < 2 ^ 56 → s.leaseCheck g va 4 = .ok () →
      let k := lineKey (secOf g) (s.asidOf g) va
      (s.sec (secOf g)).wlog = [] →
      (s.ownCopy g k = none → s.line k = some l → l.perm.x = true → (s.sysLevel g = false → l.perm.u = true) →
        (l.perm.nc = true → isMaster g = true) → l.poison = false →
        s.fetchWord g va = .ok (some (leNat (slice l.data (va % 128) 4), (s.touch k).cached g k true))) ∧
      (∀ c, s.ownCopy g k = some c → c.perm.x = true → (s.sysLevel g = false → c.perm.u = true) →
        (c.perm.nc = true → isMaster g = true) →
        s.fetchWord g va = .ok (some (leNat (slice c.data (va % 128) 4), s.cached g k true))))

/-- Every instruction and every step of the table answers a next state, whatever the state. A step of the machine is
never a refusal, and stops only where nothing is due, no agent can issue, and the tape is at its end: the tape, the
due steps and this stop are the model's choice (log entry 1). -/
def Obligations.StepOutcomes : Prop :=
  (∀ (i : Instr) (s : State), ∃ t, exec i s = .next t) ∧
  (∀ (s : State), (∀ r, step s ≠ .refused r) ∧
    ∀ f, step s = .fault f ↔ f = .nothingDue ∧ s.tape = [] ∧ s.agenda = [] ∧ ∀ g ∈ s.turns, s.grantRoles.canIssue g = false)

/-- R12, R22, R23, R26, R35 to R38, R213, R339, R355, R356, R416: the machine right after reset. Every master core is at
sys level with IE 0 and ASID 0, s0 its number, s1 the base of the boot mapping and its other registers zero; every
context is released, every core in mode G, the scratchpads zero and full and the channels closed; caches, pools, records
and entries are empty. The entry address 0 is the model's choice (log entry 3), and so are a context's registers before
it has a vt (log entry 5). -/
def Obligations.ResetState : Prop :=
  let r := State.reset
  ∀ (x : Sec),
    (∀ n : Fin 16, let m := r.master x n; let h := r.hart (.master x n)
      m.sys = true ∧ m.ie = false ∧ m.asid = 0 ∧ m.evec = 0 ∧ m.epc = 0 ∧ m.ecause = 0 ∧ m.eaddr = 0 ∧ m.estat = 0 ∧
      m.escratch = 0 ∧ m.irqs = [] ∧ m.chl = none ∧ h.s.get 0 = ⟨word n.val, true, false⟩ ∧
      h.s.get 1 = ⟨0x00FF000000000000, true, false⟩ ∧ (∀ k : Fin 16, 2 ≤ k.val → h.s.get k = ⟨0, true, false⟩) ∧
      (∀ k : Fin 8, h.p.get k = false) ∧ (∀ k : Fin 16, (h.v.get k).body = 0 ∧ (h.v.get k).side = 0) ∧
      (∀ k : Fin 8, (h.m.get k).val = 0) ∧ (∀ k : Fin 4, (h.q.get k).val = 0) ∧ h.pc = 0 ∧ h.fmode = 0 ∧ h.fflags = 0 ∧
      h.srseed = 0 ∧ h.instret = 0 ∧ h.tx = none ∧ h.park = none ∧ .master x n ∈ r.turns) ∧
    (∀ i : Fin 6144, (r.ctx x i.val).holds = .released ∧ (r.ctx x i.val).homec = word (65536 * x.val + i.val) ∧
      (r.ctx x i.val).accBound = false ∧ (r.ctx x i.val).cirrus = none ∧ (r.ctx x i.val).digest = none) ∧
    (∀ cl : Fin 96, (∀ co, (r.coreSt x cl co).modeY = false) ∧ (∀ k, ((r.cluster x cl).channels.get k).isOpen = false) ∧
      (r.cluster x cl).weights = 0x11111111 ∧ (r.cluster x cl).migdup = 0 ∧
      ∀ off, off < 0x200000 → r.spadBytes x cl off 1 = [0] ∧ r.spadFull x cl off = true) ∧
    (∀ k, r.line k = none) ∧ (∀ asid, r.ptbr x asid = if asid = 0 then 1 else 0) ∧
    (let c := r.sec x
     c.power = .running ∧ c.tlb = [] ∧ c.insts = [] ∧ c.jobs = [] ∧ c.npool = [] ∧ c.fpool = [] ∧ c.mrs = 0 ∧
      c.dgSeq = 0 ∧ c.rce = true ∧ c.ovp = false ∧ c.spillq = 0 ∧ c.hxmbox = 0 ∧
      (∀ e, r.export_ x e = ⟨0, 0, 0, false, false, false, false, 0⟩) ∧
      ∀ k, r.import_ x k = ⟨0, false, false, false, false, 0⟩) ∧
    r.canonical = true

/-- R50 to R59: words written out from the encodings decode to the instructions that they stand for. -/
def Obligations.DecodeWords : Prop :=
  decodeWord 0x28246281 = .ok (.tres false 1 2 3 true) ∧ decodeWord 0x56000185 = .ok (.brk false 5) ∧
    decodeWord 0x2E000028 = .ok (.fence false .se .rel) ∧ decodeWord 0x2E000080 = .ok (.fpush false) ∧
    decodeWord 0x52EC0000 = .ok (.jwait false 7 6) ∧ decodeWord 0x4E070A00 = .ok (.wmset false 3 8) ∧
    decodeWord 0x4ED14400 = .ok (.fetch false 6 8 10) ∧ decodeWord 0x42846003 = .ok (.hsift false 4 2 3 3) ∧
    decodeWord 0x00224000 = .ok (.add false 1 1 2) ∧ decodeWord 0x80224000 = .ok (.add true 1 1 2)

/-- R50, R52, R58, R246: the bytes of a well-formed instruction decode to it, whatever follows them, with every operand
at every value that its encoding admits; and a word of a pattern program does. -/
def Obligations.RoundTrip : Prop :=
  ∀ (i : Instr), WellFormed i →
    (wordSpace i = .cpu → ∀ rest, decode (encodeBytes i ++ rest) = .ok (i, rest)) ∧
    (wordSpace i = .cirrus → encode i < 2 ^ 32 ∧ decodeCirrus (encode i) = .ok i)

/-- R66: no two words stand for one instruction: a word that decodes is the word of what it decodes to, so no bit of it
is ignored; and what it decodes to is well-formed. -/
def Obligations.WordsAreUnique : Prop :=
  ∀ (w : Nat) (i : Instr), w < 2 ^ 32 → decodeWord w = .ok i →
    encode i = w ∧ WellFormed i ∧ wordSpace i = .cpu

/-- Every step keeps physical memory, the scratchpads and their full bits in canonical form, so that equal memories are
equal data. -/
def Obligations.MemoryStaysCanonical : Prop :=
  ∀ (s t : State), s.canonical = true → step s = .next t → t.canonical = true

/-- R12, R31: an instruction that computes on registers alone, and completes, writes the registers that `writesOf` names
for it and no other, raises flags and advances the generator of stochastic rounding only where it names them, and
changes nothing else of the module: no other agent's register, no special register, no byte of any memory. -/
def Obligations.RegisterFrame : Prop :=
  ∀ (i : Instr) (w : Writes) (s t : State), writesOf i = some w → s.me.instret ≠ BitVec.allOnes 64 →
    exec i s = .next t → completed s t →
    onlyHart s.cur s t ∧ t.me.pc = s.me.pc + 4 ∧ (∀ r, r ∉ w.s → t.me.s.get r = s.me.s.get r) ∧
      (∀ k, k ∉ w.p → t.me.p.get k = s.me.p.get k) ∧ (∀ r, r ∉ w.v → t.me.v.get r = s.me.v.get r) ∧
      (∀ k, k ∉ w.m → t.me.m.get k = s.me.m.get k) ∧ t.me.q = s.me.q ∧ t.me.fmode = s.me.fmode ∧
      (w.flags = false → t.me.fflags = s.me.fflags) ∧ (w.seed = false → t.me.srseed = s.me.srseed) ∧
      t.me.hpri = s.me.hpri ∧ t.me.jobCtr = s.me.jobCtr

/-- R22, R126, R148, R309: what a store leaves unchanged. One to the own scratchpad changes no byte outside the bytes
that it stores at the offset of its effective address, or, where a full/empty form that is parked on the word completes
by it, outside that word; and one to a held line no other line and no other byte of that line; both leave physical
memory, every general, vector, mask and predicate register and the flags as they were, and a load leaves all memory. -/
def Obligations.MemoryFrame : Prop :=
  ∀ (s : State) (sm : Bool) (d a : Fin 16) (z : Size) (u : Bool) (o : MOrd) (f : BitVec 12) (base v : Word),
    s.rdS a = .ok base →
    let ea := s.memEa base z f
    let n := sizeBytes z
    let x := secOf s.cur
    let regs := fun (t : State) => t.me.s = s.me.s ∧ t.me.p = s.me.p ∧ t.me.v = s.me.v ∧ t.me.m = s.me.m ∧
      t.me.q = s.me.q ∧ t.me.fmode = s.me.fmode ∧ t.me.fflags = s.me.fflags ∧ t.me.srseed = s.me.srseed
    let spad := fun (t : State) (y : Sec) (c : Fin 96) (k : Nat) => t.spadBytes y c k 1 = s.spadBytes y c k 1
    (s.rdS d = .ok v → s.released (o != .rlx) = .ok () →
      (∀ cl off, s.ownSpad ea n cl off → ∃ t, exec (.st sm d a z o f) s = .next t ∧ t.mem = s.mem ∧ t.llc = s.llc ∧
        (∀ y c k, k < 0x200000 → (y ≠ x ∨ c ≠ cl ∨ k / 8 ≠ off / 8) → spad t y c k) ∧
        (s.feCount (spadWord x cl off) = 0 → regs t ∧ t.spadBytes x cl off n = leBytes n v.toNat ∧
          ∀ y c k, k < 0x200000 → (y ≠ x ∨ c ≠ cl ∨ k < off ∨ off + n ≤ k) → spad t y c k)) ∧
      (∀ l, s.heldLine ea n .write true l → l.data.length = 128 → ∃ t l', exec (.st sm d a z o f) s = .next t ∧ regs t ∧
        t.mem = s.mem ∧ t.spad = s.spad ∧ (∀ k, k ≠ s.myLine ea → t.line k = s.line k) ∧
        t.line (s.myLine ea) = some l' ∧ slice l'.data (ea.toNat % 128) n = leBytes n v.toNat ∧
        ∀ j, (j < ea.toNat % 128 ∨ ea.toNat % 128 + n ≤ j) → slice l'.data j 1 = slice l.data j 1)) ∧
    ((∃ cl off, s.ownSpad ea n cl off) ∨ (∃ l, s.heldLine ea n .read (o != .ro) l) →
      ∃ t, exec (.ld sm d a z u o f) s = .next t ∧ t.mem = s.mem ∧ t.spad = s.spad ∧ t.spadEmpty = s.spadEmpty ∧
        (∀ k, (t.line k).map (·.data) = (s.line k).map (·.data)) ∧ (∀ r, r ≠ d → t.me.s.get r = s.me.s.get r) ∧
        t.me.p = s.me.p ∧ t.me.v = s.me.v ∧ t.me.m = s.me.m ∧ t.me.q = s.me.q ∧ t.me.fflags = s.me.fflags ∧
        ∀ g, g ≠ s.cur → t.hart g = s.hart g)

/-- R7, R25, R38: nothing that a thread context executes changes a master core's privilege level, address space, handler
address, trap registers or interrupt enable, a translation root, a measurement register, or the fence of a chiplet. -/
def Obligations.ContextsArePowerless : Prop :=
  ∀ (i : Instr) (s t : State) (x : Sec) (c : Fin 6144), s.cur = .thread x c → wordSpace i = .cpu → exec i s = .next t →
    (∀ y n, let m := s.master y n; let m' := t.master y n
      m'.sys = m.sys ∧ m'.ie = m.ie ∧ m'.asid = m.asid ∧ m'.evec = m.evec ∧ m'.epc = m.epc ∧ m'.ecause = m.ecause ∧
      m'.eaddr = m.eaddr ∧ m'.estat = m.estat ∧ m'.escratch = m.escratch) ∧
    ∀ y, (t.sec y).roots = (s.sec y).roots ∧ (t.sec y).mrb = (s.sec y).mrb ∧ (t.sec y).mrs = (s.sec y).mrs ∧
      (t.sec y).fenced = (s.sec y).fenced ∧ (t.sec y).rce = (s.sec y).rce
end

