-- ==== Sys2Proof/Tests/Slice0.lean ====
section
/-! SUPPORT. Small tests of the author: refused terms, words written out from the encodings, single steps with results
worked out by hand from the rules, and for each statement a state and operands that meet its hypotheses. -/

namespace Sys2Proof.Tests
open Sys2Proof.Machine
set_option Elab.async false

/-! ## Small states -/

/-- The master core 0 of sector 0 after reset, with a change of its registers. -/
def onMaster (f : Hart → Hart) : State := State.reset.modMe f

/-- Thread context `i` of sector 0, with a change of its registers. -/
def onThread (i : Fin 6144) (f : Hart → Hart) : State := ({ State.reset with cur := .thread 0 i }).modMe f

/-- Registers with one s register set. -/
def withS (r : Fin 16) (v : Word) (h : Hart) : Hart := { h with s := h.s.set r.val ⟨v, true, false⟩ r.isLt }

/-- Registers with one s register empty. -/
def emptyS (r : Fin 16) (claimed : Bool) (h : Hart) : Hart := { h with s := h.s.set r.val ⟨0, false, claimed⟩ r.isLt }

/-- Registers whose v registers all have a tag and whose masks are all ones. -/
def withV (t : Tag) (b : VBody) (h : Hart) : Hart :=
  { h with v := Vector.replicate 16 ⟨t, b, 0⟩, m := Vector.replicate 8 ⟨BitVec.allOnes 64, false⟩ }

/-- The alias of the own scratchpad (R46). -/
def aliasBase : Word := 0xFF40000000000000

/-- A line of application space, full of one byte, with every permission. -/
def openLine (b : Byte) : Line :=
  { data := List.replicate 128 b, dirty := false, cls := .normal, age := 0, perm := ⟨true, true, true, true, false⟩
    poison := false }

/-- A spawn record. -/
def aRecord : SpawnRec :=
  { addr := 0x400, entry := 0x1000, count := 2, first := 0, clusters := 1, perCore := 8, mask := 255, prio := 0, domain := 0
    chk := false, re := false, nest := true, save := 0x10000000 }

/-- An instance with one vt, which runs in context 0, and a lease of 64 KiB. -/
def anInst : Inst :=
  { uid := 7, idx := some 0, handle := 0x400, rcd := aRecord, asid := 5, owner := .master 0, top := 0, parent := none
    leases := [(0x10000, 0x10000)], probe := none, z := Vector.replicate 16 0, regs := Vector.replicate 12 0, fmode := 0
    srseed := 0, chk := false, phase := .drained, leasePage := 0, draw := 1, replay := [], vts := [⟨0, 0, some 0⟩]
    aborted := false, lost := false, final := none, readySeq := 0, bypass := 0, probeHit := false, broadcast := true
    codeSeq := 0, ovfl := false, heapUsed := false }

/-- A state with the instance in sector 0 and its vt in context 0. -/
def withInst (f : Inst → Inst) (s : State) : State :=
  (s.modSec 0 fun c => { c with insts := [f anInst] }).modCtx 0 0 fun c => { c with holds := .running ⟨7, 0⟩ }

/-- The vt of the instance. -/
def onVt (f : Hart → Hart) : State := withInst id (onThread 0 f)

/-- A result, from its value. -/
theorem ok {ε α : Type} {e : Except ε α} {a : α} (h : e.toOption = some a) : e = .ok a := by
  cases e with
  | error _ => cases h
  | ok b => cases h; rfl

theorem okEx {ε α : Type} {e : Except ε α} (h : e.toOption.isSome = true) : ∃ a, e = .ok a := by
  cases e with
  | error _ => cases h
  | ok b => exact ⟨b, rfl⟩

/-- A failure, from its reason. -/
theorem err {ε α : Type} {e : Except ε α} {f : ε} (h : (match e with | .error g => some g | .ok _ => none) = some f) :
    e = .error f := by
  cases e with
  | error _ => cases h; rfl
  | ok b => cases h

/-- The executing agent's transaction of a nesting depth. -/
def aTx (n : Nat) : Tx :=
  { depth := n, regs := Vector.replicate 16 ⟨0, true, false⟩, preds := Vector.replicate 8 false, dest := 2, resume := 4
    reads := [], writes := [], buf := [], vs := [3], ms := [], qs := [], unread := [] }

/-- A message in flight to cluster `cl` of sector 0. -/
def aFlight (id : Nat) (cl : Fin 96) (b : Parcel) : Flight :=
  ⟨id, 0, cl, { agent := .thread 0 0, asid := 0, vt := none, home := 0, sys := false, job := 0, seq := 0, epoch := 0, after := 0 }, b, false, none, none⟩

/-- A release of the executing agent that has not been accepted. -/
def openRelease (s : State) : State :=
  let f := aFlight 9 1 (.push 0 [1])
  { s with flight := [{ f with rel := true, actor := { f.actor with agent := s.cur, vt := s.vtOf s.cur } }] }

/-- An option that holds something. -/
theorem someEx {α : Type} {o : Option α} (h : o.isSome = true) : ∃ a, o = some a := by
  cases o with
  | none => cases h
  | some a => exact ⟨a, rfl⟩

/-- Accesses of lanes to the own scratchpad that nothing stops. -/
theorem ownAll {s : State} {ls : List Lane} {cl : Fin 96} {at_ : Lane → Nat}
    (h : ∀ l ∈ ls, (placeOf s.cur l.ea.toNat l.n).toOption = some (.spad cl (at_ l)) ∧ l.ea.toNat % l.n = 0 ∧
      clusterOfAgent s.cur = some cl ∧ s.belowMark (secOf s.cur) cl (at_ l) l.n = false ∧
      s.spadBad (secOf s.cur) cl (at_ l) l.n = false ∧
      (s.inOpen (secOf s.cur) cl (at_ l) l.n && s.releaseOpen s.cur) = false) :
    ∀ l ∈ ls, s.ownSpad l.ea l.n cl (at_ l) :=
  fun l hl => ⟨ok (h l hl).1, (h l hl).2⟩

/-- The same for the units of a packed form. -/
theorem ownEach {s : State} {n w : Nat} {ea : Nat → Word} {cl : Fin 96} {at_ : Nat → Nat}
    (h : ∀ k, k < n → (placeOf s.cur (ea k).toNat w).toOption = some (.spad cl (at_ k)) ∧ (ea k).toNat % w = 0 ∧
      clusterOfAgent s.cur = some cl ∧ s.belowMark (secOf s.cur) cl (at_ k) w = false ∧
      s.spadBad (secOf s.cur) cl (at_ k) w = false ∧
      (s.inOpen (secOf s.cur) cl (at_ k) w && s.releaseOpen s.cur) = false) :
    ∀ k, k < n → s.ownSpad (ea k) w cl (at_ k) :=
  fun k hk => ⟨ok (h k hk).1, (h k hk).2⟩

/-- A property of a result, from its evaluation. -/
theorem okP {ε α : Type} {e : Except ε α} {P : α → Prop} (p : α → Bool) (hp : ∀ a, p a = true → P a)
    (h : (match e with | .ok a => p a | .error _ => false) = true) : ∃ a, e = .ok a ∧ P a := by
  cases e with
  | error _ => cases h
  | ok a => exact ⟨a, rfl, hp a h⟩

/-- An outcome that is a next state with a property, from its evaluation. -/
theorem nextP {o : Host.Outcome State Fault Refusal} {P : State → Prop} (p : State → Bool) (hp : ∀ t, p t = true → P t)
    (h : (match o with | .next t => p t | _ => false) = true) : ∃ t, o = .next t ∧ P t := by
  cases o with
  | next t => exact ⟨t, rfl, hp t h⟩
  | fault _ => cases h
  | refused _ => cases h

/-- Memory for translation: the boot mapping's tables, in which address 0 of ASID 0 is a page. -/
def mapped (f : Hart → Hart) : State := (onMaster f).bootTables 0 0 0

/-! ## Words written out from the encodings (R50 to R67, R111 to R304)

Each word has the fixed bits and the fields where the opcode table has them, every field with a value of its own. -/

theorem test_words_1 :
    decodeWord 0x00C74000 = .ok (.add false 6 3 10) ∧
    decodeWord 0x80C74080 = .ok (.sub true 6 3 10) ∧
    decodeWord 0x00C74100 = .ok (.addw false 6 3 10) ∧
    decodeWord 0x80C74180 = .ok (.subw true 6 3 10) ∧
    decodeWord 0x00C74200 = .ok (.and false 6 3 10) ∧
    decodeWord 0x80C74280 = .ok (.or true 6 3 10) ∧
    decodeWord 0x00C74300 = .ok (.xor false 6 3 10) ∧
    decodeWord 0x80C74380 = .ok (.andn true 6 3 10) ∧
    decodeWord 0x00C74400 = .ok (.shl false 6 3 10) ∧
    decodeWord 0x80C74480 = .ok (.shr true 6 3 10) ∧
    decodeWord 0x00C74500 = .ok (.sar false 6 3 10) ∧
    decodeWord 0x80C74580 = .ok (.min true 6 3 10) ∧
    decodeWord 0x00C74600 = .ok (.max false 6 3 10) ∧
    decodeWord 0x80C74680 = .ok (.minu true 6 3 10) ∧
    decodeWord 0x00C74700 = .ok (.maxu false 6 3 10) ∧
    decodeWord 0x80C60780 = .ok (.abs true 6 3) ∧
    decodeWord 0x00C60800 = .ok (.neg false 6 3) ∧
    decodeWord 0x80C60880 = .ok (.mov true 6 3) ∧
    decodeWord 0x00C74900 = .ok (.sh1add false 6 3 10) ∧
    decodeWord 0x80C74980 = .ok (.sh2add true 6 3 10) ∧
    decodeWord 0x00C74A00 = .ok (.sh3add false 6 3 10) ∧
    decodeWord 0x82C7B5A5 = .ok (.addi true 6 3 0x1b5a5) ∧
    decodeWord 0x04C7B5A5 = .ok (.andi false 6 3 0x1b5a5) ∧
    decodeWord 0x86C7B5A5 = .ok (.ori true 6 3 0x1b5a5) := by
  and_intros <;> rfl

theorem test_words_2 :
    decodeWord 0x08C7B5A5 = .ok (.xori false 6 3 0x1b5a5) ∧
    decodeWord 0x8CC1B5A5 = .ok (.ldi true 6 0x1b5a5) ∧
    decodeWord 0x0AC60025 = .ok (.shli false 6 3 0x25) ∧
    decodeWord 0x8AC600A5 = .ok (.shri true 6 3 0x25) ∧
    decodeWord 0x0AC60125 = .ok (.sari false 6 3 0x25) ∧
    decodeWord 0x8F8D75A5 = .ok (.cmpi true 6 .ne 10 0x75a5) ∧
    decodeWord 0x10C74000 = .ok (.mul false 6 3 10) ∧
    decodeWord 0x90C74080 = .ok (.mulh true 6 3 10) ∧
    decodeWord 0x10C74100 = .ok (.mulhu false 6 3 10) ∧
    decodeWord 0x90C74180 = .ok (.mulw true 6 3 10) ∧
    decodeWord 0x10C74200 = .ok (.div false 6 3 10) ∧
    decodeWord 0x90C74280 = .ok (.divu true 6 3 10) ∧
    decodeWord 0x10C74300 = .ok (.rem false 6 3 10) ∧
    decodeWord 0x90C74380 = .ok (.remu true 6 3 10) ∧
    decodeWord 0x12C60000 = .ok (.clz false 6 3) ∧
    decodeWord 0x92C60080 = .ok (.ctz true 6 3) ∧
    decodeWord 0x12C60100 = .ok (.popc false 6 3) ∧
    decodeWord 0x92C60180 = .ok (.bswap true 6 3) ∧
    decodeWord 0x12C74200 = .ok (.bfx false 6 3 10) ∧
    decodeWord 0x92C74280 = .ok (.bfxu true 6 3 10) ∧
    decodeWord 0x12C74300 = .ok (.bfi false 6 3 10) ∧
    decodeWord 0x94C74001 = .ok (.cmp true 6 3 10 .ne) ∧
    decodeWord 0x14C74081 = .ok (.test false 6 3 10 true) ∧
    decodeWord 0x96C74004 = .ok (.sel true 6 3 10 4) := by
  and_intros <;> rfl

theorem test_words_3 :
    decodeWord 0x16C64080 = .ok (.pand false 6 3 2) ∧
    decodeWord 0x96C64100 = .ok (.por true 6 3 2) ∧
    decodeWord 0x16C64180 = .ok (.pxor false 6 3 2) ∧
    decodeWord 0x96C60200 = .ok (.pnot true 6 3) ∧
    decodeWord 0x16C00280 = .ok (.pget false 6) ∧
    decodeWord 0x960C0300 = .ok (.pset true 6) ∧
    decodeWord 0x18C6DDA5 = .ok (.ld false 6 3 .h true .sector 0xda5) ∧
    decodeWord 0x9AC69DA5 = .ok (.st true 6 3 .h .sector 0xda5) ∧
    decodeWord 0x1CC7401B = .ok (.aadd false 6 3 10 .ch .rel true) ∧
    decodeWord 0x9CC7409B = .ok (.aand true 6 3 10 .ch .rel true) ∧
    decodeWord 0x1CC7411B = .ok (.aor false 6 3 10 .ch .rel true) ∧
    decodeWord 0x9CC7419B = .ok (.axor true 6 3 10 .ch .rel true) ∧
    decodeWord 0x1CC7421B = .ok (.amin false 6 3 10 .ch .rel true) ∧
    decodeWord 0x9CC7429B = .ok (.amax true 6 3 10 .ch .rel true) ∧
    decodeWord 0x1CC7431B = .ok (.aminu false 6 3 10 .ch .rel true) ∧
    decodeWord 0x9CC7439B = .ok (.amaxu true 6 3 10 .ch .rel true) ∧
    decodeWord 0x1CC7441B = .ok (.aswp false 6 3 10 .ch .rel true) ∧
    decodeWord 0x9CC7449B = .ok (.acas true 6 3 10 .ch .rel true) ∧
    decodeWord 0x1CC7451B = .ok (.aincb false 6 3 10 .ch .rel true) ∧
    decodeWord 0x9CC7459A = .ok (.afadd true 6 3 10 .ch .rel) ∧
    decodeWord 0x1CC7461A = .ok (.afmax false 6 3 10 .ch .rel) ∧
    decodeWord 0x9EC60000 = .ok (.ldfe true 6 3) ∧
    decodeWord 0x1EC60080 = .ok (.ldff false 6 3) ∧
    decodeWord 0x9EC60100 = .ok (.stfe true 6 3) := by
  and_intros <;> rfl

theorem test_words_4 :
    decodeWord 0x1EC60180 = .ok (.stef false 6 3) ∧
    decodeWord 0x9E0C6200 = .ok (.fen true 6 3) ∧
    decodeWord 0x1EC60280 = .ok (.fstat false 6 3) ∧
    decodeWord 0x9EC00300 = .ok (.remp true 6) ∧
    decodeWord 0x201AB5A5 = .ok (.bp false 6 0x2b5a5) ∧
    decodeWord 0xA05AB5A5 = .ok (.bnp true 6 0x2b5a5) ∧
    decodeWord 0x209AB5A5 = .ok (.bz false 6 0x2b5a5) ∧
    decodeWord 0xA0DAB5A5 = .ok (.bnz true 6 0x2b5a5) ∧
    decodeWord 0x211AB5A5 = .ok (.dbnz false 6 0x2b5a5) ∧
    decodeWord 0xA3A6B5A5 = .ok (.j true 0x1a6b5a5) ∧
    decodeWord 0x25A6B5A5 = .ok (.jal false 0x1a6b5a5) ∧
    decodeWord 0xA60C0000 = .ok (.jr true 6) ∧
    decodeWord 0x260C0080 = .ok (.jalr false 6) ∧
    decodeWord 0xA8C60000 = .ok (.spawn true 6 3) ∧
    decodeWord 0x28C60080 = .ok (.spawnn false 6 3) ∧
    decodeWord 0xA8C60100 = .ok (.join true 6 3) ∧
    decodeWord 0x28C60180 = .ok (.jtest false 6 3) ∧
    decodeWord 0xA80C0200 = .ok (.spabort true 6) ∧
    decodeWord 0x28C74281 = .ok (.tres false 6 3 10 true) ∧
    decodeWord 0xAAC74008 = .ok (.psm true 6 3 10 .rel) ∧
    decodeWord 0x2AC740C8 = .ok (.psmb false 6 3 10 4 .rel) ∧
    decodeWord 0xAA0C6108 = .ok (.zset true 6 3 .rel) ∧
    decodeWord 0x2AC06188 = .ok (.zget false 6 3 .rel) ∧
    decodeWord 0xAC000000 = .ok (.done true) := by
  and_intros <;> rfl

theorem test_words_5 :
    decodeWord 0x2C000080 = .ok (.yield false) ∧
    decodeWord 0xAC0C0100 = .ok (.go true 6) ∧
    decodeWord 0x2C0C0180 = .ok (.goh false 6) ∧
    decodeWord 0xAC000200 = .ok (.gohome true) ∧
    decodeWord 0x2C0C6280 = .ok (.sleep false 6 3) ∧
    decodeWord 0xAE000018 = .ok (.fence true .ch .rel) ∧
    decodeWord 0x2E000080 = .ok (.fpush false) ∧
    decodeWord 0xAE000100 = .ok (.fwait true) ∧
    decodeWord 0x30C00000 = .ok (.xbeg false 6) ∧
    decodeWord 0xB0000080 = .ok (.xcom true) ∧
    decodeWord 0x300C0100 = .ok (.xabt false 6) ∧
    decodeWord 0xB2C75001 = .ok (.vadd true 6 3 10 4 true) ∧
    decodeWord 0x32C75011 = .ok (.vsub false 6 3 10 4 true) ∧
    decodeWord 0xB2C75021 = .ok (.vmul true 6 3 10 4 true) ∧
    decodeWord 0x32C75031 = .ok (.vmulh false 6 3 10 4 true) ∧
    decodeWord 0xB2C75041 = .ok (.vmin true 6 3 10 4 true) ∧
    decodeWord 0x32C75051 = .ok (.vmax false 6 3 10 4 true) ∧
    decodeWord 0xB2C60860 = .ok (.vabs true 6 3 2) ∧
    decodeWord 0x32C60870 = .ok (.vneg false 6 3 2) ∧
    decodeWord 0xB2C75081 = .ok (.vaddsat true 6 3 10 4 true) ∧
    decodeWord 0x32C75091 = .ok (.vsubsat false 6 3 10 4 true) ∧
    decodeWord 0xB2C608A0 = .ok (.vsqrt true 6 3 2) ∧
    decodeWord 0x32C608B0 = .ok (.vrcp false 6 3 2) ∧
    decodeWord 0xB2C608C0 = .ok (.vrsq true 6 3 2) := by
  and_intros <;> rfl

theorem test_words_6 :
    decodeWord 0x32C608D0 = .ok (.vexp2 false 6 3 2) ∧
    decodeWord 0xB4C75001 = .ok (.vand true 6 3 10 4 true) ∧
    decodeWord 0x34C75011 = .ok (.vor false 6 3 10 4 true) ∧
    decodeWord 0xB4C75021 = .ok (.vxor true 6 3 10 4 true) ∧
    decodeWord 0x34C75031 = .ok (.vandn false 6 3 10 4 true) ∧
    decodeWord 0xB4C75041 = .ok (.vshl true 6 3 10 4 true) ∧
    decodeWord 0x34C75051 = .ok (.vshr false 6 3 10 4 true) ∧
    decodeWord 0xB4C75061 = .ok (.vsar true 6 3 10 4 true) ∧
    decodeWord 0x34C60870 = .ok (.vclz false 6 3 2) ∧
    decodeWord 0xB4C60880 = .ok (.vpopc true 6 3 2) ∧
    decodeWord 0x36C75000 = .ok (.vfma false 6 3 10 4) ∧
    decodeWord 0xB6C75010 = .ok (.vfms true 6 3 10 4) ∧
    decodeWord 0x36C75020 = .ok (.vfnma false 6 3 10 4) ∧
    decodeWord 0xB6C75030 = .ok (.vfnms true 6 3 10 4) ∧
    decodeWord 0x36C75040 = .ok (.vdot2 false 6 3 10 4) ∧
    decodeWord 0xB6C75050 = .ok (.vdot4 true 6 3 10 4) ∧
    decodeWord 0x38C75009 = .ok (.vcmp false 6 3 10 4 true .ne) ∧
    decodeWord 0xB8C60811 = .ok (.vclass true 6 3 2 .negInf) ∧
    decodeWord 0x38C75020 = .ok (.vsel false 6 3 10 4) ∧
    decodeWord 0xB8C64030 = .ok (.mand true 6 3 2) ∧
    decodeWord 0x38C64040 = .ok (.mor false 6 3 2) ∧
    decodeWord 0xB8C60050 = .ok (.mnot true 6 3) ∧
    decodeWord 0x38C60060 = .ok (.mcount false 6 3) ∧
    decodeWord 0xB8C60070 = .ok (.mfirst true 6 3) := by
  and_intros <;> rfl

theorem test_words_7 :
    decodeWord 0x3AC60807 = .ok (.vbcast false 6 3 2 .f32) ∧
    decodeWord 0xBAC74010 = .ok (.vins true 6 3 10) ∧
    decodeWord 0x3AC74020 = .ok (.vext false 6 3 10) ∧
    decodeWord 0xBAC75030 = .ok (.vperm true 6 3 10 4) ∧
    decodeWord 0x3AC60840 = .ok (.vcompress false 6 3 2) ∧
    decodeWord 0xBAC60850 = .ok (.vexpand true 6 3 2) ∧
    decodeWord 0x3AC60860 = .ok (.vredadd false 6 3 2) ∧
    decodeWord 0xBAC60870 = .ok (.vredmax true 6 3 2) ∧
    decodeWord 0x3AC60880 = .ok (.vredmin false 6 3 2) ∧
    decodeWord 0xBAC60891 = .ok (.vscan true 6 3 2 true) ∧
    decodeWord 0x3CC65007 = .ok (.vcvt false 6 3 2 4 .f32) ∧
    decodeWord 0xBCC6401D = .ok (.vquant true 6 3 2 true) ∧
    decodeWord 0x3CC65027 = .ok (.vdequant false 6 3 2 4 .f32) ∧
    decodeWord 0xBCC60037 = .ok (.vtag true 6 3 .f32) ∧
    decodeWord 0x3CC00C40 = .ok (.vseed false 6 3) ∧
    decodeWord 0xBEC683E5 = .ok (.vld true 6 3 2 .f32 0x65) ∧
    decodeWord 0x3EC68BE5 = .ok (.vst false 6 3 2 .f32 0x65) ∧
    decodeWord 0xBEC693E5 = .ok (.vldbc true 6 3 2 .f32 0x65) ∧
    decodeWord 0x3EC69BE5 = .ok (.vlds false 6 3 2 .f32 0x65) ∧
    decodeWord 0xBEC6A3E5 = .ok (.vsts true 6 3 2 .f32 0x65) ∧
    decodeWord 0x40C75007 = .ok (.vgat false 6 3 10 4 .f32) ∧
    decodeWord 0xC0C75010 = .ok (.vsct true 6 3 10 4) ∧
    decodeWord 0x40C75020 = .ok (.vsctadd false 6 3 10 4) ∧
    decodeWord 0xC2C74007 = .ok (.hsift true 6 3 10 7) := by
  and_intros <;> rfl

theorem test_words_8 :
    decodeWord 0x42C74014 = .ok (.tstep false 6 3 10 4) ∧
    decodeWord 0xC2C60021 = .ok (.dgi true 6 3 true) ∧
    decodeWord 0x420C0033 = .ok (.dga false 6 3) ∧
    decodeWord 0xC2C00041 = .ok (.dgo true 6 true) ∧
    decodeWord 0x420C6050 = .ok (.dglog false 6 3) ∧
    decodeWord 0xC40C0001 = .ok (.mxcfg true 6 true) ∧
    decodeWord 0x44C00201 = .ok (.mxzero false 6 true) ∧
    decodeWord 0xC4000400 = .ok (.mxrel true) ∧
    decodeWord 0x44C60601 = .ok (.mxsave false 6 3 true) ∧
    decodeWord 0xC4C60801 = .ok (.mxrest true 6 3 true) ∧
    decodeWord 0x46C74004 = .ok (.mxmm false 6 3 10 0 true false false) ∧
    decodeWord 0xC6C74204 = .ok (.mxmmg true 6 3 10 0 true false false) ∧
    decodeWord 0x46C74404 = .ok (.mxmms false 6 3 10 0 true false false) ∧
    decodeWord 0xC6C74604 = .ok (.mxmmgs true 6 3 10 0 true false false) ∧
    decodeWord 0x48C601A4 = .ok (.mxst false 6 3 0xd 0 true false) ∧
    decodeWord 0xC8C603A4 = .ok (.mxstq true 6 3 0xd 0 true false) ∧
    decodeWord 0x48C60414 = .ok (.mxscale false 6 3 2 true false) ∧
    decodeWord 0xCA460000 = .ok (.qset true 2 3) ∧
    decodeWord 0x4A460200 = .ok (.qclr false 2 3) ∧
    decodeWord 0xCA460400 = .ok (.qld true 2 3) ∧
    decodeWord 0x4A460600 = .ok (.qst false 2 3) ∧
    decodeWord 0xCAC74800 = .ok (.qtest true 6 3 10) ∧
    decodeWord 0x4CC14001 = .ok (.pgld false 6 0 10 true) ∧ decodeWord 0x4CC74000 = .ok (.pgld false 6 3 10 false) ∧
    decodeWord 0xCC0C6200 = .ok (.pgset true 6 3) := by
  and_intros <;> rfl

theorem test_words_9 :
    decodeWord 0x4CC74400 = .ok (.pgrun false 6 3 10) ∧
    decodeWord 0xCC000600 = .ok (.pgrel true) ∧
    decodeWord 0x4CC60800 = .ok (.pginv false 6 3) := by
  and_intros <;> rfl

theorem test_words_10 :
    decodeCirrus 0x01180000 = .ok (.csetReg 1 (.c 3)) ∧
    decodeCirrus 0x0105B5A5 = .ok (.csetImm 1 0x1b5a5) ∧
    decodeCirrus 0x091B1000 = .ok (.caddReg 1 (.c 3) true .par1) ∧
    decodeCirrus 0x091FB5A5 = .ok (.caddImm 1 (.c 3) true 0x1b5a5) ∧
    decodeCirrus 0x11191000 = .ok (.cmulReg 1 (.c 3) .par1) ∧
    decodeCirrus 0x111DB5A5 = .ok (.cmulImm 1 (.c 3) 0x1b5a5) ∧
    decodeCirrus 0x19191000 = .ok (.cdivReg 1 (.c 3) .par1) ∧
    decodeCirrus 0x191DB5A5 = .ok (.cdivImm 1 (.c 3) 0x1b5a5) ∧
    decodeCirrus 0x21191000 = .ok (.cmodReg 1 (.c 3) .par1) ∧
    decodeCirrus 0x211DB5A5 = .ok (.cmodImm 1 (.c 3) 0x1b5a5) ∧
    decodeCirrus 0x29191000 = .ok (.chashReg 1 (.c 3) .par1) ∧
    decodeCirrus 0x291DB5A5 = .ok (.chashImm 1 (.c 3) 0x1b5a5) ∧
    decodeCirrus 0x311C75A5 = .ok (.cbr .ne (.c 3) .par1 0x35a5) ∧
    decodeCirrus 0x391835A5 = .ok (.cloop 1 (.c 3) 0x35a5) ∧
    decodeCirrus 0x41191000 = .ok (.cnextReg 1 (.c 3) .par1) ∧
    decodeCirrus 0x411DB5A5 = .ok (.cnextImm 1 (.c 3) 0x1b5a5) ∧
    decodeCirrus 0x49180000 = .ok (.cemitReg 1 (.c 3)) ∧
    decodeCirrus 0x4905B5A5 = .ok (.cemitImm 1 0x1b5a5) ∧
    decodeCirrus 0x51191000 = .ok (.crunReg 1 (.c 3) .par1) ∧
    decodeCirrus 0x511DB5A5 = .ok (.crunImm 1 (.c 3) 0x1b5a5) ∧
    decodeCirrus 0x59191000 = .ok (.ckronReg 1 (.c 3) .par1) ∧
    decodeCirrus 0x591DB5A5 = .ok (.ckronImm 1 (.c 3) 0x1b5a5) ∧
    decodeCirrus 0x60000000 = .ok .cinv ∧
    decodeCirrus 0x68000000 = .ok .cstop := by
  and_intros <;> rfl

theorem test_words_11 :
    decodeWord 0xCEC74001 = .ok (.send true 6 3 10 true) ∧
    decodeWord 0x4EC74201 = .ok (.sendm false 6 3 10 true) ∧
    decodeWord 0xCEC74400 = .ok (.fetch true 6 3 10) ∧
    decodeWord 0x4EC74601 = .ok (.flush false 6 3 10 true) ∧
    decodeWord 0xCEC74801 = .ok (.sendg true 6 3 10 true) ∧
    decodeWord 0x4E0C6A00 = .ok (.wmset false 6 3) ∧
    decodeWord 0xCEC60C00 = .ok (.wmget true 6 3) ∧
    decodeWord 0x50C74165 = .ok (.xgat false 6 3 10 true 0x65) ∧
    decodeWord 0xD0C74365 = .ok (.xsct true 6 3 10 true 0x65) ∧
    decodeWord 0x50C74565 = .ok (.xsctadd false 6 3 10 true false 0x65) ∧
    decodeWord 0xD2C60000 = .ok (.jwait true 6 3) ∧
    decodeWord 0x52C60200 = .ok (.jpoll false 6 3) ∧
    decodeWord 0xD8C60000 = .ok (.lease true 6 3) ∧
    decodeWord 0x58C60200 = .ok (.unlease false 6 3) ∧
    decodeWord 0xD80C0400 = .ok (.pf true 6) ∧
    decodeWord 0x58C60600 = .ok (.llcwb false 6 3) ∧
    decodeWord 0xD8C60801 = .ok (.pmig true 6 3 true) ∧
    decodeWord 0x5AC60000 = .ok (.nsend false 6 3) ∧
    decodeWord 0xDAC60200 = .ok (.npoll true 6 3) ∧
    decodeWord 0x54C00DA5 = .ok (.mfs false 6 0xda5) ∧
    decodeWord 0xD40C1DA5 = .ok (.mts true 6 0xda5) ∧
    decodeWord 0x56000065 = .ok (.trap false 0x65) ∧
    decodeWord 0xD6000080 = .ok (.eret true) ∧
    decodeWord 0x56000100 = .ok (.wfi false) := by
  and_intros <;> rfl

theorem test_words_12 :
    decodeWord 0xD60001E5 = .ok (.brk true 0x65) ∧
    decodeWord 0x560C6200 = .ok (.tlbi false 6 3) ∧
    decodeWord 0xD60C0201 = .ok (.tlbiAll true 6) ∧
    decodeWord 0x56000280 = .ok (.tlbsync false) ∧
    decodeWord 0xD6C60300 = .ok (.seal true 6 3) ∧
    decodeWord 0x560C6380 = .ok (.ipi false 6 3) ∧
    decodeWord 0xDCC74000 = .ok (.dadd true 6 3 10) ∧
    decodeWord 0x5CC74080 = .ok (.dsub false 6 3 10) ∧
    decodeWord 0xDCC74100 = .ok (.dmul true 6 3 10) ∧
    decodeWord 0x5CC74180 = .ok (.ddiv false 6 3 10) ∧
    decodeWord 0xDCC74200 = .ok (.dfma true 6 3 10) ∧
    decodeWord 0x5CC60280 = .ok (.dsqrt false 6 3) ∧
    decodeWord 0xDCC74301 = .ok (.dcmp true 6 3 10 .ne) ∧
    decodeWord 0x5CC60381 = .ok (.dcvt false 6 3 .i64f64) ∧
    decodeWord 0xDCC74404 = .ok (.vdfma true 6 3 10 4) ∧
    decodeWord 0x5EC74000 = .ok (.fadd false 6 3 10) ∧
    decodeWord 0xDEC74080 = .ok (.fsub true 6 3 10) ∧
    decodeWord 0x5EC74100 = .ok (.fmul false 6 3 10) ∧
    decodeWord 0xDEC74180 = .ok (.fdiv true 6 3 10) ∧
    decodeWord 0x5EC74200 = .ok (.ffma false 6 3 10) ∧
    decodeWord 0xDEC74280 = .ok (.fmin true 6 3 10) ∧
    decodeWord 0x5EC74300 = .ok (.fmax false 6 3 10) ∧
    decodeWord 0xDEC60380 = .ok (.fabs true 6 3) ∧
    decodeWord 0x5EC60400 = .ok (.fneg false 6 3) := by
  and_intros <;> rfl

theorem test_words_13 :
    decodeWord 0xDEC60480 = .ok (.fsqrt true 6 3) ∧
    decodeWord 0x5EC74501 = .ok (.fcmp false 6 3 10 .ne) ∧
    decodeWord 0xDEC60581 = .ok (.fcvt true 6 3 .f32i64) ∧
    decodeWord 0x7E16B5A5 = .ok (.himm 0x16b5a5) ∧
    decodeWord 0x7E3375A5 = .ok (.hloc 9 2 0x75a5) ∧
    decodeWord 0x7E4EB5A5 = .ok (.hbr 1 0x6b5a5) ∧
    decodeWord 0x7E7AD696 = .ok (.hpri 0x6b5a5 2) ∧
    decodeWord 0x7FF5B5A5 = .ok (.hmu 0x15 0xb5a5) ∧
    decodeWord 0x7F36B5A5 = .ok (.hintReserved 9 0x16b5a5) := by
  and_intros <;> rfl

/-! ## Refused terms: one for each check -/

theorem test_refused_by_check :
    check (.st false 1 2 .d .ro 0) = some .stOrder ∧ check (.acas false 1 2 15 .se .rlx false) = some .pair ∧
    check (.fence false .se .rlx) = some .fenceOrder ∧ check (.vbcast false 1 2 0 .b8) = some .tag ∧
    check (.vcvt false 1 2 0 0 .raw) = some .tag ∧ check (.vdequant false 1 2 0 0 .i8) = some .tag ∧
    check (.vld false 1 2 0 .inv 0) = some .tag ∧ check (.vld false 1 2 1 .b8 0) = some .packed ∧
    check (.vldbc false 1 2 0 .e2m1x 0) = some .packed ∧ check (.hsift false 1 2 3 0) = some .heapSize ∧
    check (.hsift false 1 2 3 9) = some .heapSize ∧ check (.hintReserved 3 0) = some .hintKind ∧
    check (.cnextReg 7 (.c 0) (.c 0)) = some .counter ∧ check (.mxmm false 0 15 2 0 false false false) = some .pair ∧
    check (.pgrun false 1 2 15) = some .pair ∧ check (.tlbi false 15 2) = some .pair := by decide

theorem test_admitted_at_the_bounds :
    check (.vld false 1 2 0 .b8 0) = none ∧ check (.hsift false 1 2 3 8) = none ∧ check (.hsift false 1 2 3 1) = none ∧
    check (.acas false 1 2 14 .se .rlx false) = none ∧ check (.cnextReg 6 (.c 0) (.c 0)) = none := by decide

/-- Reserved words: OP 0x30, a SUB beyond its list, a reserved field, an H word with S, format code 14, `fence.rlx`,
and `pgld.re` with a register A (R259). -/
theorem test_refused_words :
    decodeWord 0x60000000 = .error .opcode ∧ decodeWord 0x00001F80 = .error .sub ∧ decodeWord 0x00000001 = .error .res0 ∧
    decodeWord 0xFE000000 = .error .hintSync ∧ decodeWord 0x3C00000E = .error .code ∧ decodeWord 0x2E000020 = .error .fenceOrder ∧
    decodeWord 0x4CC74001 = .error .res0 ∧ decodeCirrus 0x70000000 = .error .opcode ∧ decode [0x00, 0x40, 0x22] = .error .short := by
  and_intros <;> rfl

/-! ## Single steps, against the specification's worked examples and results worked out from its rules -/

/-- The value of an s register after an instruction, when it answers a next state. -/
def sAfter (i : Instr) (r : Fin 16) (s : State) : Option Word :=
  match exec i s with
  | .next t => if t.me.park = none then some (t.me.s[r]).val else none
  | _ => none

/-- The predicate register after an instruction. -/
def pAfter (i : Instr) (r : Fin 8) (s : State) : Option Bool :=
  match exec i s with
  | .next t => if t.me.park = none then some (t.me.p[r]) else none
  | _ => none

/-- The cause code, EPC and EADDR of a master core's trap. -/
def trapOf (i : Instr) (s : State) : Option (Nat × Word × Word) :=
  match exec i s with
  | .next t => some ((t.master 0 0).ecause.toNat % 256, (t.master 0 0).epc, (t.master 0 0).eaddr)
  | _ => none

/-- s1 and s2 of the master core. -/
def two (x y : Word) : State := onMaster fun h => withS 2 y (withS 1 x h)

/-- R118's example: −7 divided by 2. -/
theorem test_div : sAfter (.div false 3 1 2) 3 (two (-7) 2) = some (-3) ∧ sAfter (.rem false 3 1 2) 3 (two (-7) 2) = some (-1) ∧
    sAfter (.divu false 3 1 2) 3 (two (-7) 2) = some 0x7FFFFFFFFFFFFFFC ∧ sAfter (.remu false 3 1 2) 3 (two (-7) 2) = some 1 := by
  decide +kernel

/-- R118: division by zero does not fault. -/
theorem test_div_by_zero : sAfter (.div false 3 1 2) 3 (two 5 0) = some (-1) ∧ sAfter (.remu false 3 1 2) 3 (two 5 0) = some 5 ∧
    sAfter (.div false 3 1 2) 3 (two 0x8000000000000000 (-1)) = some 0x8000000000000000 := by decide +kernel

theorem test_add_wraps : sAfter (.add false 3 1 2) 3 (two (-1) 2) = some 1 ∧
    sAfter (.addw false 3 1 2) 3 (two 0x7FFFFFFF 1) = some 0xFFFFFFFF80000000 := by decide +kernel

theorem test_mulh_is_signed : sAfter (.mulh false 3 1 2) 3 (two (-1) 2) = some (-1) ∧
    sAfter (.mulhu false 3 1 2) 3 (two (-1) 2) = some 1 := by decide +kernel

theorem test_source_is_destination : sAfter (.sub false 1 2 1) 1 (two 5 7) = some 2 := by decide +kernel

theorem test_addi_signed : sAfter (.addi false 3 1 0x1FFFF) 3 (two 5 7) = some 4 := by decide +kernel

/-- R131: 1.0 + 2.0 in FP32; the difference of equal numbers is +0. -/
theorem test_fadd : sAfter (.fadd false 3 1 2) 3 (two 0x3F800000 0x40000000) = some 0x40400000 ∧
    sAfter (.fsub false 3 1 2) 3 (two 0x3F800000 0x3F800000) = some 0 := by decide +kernel

/-- FP64: 1.0 / 2.0 = 0.5, and the root of 4.0. -/
theorem test_ddiv : sAfter (.ddiv false 3 1 2) 3 (two 0x3FF0000000000000 0x4000000000000000) = some 0x3FE0000000000000 ∧
    sAfter (.dsqrt false 3 1) 3 (two 0x4010000000000000 0) = some 0x4000000000000000 := by decide +kernel

theorem test_cmp_unsigned : pAfter (.cmp false 3 1 2 .ltu) 3 (two (-1) 2) = some false ∧
    pAfter (.cmp false 3 1 2 .lt) 3 (two (-1) 2) = some true := by decide +kernel

/-- R298, R388: `brk` on a master core traps with cause BRK; EPC is the address of the instruction. -/
theorem test_brk : trapOf (.brk false 5) (onMaster fun h => { h with pc := 0x400 }) = some (0x11, 0x400, 0) := by decide +kernel

/-- R125: a misaligned load raises ALN with its address. -/
theorem test_misaligned : trapOf (.ld false 3 1 .d false .rlx 0) (two 0x1001 0) = some (5, 0, 0x1001) := by decide +kernel

/-- R128: `jal` leaves the return address in s15 and adds four times the offset to the pc. -/
theorem test_jal : (match exec (.jal false 0x1FFFFFF) (onMaster fun h => { h with pc := 0x400 }) with
    | .next t => some (t.me.pc, (t.me.s[(15 : Fin 16)]).val) | _ => none) = some (0x3FC, 0x404) := by decide +kernel

/-- Example 2 of R160: `psmb` with limit 8 in the order A, B, C, from z1 = 5. -/
theorem test_psmb : zApply (.addBounded 3 8 2) 5 = (8, true) ∧ zApply (.addBounded 1 8 2) 8 = (8, false) ∧
    zApply (.addBounded 1 8 2) 5 = (6, true) ∧ zApply (.addBounded 2 8 2) 6 = (8, true) ∧
    zApply (.addBounded 3 8 2) 8 = (8, false) := by decide

/-- Example 1 of R99: 2.9, −13.0, 0.6, 5.0 and 1.2 in FP32, quantised to E2M1X. -/
theorem test_quantise : quantise .e2m1x false
      (([0x4039999A, 0xC1500000, 0x3F19999A, 0x40A00000, 0x3F99999A] ++ List.replicate 27 0).map fp32.decode)
      (List.replicate 33 rneRnd) =
    ⟨[1, 8, 0, 2, 1] ++ List.replicate 27 0, 0x81, 0xC5, 1⟩ := by decide +kernel

/-- Example 2 of R104: 32 products of 256 by 256 under scales 2^−75 make the subnormal 2^−129. -/
theorem test_group_sum : addGroup (0, 0) (groupSum (List.replicate 32 (some (fp32.decode 0x43800000)))
    (List.replicate 32 (some (fp32.decode 0x43800000))) 0x34 0x34) = (0x00100000, 0) := by decide +kernel

/-- Example 3 of R104: 32 products of 2^−25 are added to 1.0 with one rounding. -/
theorem test_one_rounding : (addGroup (0x3F800000, 0) (groupSum (List.replicate 32 (some (fp32.decode 0x3F800000)))
    (List.replicate 32 (some (fp32.decode 0x3F800000))) 0x7F 0x66)).1 = 0x3F800008 := by decide +kernel

/-- Example 4 of R107: `afadd` at 2^24 rounds ties to even. -/
theorem test_bank_add : (fp32.add rneRnd 0x4B800000 0x3F800000).1 = 0x4B800000 ∧
    (fp32.add rneRnd 0x4B800000 0x40000000).1 = 0x4B800001 := by decide +kernel

/-- A v register as a list of 32-bit lanes, from lane 0 on. -/
def lanes32 (l : List Nat) : VBody := BitVec.ofNat 512 (l.foldr (fun x acc => x + 2 ^ 32 * acc) 0)

/-- The body of v4 after `hsift v4, s2, s3, 3` of one arrival. -/
def sifted (old : VBody) (score index : Word) : Option VBody :=
  match exec (.hsift false 4 2 3 3) (onThread 0 fun h => withV .raw old (withS 3 index (withS 2 score h))) with
  | .next t => some (t.me.v[(4 : Fin 16)]).body
  | _ => none

/-- Steps 3, 4 and 5 of example 1 of R207. -/
theorem test_hsift_3 : sifted (lanes32 ([0xFF800000, 0x3F000000, 0x40000000, 0, 0, 0, 0, 0, 0xFFFFFFFF, 4, 1] ++ List.replicate 5 0))
    0x3F000000 2 = some (lanes32 ([0x3F000000, 0x3F000000, 0x40000000, 0, 0, 0, 0, 0, 4, 2, 1] ++ List.replicate 5 0)) := by
  decide +kernel

theorem test_hsift_5 : sifted (lanes32 ([0x3F000000, 0x3F000000, 0x40000000, 0, 0, 0, 0, 0, 4, 2, 1] ++ List.replicate 5 0))
    0x3F800000 7 = some (lanes32 ([0x3F000000, 0x3F800000, 0x40000000, 0, 0, 0, 0, 0, 2, 7, 1] ++ List.replicate 5 0)) := by
  decide +kernel

/-- SHAKE256 of the empty message begins 46 B9 DD 2B (the published value). -/
theorem test_shake256 : (shake256 []).take 4 = [0x46, 0xB9, 0xDD, 0x2B] := by decide +kernel
/-! ## The statements' hypotheses are met -/

theorem witness_integerForms :
    (let s := State.reset
     s.me.chain = [] ∧ s.rdS 0 = .ok 0 ∧ s.rdS 1 = .ok 0x00FF000000000000 ∧ s.rdS 2 = .ok 0) ∧
    (let s := onMaster (withS 2 0x3F3F)
     s.me.chain = [] ∧ s.rdS 2 = .ok 0x3F3F ∧ (63 : Nat) = ((0x3F3F : Word).setWidth 6).toNat ∧
       (1 : Nat) = min ((0x3F3F : Word).extractLsb' 8 7).toNat (64 - 63)) ∧
    (let s := onMaster (emptyS 3 false)
     s.me.chain = [] ∧ s.rdS 1 = .ok 0x00FF000000000000 ∧ s.rdS 2 = .ok 0 ∧ (s.me.s.get 3).full = false) := by
  dsimp only; and_intros <;> first | decide +kernel | exact ok (by decide +kernel)

theorem witness_immediateForms :
    (State.reset.me.chain = [] ∧ State.reset.rdS 1 = .ok 0x00FF000000000000) ∧
    (0 < (1 : Nat) ∧ (1 : Nat) ≤ 25 ∧ (25 : Nat) ≤ 25 ∧ Hart.resetThread.chain = []) ∧
    ({ Hart.resetThread with chain := [1] }.chain = [(1 : BitVec 21)] ∧
      { Hart.resetThread with chain := [1, 2] }.chain = [(1 : BitVec 21), 2] ∧
      { Hart.resetThread with chain := [1, 2, 3] }.chain = [(1 : BitVec 21), 2, 3]) := by
  dsimp only; and_intros <;> first | decide +kernel | exact ok (by decide +kernel)

theorem witness_comparesAndPredicates :
    (let s := onThread 5 (withS 1 8)
     s.me.chain = [] ∧ s.rdS 1 = .ok 8 ∧ s.rdS 2 = .ok 0 ∧ s.rdP 0 = .ok true ∧ s.rdP 7 = .ok false ∧
       (∀ k : Fin 8, s.me.pBusy.get k = false) ∧ (7 : Fin 8) ≠ 0) ∧
    (onThread 5 fun h => { h with pBusy := h.pBusy.set 7 true }).me.pBusy.get 7 = true ∧
    (let u := onVt fun h => { h with wait := some (.pred 7) }
     (u.hart (.thread 0 0)).park = none ∧ (u.hart (.thread 0 0)).wait = some (.pred 7) ∧ u.ready (.thread 0 0) = true) := by
  dsimp only; and_intros <;> first | decide +kernel | exact ok (by decide +kernel)

/-- Targets at both ends of the legal range, and beyond it; a register that is 1, and one that is not. -/
theorem witness_branches :
    (let s := onMaster (withS 2 1)
     let tgt := s.me.pc + 4 * s.me.imm 18 0 true
     let far := s.me.pc + 4 * s.me.imm 25 0 true
     tgt.toNat < 2 ^ 56 ∧ tgt.toNat % 4 = 0 ∧ far.toNat < 2 ^ 56 ∧ far.toNat % 4 = 0 ∧ s.rdP 0 = .ok true ∧
       s.rdP 1 = .ok false ∧ s.rdS 2 = .ok 1 ∧ s.me.chain = []) ∧
    (let s := onMaster fun h => { withS 2 2 h with pc := 0x00FFFFFFFFFFFFFC }
     2 ^ 56 ≤ (s.me.pc + 4 * s.me.imm 18 1 true).toNat ∧ 2 ^ 56 ≤ (s.me.pc + 4 * s.me.imm 25 1 true).toNat ∧
       s.rdP 0 = .ok true ∧ s.rdS 2 = .ok 2 ∧ (2 : Word) ≠ 1) ∧
    (let s := onMaster fun h => withS 4 0x0100000000000000 (withS 3 0x00FFFFFFFFFFFFFE (withS 2 0x00FFFFFFFFFFFFFC h))
     s.me.chain = [] ∧ s.rdS 2 = .ok 0x00FFFFFFFFFFFFFC ∧ (0x00FFFFFFFFFFFFFC : Word).toNat < 2 ^ 56 ∧
       (0x00FFFFFFFFFFFFFC : Word).toNat % 4 = 0 ∧ s.rdS 3 = .ok 0x00FFFFFFFFFFFFFE ∧
       (0x00FFFFFFFFFFFFFE : Word).toNat < 2 ^ 56 ∧ (0x00FFFFFFFFFFFFFE : Word).toNat % 4 ≠ 0 ∧
       s.rdS 4 = .ok 0x0100000000000000 ∧ 2 ^ 56 ≤ (0x0100000000000000 : Word).toNat) := by
  dsimp only; and_intros <;> first | decide +kernel | exact ok (by decide +kernel)

theorem witness_floatForms :
    (let s := onThread 48 (withS 1 0x3F800000)
     s.me.chain = [] ∧ s.onDCore ∧ s.rdS 1 = .ok 0x3F800000 ∧ s.rdS 2 = .ok 0 ∧ s.rdS 3 = .ok 0) ∧
    (let s := (onThread 0 id).modCluster 0 0 fun c => { c with dFused := true }
     s.me.chain = [] ∧ s.cur = .thread 0 0 ∧ (s.cluster 0 (clusterOf 0)).dFused = true) ∧
    (let s := onThread 47 id
     s.me.chain = [] ∧ s.cur = .thread 0 47 ∧ (s.cluster 0 (clusterOf 47)).dFused = false ∧ (coreOf 47).val < 6 ∧
       (s.ctx 0 47).accBound = false ∧ s.freeDSlot 0 (clusterOf 47) = some 48) ∧
    (let s := (onThread 47 id).modCtx 0 47 fun c => { c with accBound := true }
     (s.cluster 0 (clusterOf 47)).dFused = false ∧ (s.ctx 0 47).accBound = true) ∧
    (let s := ((onThread 0 id).modCore 0 0 6 fun c => { c with stopped := some 0 }).modCore 0 0 7 fun c =>
      { c with stopped := some 0 }
     (s.cluster 0 (clusterOf 0)).dFused = false ∧ (s.ctx 0 0).accBound = false ∧ s.freeDSlot 0 (clusterOf 0) = none) ∧
    (let s := withInst id (onThread 0 (withV .f64 5))
     s.me.chain = [] ∧ s.cur = .thread 0 0 ∧ (coreOf 0).val < 6 ∧ s.freeDSlot 0 (clusterOf 0) = some 48 ∧
       s.vtAt 0 0 = some ⟨7, 0⟩ ∧ s.rdV 1 = .ok ⟨.f64, 5, 0⟩ ∧ s.rdM 3 = .ok (BitVec.allOnes 64) ∧
       s.rdV 2 = .ok ⟨.f64, 5, 0⟩) := by
  dsimp only; and_intros <;> first | decide +kernel | exact ok (by decide +kernel)

/-- 1.0 and −2.0, of FP32, and a group of one product 1.0 × 1.0 beside the sum 1.0, one with a NaN, and one with
infinite products of both signs. -/
theorem witness_exactRounding :
    (fp32 ∈ [fp64, fp32, bf16, fp16, e5m2, e4m3] ∧ fp32.decode 0x3F800000 = .fin false (2 ^ 23) (-23) ∧
      fp32.decode 0xC0000000 = .fin true (2 ^ 23) (-22) ∧ 2 ^ 23 ≠ 0 ∧
      (fp32.decode 0x3F800000).units (-46) = some (2 ^ 46) ∧ (fp32.decode 0xC0000000).units (-46) = some (-2 ^ 47) ∧
      (Machine.Num.fin (false != true) (2 ^ 23 * 2 ^ 23) (-23 + -22)).units (-46) = some (-2 ^ 47) ∧
      ([0x3F800000, 0xC0000000].map fun x => (fp32.decode x).units (-46)) = [2 ^ 46, -2 ^ 47].map some) ∧
    (let one := fp32.decode 0x3F800000
     ([one] : List Machine.Num) ≠ [] ∧ [one].length = [one].length ∧ 127 < 255 ∧
       (fp32.decode ((0x3F800000 : Nat), (0 : Nat)).1).units (-46) = some (2 ^ 46) ∧
       (([one].zip [one]).map fun p => ((Machine.Num.mul p.1 p.2).1.scale (((127 : Nat) : Int) - 127 + ((127 : Nat) : Int) - 127)).units
         (-46)) = [2 ^ 46].map some ∧
       (fp32.decode 0x7FC00000).isNan = true) ∧
    (let i := fp32.decode 0x7F800000
     (Machine.Num.mul i (fp32.decode 0x3F800000)).1 = .inf false ∧ (Machine.Num.mul i (fp32.decode 0xBF800000)).1 = .inf true ∧
       i.isNan = false ∧ (fp32.decode 0x3F800000).isNan = false ∧ (fp32.decode 0xBF800000).isNan = false) := by
  dsimp only; and_intros <;> decide +kernel

theorem witness_loadsAndStores :
    (let s := onThread 0 (withS 1 aliasBase)
     s.rdS 1 = .ok aliasBase ∧ s.rdS 2 = .ok 0 ∧ s.releaseOpen s.cur = false ∧ s.drained s.cur = true ∧
       s.ownSpad (s.memEa aliasBase .d 0) 8 0 0 ∧ placeOf s.cur (s.memEa aliasBase .d 0).toNat 8 = .ok (.spad 0 0) ∧
       (s.memEa aliasBase .d 0).toNat % 8 = 0 ∧ clusterOfAgent s.cur = some 0) ∧
    (let s := openRelease (onThread 0 (withS 1 aliasBase))
     s.rdS 1 = .ok aliasBase ∧ s.releaseOpen s.cur = true ∧ s.drained s.cur = false ∧ MOrd.sector ≠ .rlx) ∧
    (let s := ((onMaster (withS 2 0x1000)).setLine (lineKey 0 0 0x1000) (some (openLine 1))).setCopies (lineKey 0 0 0x1000)
       [⟨0, List.replicate 128 1, (openLine 1).perm, false, true, 0⟩]
     s.heldLine (s.memEa 0x1000 .d 15) 8 .read true (openLine 1) ∧
       s.heldLine (s.memEa 0x1000 .d 15) 8 .write true (openLine 1) ∧ (s.ownCopy s.cur (s.myLine 0x1000)).isSome = true) ∧
    (let s := onThread 0 (withS 1 (aliasBase + 0x1FFFFF))
     s.rdS 1 = .ok (aliasBase + 0x1FFFFF) ∧ s.ownSpad (s.memEa (aliasBase + 0x1FFFFF) .b 0) 1 0 0x1FFFFF) ∧
    (let s := (onMaster (withS 2 0x1000)).setLine (lineKey 0 0 0x1000) (some (openLine 1))
     s.rdS 2 = .ok 0x1000 ∧ s.heldLine (s.memEa 0x1000 .d 15) 8 .read true (openLine 1) ∧
       s.heldLine (s.memEa 0x1000 .d 15) 8 .read false (openLine 1) ∧
       s.heldLine (s.memEa 0x1000 .d 15) 8 .write true (openLine 1)) ∧
    (let s := onThread 0 id
     placeOf s.cur 0xFF00000000400000 8 = .ok (.spad 1 0) ∧ clusterOfAgent s.cur ≠ some 1 ∧
       placeOf s.cur 0xFF00000017DFFFFF 1 = .ok (.spad 95 0x1FFFFF) ∧
       placeOf s.cur 0xFF800000005F3F78 8 = .ok (.reg 6143 15) ∧ 0xFF800000005F3F78 % 8 = 0 ∧ s.me.tx = none) ∧
    (let s := onMaster (withS 2 0xFD00000000000000)
     s.rdS 2 = .ok 0xFD00000000000000 ∧
       placeOf s.cur (s.memEa 0xFD00000000000000 .d 0).toNat 8 = .error ⟨0x16, 0, 0xFD00000000000000, 0, 0⟩ ∧
       placeOf s.cur 0x1001 8 = .ok (.app 0x1001) ∧ 0x1001 % 8 ≠ 0) := by
  dsimp only; and_intros <;> first | decide +kernel | exact ok (by decide +kernel) | exact err (by decide +kernel)

theorem witness_atomics :
    (let s := onThread 0 (withS 1 aliasBase)
     s.me.chain = [] ∧ s.me.tx = none ∧ s.rdS 1 = .ok aliasBase ∧ s.rdS 2 = .ok 0 ∧ s.rdS (succ16 2) = .ok 0 ∧
       s.drained s.cur = true ∧ s.releaseOpen s.cur = false ∧ s.ownSpad aliasBase 8 0 0 ∧ s.ownSpad aliasBase 4 0 0) ∧
    (let s := (onMaster (withS 2 0x1000)).setLine (lineKey 0 0 0x1000) (some (openLine 1))
     s.heldLine 0x1000 8 .atomic false (openLine 1) ∧ s.heldLine 0x1000 4 .atomic false (openLine 1)) := by
  dsimp only; and_intros <;> first | decide +kernel | exact ok (by decide +kernel)

/-- Context 5 parked at a form on the first word of cluster 0. -/
def parkedOn (k : FeKind) (s : State) : State :=
  s.modHart (.thread 0 5) fun h => { h with park := some (.fe (spadWord 0 0 0) k 3 0) }

theorem witness_fullEmpty :
    (let s := onThread 0 (withS 1 aliasBase)
     s.me.chain = [] ∧ s.cur = .thread 0 0 ∧ s.rdS 1 = .ok aliasBase ∧ s.rdS 2 = .ok 0 ∧ s.drained s.cur = true ∧
       s.releaseOpen s.cur = false ∧ s.fePlace 0 0 aliasBase 8 = .ok (0, 0) ∧ s.feBehind 0 0 0 = false ∧ s.spadFull 0 0 0 = true ∧
       s.belowMark 0 0 0 8 = false ∧ s.spadBad 0 0 0 8 = false ∧ s.fePlace 0 0 aliasBase 512 = .ok (0, 0) ∧
       ∀ k, k < 64 → s.feCount (spadWord 0 0 (0 + 8 * k)) = 0) ∧
    (let s := openRelease (onThread 0 (withS 1 aliasBase))
     s.rdS 1 = .ok aliasBase ∧ s.fePlace 0 0 aliasBase 8 = .ok (0, 0) ∧ s.releaseOpen s.cur = true) ∧
    (let s := (onThread 0 id).setFull 0 0 0 false
     s.spadFull 0 0 0 = false) ∧
    (let s := parkedOn .ldfe ((onThread 0 id).modCluster 0 0 fun c => { c with channels := c.channels.set 0 ⟨true, 0, 64, 0⟩ })
     s.feBehind 0 0 0 = true ∧ s.belowMark 0 0 0 8 = true) ∧
    (let s := parkedOn .stfe ((onThread 0 id).setFull 0 0 0 false)
     s.feNext 0 0 0 = some (0, .thread 0 5, .stfe, 3) ∧ s.feCount (spadWord 0 0 0) = 1) ∧
    (let s := parkedOn .ldfe (onThread 0 id)
     s.feNext 0 0 0 = some (0, .thread 0 5, .ldfe, 3) ∧ s.feCount (spadWord 0 0 0) = 1 ∧ s.belowMark 0 0 0 8 = false ∧
       s.spadBad 0 0 0 8 = false) := by
  dsimp only; and_intros <;> first | decide +kernel | exact ok (by decide +kernel)

theorem witness_remp :
    (let s := onThread 0 (emptyS 4 true)
     s.me.chain = [] ∧ s.cur = .thread 0 0 ∧ (s.me.s.get 4).claimed = true) ∧
    (let s := (onVt id).modCluster 0 0 fun c => { c with recvInbox := [{ aFlight 9 0 (.deposit 0 4 1) with arrived := some 0, kept := some ⟨7, 0⟩ }] }
     s.me.chain = [] ∧ (s.me.s.get 4).claimed = false ∧ s.depositDue 0 0 4 = some 9) ∧
    State.reset.cur = .master 0 0 := by
  dsimp only; and_intros <;> decide +kernel

theorem witness_fencesAndHints :
    (State.reset.me.chain = [] ∧ (Order.ar ≠ .rlx) ∧ State.reset.drained State.reset.cur = true ∧
      State.reset.storesDone State.reset.cur = true) ∧
    (let s := { onThread 0 id with flight := [aFlight 9 1 (.push 0 [1])] }
     s.me.chain = [] ∧ s.drained s.cur = false ∧ s.storesDone s.cur = false) ∧
    (let s := onMaster fun h => { h with chain := [1, 2] }
     s.me.chain.length < 3 ∧ s.me.chain ≠ [] ∧ wordSpace (.mts false 0 0x102) = .cpu ∧
       takesChain (.mts false 0 0x102) = false) ∧
    3 ≤ (onMaster fun h => { h with chain := [1, 2, 3] }).me.chain.length := by
  dsimp only; and_intros <;> decide +kernel

theorem witness_transactions :
    (let s := onMaster (withS 2 0x1FF)
     s.me.chain = [] ∧ s.me.tx = none ∧ s.me.claimedReg = none ∧ (∀ k : Fin 8, s.me.pBusy.get k = false) ∧
       s.rdS 2 = .ok 0x1FF) ∧
    (let s := onMaster fun h => { h with tx := some (aTx 6) }
     s.me.chain = [] ∧ s.me.tx = some (aTx 6) ∧ (aTx 6).depth < 7 ∧ 1 < (aTx 6).depth) ∧
    (let s := onMaster fun h => { h with tx := some (aTx 7) }
     s.me.tx = some (aTx 7) ∧ (aTx 7).depth = 7) ∧
    (let s := onMaster fun h => { h with tx := some (aTx 1) }
     s.me.tx = some (aTx 1) ∧ (aTx 1).depth = 1 ∧ s.drained s.cur = true ∧ ∃ u, s.commitTx s.cur (aTx 1) = .ok u) ∧
    (255 < 256 ∧ ((onMaster fun h => { h with tx := some (aTx 1) }).hart (.master 0 0)).tx = some (aTx 1)) := by
  dsimp only; and_intros <;> first
      | (show ∃ _, _; exact okEx (by decide +kernel))
      | decide +kernel | exact ok (by decide +kernel)

/-- Tables for one address of an address space, with the entries of the four levels; the root is physical 0. -/
def walkTo (asid : BitVec 16) (va e0 e1 e2 e3 : Nat) (s : State) : State :=
  let put := fun (s : State) (t idx e : Nat) => s.writePhys 0 (t + 8 * idx) (leBytes 8 e)
  let s := s.modSec 0 fun c => { c with roots := Sparse.put (Root.reset asid.toNat) c.roots asid.toNat ⟨0, true⟩ }
  put (put (put (put s 0 (va / 2 ^ 55 % 2) e0) 0x10000 (va / 2 ^ 42 % 2 ^ 13) e1) 0x20000 (va / 2 ^ 29 % 2 ^ 13) e2) 0x30000
    (va / 2 ^ 16 % 2 ^ 13) e3

/-- The topmost line of application space, and tables for it with a leaf. -/
def topVa : Nat := 2 ^ 56 - 128
def topWalk (leaf : Nat) : State := walkTo 0 topVa 0x10001 0x20001 0x30001 leaf (onMaster id)

/-- The first `n` lines, beyond the line of address 0, of its set and bank, clean. -/
def fullSet (n : Nat) (s : State) : State :=
  (List.range n).foldl (fun s j => s.setLine (lineKey 0 0 ((j + 1) * (2 ^ 24 + 2 ^ 32))) (some (openLine 0))) s

/-- The state that an access to a line leaves behind at its home, and the line. -/
def atHome (s : State) (ea : Word) (a : Acc) : State :=
  match s.locate (secOf s.cur) (s.asidOf s.cur) ea.toNat a false with
  | .ok r => r.2
  | .error _ => s

/-- The line of an address in the LLC. -/
def lineIn (s : State) (ea : Word) : Line := (s.line (s.myLine ea)).getD (openLine 0)

/-- A translation that is cached, and the walk stopped at, and going through, each of its levels. -/
theorem witness_walks :
    (let s := (onMaster id).modSec 0 fun c =>
       { c with tlb := [(pageKey 0 0, some ⟨0x40000, ⟨true, true, true, true, false⟩, false, false, false, 0⟩)] }
     s.tlbHit 0 0 0 = some ⟨0x40000, ⟨true, true, true, true, false⟩, false, false, false, 0⟩) ∧
    (let s := onMaster id
     s.tlbHit 0 5 topVa = none ∧ s.sealAt 0 5 topVa = none ∧
       (Sparse.get (Root.reset (5 : BitVec 16).toNat) (s.sec 0).roots (5 : BitVec 16).toNat).v = false) ∧
    (let s := walkTo 0 topVa 0 0 0 0 (onMaster id)
     s.tlbHit 0 0 topVa = none ∧ s.sealAt 0 0 topVa = none ∧
       (Sparse.get (Root.reset (0 : BitVec 16).toNat) (s.sec 0).roots (0 : BitVec 16).toNat).v = true ∧
       s.pte 0 0 (topVa / 2 ^ 55 % 2) = .ok 0 ∧ pteKind 0 = 0) ∧
    (let s := topWalk 0
     s.tlbHit 0 0 topVa = none ∧ s.sealAt 0 0 topVa = none ∧ s.pte 0 0 (topVa / 2 ^ 55 % 2) = .ok 0x10001 ∧
       pteKind 0x10001 = 1 ∧ pteRes0 0x10001 = false ∧
       s.tableEntryAt 0 0 topVa 1 (ptePa 0x10001) (topVa / 2 ^ 42 % 2 ^ 13) = .ok 0x20001 ∧
       pteKind 0x20001 = 1 ∧ pteRes0 0x20001 = false ∧
       s.tableEntryAt 0 0 topVa 2 (ptePa 0x20001) (topVa / 2 ^ 29 % 2 ^ 13) = .ok 0x30001 ∧
       pteKind 0x30001 = 1 ∧ pteRes0 0x30001 = false ∧ s.pte 0 (ptePa 0x30001) (topVa / 2 ^ 16 % 2 ^ 13) = .ok 0) ∧
    (walkTo 0 topVa 0x10001 0 0 0 (onMaster id)).tableEntryAt 0 0 topVa 1 (ptePa 0x10001) (topVa / 2 ^ 42 % 2 ^ 13) = .ok 0 ∧
    (walkTo 0 topVa 0x10001 0x20001 0 0 (onMaster id)).tableEntryAt 0 0 topVa 2 (ptePa 0x20001) (topVa / 2 ^ 29 % 2 ^ 13) =
      .ok 0 ∧
    (let s := walkTo 0 topVa 0x10001 0x20001 0x2000003A 0 (onMaster id)
     s.tableEntryAt 0 0 topVa 2 (ptePa 0x20001) (topVa / 2 ^ 29 % 2 ^ 13) = .ok 0x2000003A ∧ pteKind 0x2000003A = 2 ∧
       ∃ t, leafOf 0x2000003A topVa true = .ok t) ∧
    (let s := topWalk 0x4003A
     s.pte 0 (ptePa 0x30001) (topVa / 2 ^ 16 % 2 ^ 13) = .ok 0x4003A ∧ pteKind 0x4003A = 2 ∧
       ∃ t, leafOf 0x4003A topVa false = .ok t) ∧
    (let s := topWalk 0x4043A
     s.pte 0 (ptePa 0x30001) (topVa / 2 ^ 16 % 2 ^ 13) = .ok 0x4043A ∧ pteKind 0x4043A = 2 ∧
       leafOf 0x4043A topVa false = .error 3) := by
  dsimp only; and_intros <;> first
      | (show ∃ _, _; exact okEx (by decide +kernel))
      | decide +kernel | exact ok (by decide +kernel) | exact err (by decide +kernel)

/-- A miss at a page that denies the access, at one that is not cached, and in sets with room and without; a clean line
and a dirty one that go; and a load and a store that miss. -/
theorem witness_lineFills :
    (let s := topWalk 0x40032
     s.line (lineKey 0 0 topVa) = none ∧
       ∃ r, s.translate 0 0 topVa = .ok r ∧ (s.acc s.cur .read false).permits r.1.perm = false) ∧
    (let s := topWalk 0x4023A
     ∃ r, s.translate 0 0 topVa = .ok r ∧ (s.acc s.cur .read false).permits r.1.perm = true ∧ r.1.perm.nc = true) ∧
    (let s := fullSet 15 (mapped id)
     s.line (lineKey 0 0 0) = none ∧
       ∃ r, s.translate 0 0 0 = .ok r ∧ (s.acc s.cur .read false).permits r.1.perm = true ∧ r.1.perm.nc = false ∧
         (r.2.setLines (lineKey 0 0 0)).length < 16) ∧
    (let s := fullSet 16 (mapped id)
     let k := lineKey 0 0 0
     ∃ r, s.translate 0 0 0 = .ok r ∧ (s.acc s.cur .read false).permits r.1.perm = true ∧ r.1.perm.nc = false ∧
       16 ≤ (r.2.setLines k).length ∧
       (r.2.evictOne 16 ((r.2.setLines k).filter fun e => !r.2.pinned e.1)).isSome = true) ∧
    (let s := { fullSet 16 (mapped id) with
       bankq := [⟨3, 0, 0, (aFlight 9 0 (.push 0 [1])).actor, true, 4, 0, 0, 8, .read, [], [(0, 2 ^ 40)], false⟩] }
     let k := lineKey 0 0 0
     ∃ r, s.translate 0 0 0 = .ok r ∧ (s.acc s.cur .read false).permits r.1.perm = true ∧ r.1.perm.nc = false ∧
       16 ≤ (r.2.setLines k).length ∧
       (r.2.evictOne 16 ((r.2.setLines k).filter fun e => !r.2.pinned e.1)).isNone = true) ∧
    (let s := (mapped id).setLine (lineKey 0 0 0) (some { openLine 7 with dirty := true })
     s.line (lineKey 0 0 0) = some { openLine 7 with dirty := true } ∧ (s.marksOf (lineKey 0 0 0)).empty = true ∧
       ∃ r, s.translate (lineSec (lineKey 0 0 0)) (lineAsid (lineKey 0 0 0)) (lineVa (lineKey 0 0 0)) = .ok r ∧
         (r.2.sec 0).badDevice.contains (r.1.addr 0 / 128) = false) ∧
    (let s := mapped (withS 1 0x78)
     s.rdS 1 = .ok 0x78 ∧ s.releaseOpen s.cur = false ∧ s.rdS 2 = .ok 0 ∧ s.drained s.cur = true ∧
       s.missedLine (s.memEa 0x78 .d 0) 8 .read true (lineIn (atHome s 0x78 (s.acc s.cur .read true)) 0x78)
         (atHome s 0x78 (s.acc s.cur .read true)) ∧
       s.missedLine (s.memEa 0x78 .d 0) 8 .write true (lineIn (atHome s 0x78 (s.acc s.cur .write true)) 0x78)
         (atHome s 0x78 (s.acc s.cur .write true)) ∧
       (atHome s 0x78 (s.acc s.cur .write true)).sealAt 0 0 0x78 = none) := by
  dsimp only; and_intros <;> first
      | decide +kernel | exact ok (by decide +kernel)
      | (show ∃ _, _; exact okP (fun _ => decide _) (fun _ => of_decide_eq_true) (by decide +kernel))
      | (unfold State.missedLine; and_intros <;> first | decide +kernel | exact ok (by decide +kernel))

/-- An address below the lease and one behind it; a page without a mapping; lines that deny, are poisoned, sealed or
race; peer windows at each of their checks; another cluster's scratchpad and a register. -/
theorem witness_accessFaults :
    (let s := onVt (withS 1 0xFFF8)
     s.rdS 1 = .ok 0xFFF8 ∧ s.rdS 2 = .ok 0 ∧ s.drained s.cur = true ∧ s.releaseOpen s.cur = false ∧ s.me.tx = none ∧
       (0xFFF8 : Word).toNat % 8 = 0 ∧ placeOf s.cur 0xFFF8 8 = .ok (.app 0xFFF8) ∧ s.cur = .thread 0 0 ∧
       s.instOf s.cur = some anInst ∧ leaseHolds anInst.leases 0xFFF8 8 = false ∧ leaseHolds anInst.leases 0x20000 8 = false) ∧
    (let s := onMaster id
     s.leaseCheck s.cur topVa 8 = .ok () ∧ s.line (lineKey 0 0 topVa) = none ∧ s.ownCopy s.cur (lineKey 0 0 topVa) = none ∧
       s.controlAt s.cur topVa = none ∧ (s.marksOf (lineKey 0 0 topVa)).writer = none ∧
       (s.marksOf (lineKey 0 0 topVa)).readers = [] ∧
       placeOf s.cur topVa 8 = .ok (.app topVa)) ∧
    (walkTo 0 topVa 0 0 0 0 (onMaster id)).translate 0 0 topVa = .error (.page 1) ∧
    (let s := onVt id
     s.leaseCheck s.cur 0x10000 8 = .ok () ∧ s.leaseCheck s.cur 0x1FFF8 8 = .ok () ∧
       s.translate 0 5 0x10000 = .error (.page 1)) ∧
    (let s := (onVt id).setLine (lineKey 0 5 0x10000) (some { openLine 0 with perm := ⟨false, false, true, true, false⟩ })
     let l := { openLine 0 with perm := ⟨false, false, true, true, false⟩ }
     s.line (lineKey 0 5 0x10000) = some l ∧ (s.acc s.cur .read true).permits l.perm = false ∧
       (s.acc s.cur .write true).permits l.perm = false) ∧
    (let s := (onVt id).setLine (lineKey 0 5 0x10000) (some { openLine 0 with poison := true })
     let l := { openLine 0 with poison := true }
     s.line (lineKey 0 5 0x10000) = some l ∧ (s.acc s.cur .read true).permits l.perm = true ∧
       (s.acc s.cur .read true).race = none ∧ l.poison = true) ∧
    (let s := ((onVt id).setLine (lineKey 0 5 0x10000) (some (openLine 0))).modSec 0 fun c => { c with seals := [⟨0, 5, 0x10000, 65536, []⟩] }
     (s.acc s.cur .write true).permits (openLine 0).perm = true ∧ (s.sealAt 0 5 0x10000).isSome = true ∧
       (s.sealAt 0 5 0x1FFFF).isSome = true ∧ s.sealAt 0 5 0x20000 = none) ∧
    (let s := ((withInst (fun i => { i with chk := true }) (onThread 0 id)).setLine (lineKey 0 5 0x10000) (some (openLine 0))).setMarks
       (lineKey 0 5 0x10000) ⟨[(0, some (7, .wr 1))], none, []⟩
     let k := lineKey 0 5 0x10000
     (s.acc s.cur .read true).race = some ⟨7, 0⟩ ∧ (s.marksOf k).writer = none ∧ (s.marksOf k).readers = [] ∧
       raceLine (s.marksOf k) ⟨7, 0⟩ false (granulesOf 0 8) = none ∧ raceLine (s.marksOf k) ⟨7, 0⟩ true (granulesOf 0 8) = none ∧
       (s.acc s.cur .write true).race = some ⟨7, 0⟩ ∧ s.sealAt 0 5 0x10000 = none) ∧
    (let s := State.reset
     placeOf s.cur 0xFE00000000000000 8 = .ok (.peer 0 0) ∧ (s.import_ 0 0).valid = false ∧ (s.import_ 0 0).err = false ∧
       s.peerCheck 0 0 0 8 .read = .error 1 ∧ s.peerCheck 0 0 0 8 .write = .error 1) ∧
    (let s := State.reset.modSec 0 fun c => { c with imports := [(255, ⟨0x100000001, true, false, false, false, 0x10000⟩)] }
     placeOf s.cur 0xFE00FF000000FFF8 8 = .ok (.peer 255 0xFFF8) ∧
       placeOf s.cur 0xFE00FF0000010000 8 = .ok (.peer 255 0x10000) ∧ (s.import_ 0 255).valid = true ∧
       (s.import_ 0 255).len < 0x10000 + 8 ∧ 0xFFF8 + 8 ≤ (s.import_ 0 255).len ∧ (s.import_ 0 255).rd = false ∧
       (s.import_ 0 255).wr = false) ∧
    (let s := onThread 0 id
     placeOf s.cur 0xFF00000000400000 8 = .ok (.spad 1 0) ∧ clusterOfAgent s.cur ≠ some 1 ∧
       placeOf s.cur 0xFF800000005F3F78 8 = .ok (.reg 6143 15)) := by
  dsimp only; and_intros <;> first | decide +kernel | exact ok (by decide +kernel) | exact err (by decide +kernel)

/-- A transaction that has read `n` lines and written `m`, none of them the line of 0x10000. -/
def busyTx (n m : Nat) : Tx :=
  { aTx 1 with reads := (List.range n).map fun j => lineKey 0 5 (0x20000 + 128 * j)
               writes := (List.range m).map fun j => lineKey 0 5 (0x20000 + 128 * j) }

/-- The vt in a transaction, with the line of 0x10000 held. -/
def inTx (t : Tx) (m : Marks) : State :=
  (((onVt fun h => { h with tx := some t }).setLine (lineKey 0 5 0x10000) (some (openLine 3))).setMarks (lineKey 0 5 0x10000) m)

theorem witness_transactionAccesses :
    (let s := inTx (busyTx 255 63) ⟨[], none, []⟩
     let k := lineKey 0 5 0x10000
     s.rdS 1 = .ok 0 ∧ s.drained s.cur = true ∧ s.releaseOpen s.cur = false ∧ s.me.tx = some (busyTx 255 63) ∧
       (0x10000 : Word).toNat % 8 = 0 ∧ s.leaseCheck s.cur 0x10000 8 = .ok () ∧ s.line k = some (openLine 3) ∧
       s.ownCopy s.cur k = none ∧ (s.acc s.cur .read false).permits (openLine 3).perm = true ∧ (openLine 3).poison = false ∧
       (s.marksOf k).writer = none ∧ (busyTx 255 63).reads.contains k = false ∧ (busyTx 255 63).reads.length < 256 ∧
       (s.acc s.cur .write false).permits (openLine 3).perm = true ∧ s.sealAt 0 5 0x10000 = none ∧
       (s.marksOf k).readers.all (· == s.cur) = true ∧ (busyTx 255 63).writes.contains k = false ∧
       (busyTx 255 63).writes.length < 64) ∧
    (let s := inTx (busyTx 256 64) ⟨[], none, []⟩
     let k := lineKey 0 5 0x10000
     s.me.tx = some (busyTx 256 64) ∧ (busyTx 256 64).reads.contains k = false ∧ 256 ≤ (busyTx 256 64).reads.length ∧
       (busyTx 256 64).writes.contains k = false ∧ 64 ≤ (busyTx 256 64).writes.length) ∧
    (let s := inTx (aTx 1) ⟨[], some (.thread 0 9), []⟩
     let k := lineKey 0 5 0x10000
     (s.marksOf k).writer.isSome = true ∧ (s.marksOf k).writer ≠ some s.cur) ∧
    (let t := { aTx 1 with reads := [lineKey 0 5 0x10000], writes := [lineKey 0 5 0x10000] }
     let s := inTx t ⟨[], some (.thread 0 0), [.thread 0 0]⟩
     let k := lineKey 0 5 0x10000
     s.me.tx = some t ∧ (s.marksOf k).writer = some s.cur ∧ t.reads.contains k = true ∧ t.writes.contains k = true ∧
       (s.marksOf k).readers.all (· == s.cur) = true) := by
  dsimp only; and_intros <;> first | decide +kernel | exact ok (by decide +kernel)
/-- A thread context of core 0, and one of D core 6, with every v register of a tag. -/
def vecs (t : Tag) (b : VBody) : State := onThread 0 fun h => withS 1 aliasBase (withV t b h)
def vecsD (t : Tag) (b : VBody) : State := onThread 48 fun h => withS 1 aliasBase (withV t b h)

theorem witness_vectorLanes :
    (let s := vecs .i8 5
     s.me.chain = [] ∧ s.rdV 1 = .ok ⟨.i8, 5, 0⟩ ∧ s.rdM 3 = .ok (BitVec.allOnes 64) ∧ intOfTag .i8 = some (8, true) ∧
       s.rdVb ⟨.i8, 5, 0⟩ 2 false = .ok ⟨.i8, (s.vreg 2).body, (s.vreg 2).side⟩ ∧
       s.rdVb ⟨.i8, 5, 0⟩ 2 true = .ok ⟨.i8, 5, 0⟩ ∧ (∃ ys, s.secondLanes .i8 2 false = .ok ys) ∧
       (∃ ys, s.secondLanes .i8 2 true = .ok ys) ∧ isInt .i8 = true) ∧
    (let s := vecs .f32 5
     s.rdV 1 = .ok ⟨.f32, 5, 0⟩ ∧ arithFmt .f32 = some fp32 ∧
       s.rdVb ⟨.f32, 5, 0⟩ 2 false = .ok ⟨.f32, (s.vreg 2).body, (s.vreg 2).side⟩ ∧
       (∃ ys, s.secondLanes .f32 2 false = .ok ys)) ∧
    (let s := vecsD .f64 5
     s.rdV 1 = .ok ⟨.f64, 5, 0⟩ ∧ arithFmt .f64 = some fp64 ∧ s.onDCore) := by
  dsimp only; and_intros <;>
    first | (show ∃ _, _; exact okEx (by decide +kernel)) | decide +kernel | exact ok (by decide +kernel)

/-- The highest lane, and the largest value of a lane. -/
theorem witness_lanesWritten :
    (Tag.i32 ≠ .inv ∧ (List.replicate 16 (some (2 ^ 32 - 1, 0))).length = tagLanes .i32 ∧ 15 < tagLanes .i32) ∧
    ∀ v ∈ List.replicate 16 (some (2 ^ 32 - 1, 0)), ∀ p : Nat × Nat, v = some p → p.1 < 2 ^ tagWidth .i32 := by
  refine ⟨by decide, fun v h p e => ?_⟩
  cases (List.mem_replicate.mp h).2.symm.trans e
  decide

theorem witness_vectorLogicAndFused :
    (let s := vecsD .f64 5
     s.me.chain = [] ∧ s.rdV 1 = .ok ⟨.f64, 5, 0⟩ ∧ s.rdVb ⟨.f64, 5, 0⟩ 2 false = .ok ⟨.f64, 5, 0⟩ ∧
       s.rdM 3 = .ok (BitVec.allOnes 64) ∧ (∃ ys, s.secondLanes .raw 2 false = .ok ys) ∧ s.onDCore ∧
       s.rdV 2 = .ok ⟨.f64, 5, 0⟩ ∧ s.rdV 3 = .ok ⟨.f64, 5, 0⟩ ∧ arithFmt .f64 = some fp64) ∧
    (let s := vecs .u8 5
     s.rdV 1 = .ok ⟨.u8, 5, 0⟩ ∧ s.rdV 2 = .ok ⟨.u8, 5, 0⟩ ∧ s.rdV 3 = .ok ⟨.u8, 5, 0⟩ ∧ intOfTag .u8 = some (8, false)) ∧
    (let s := (vecs .i16 5).modMe fun h => { h with v := h.v.set 3 ⟨.i32, 0, 0⟩ }
     s.rdV 3 = .ok ⟨.i32, 0, 0⟩ ∧ ∃ f, dotOp 2 .i16 .i16 .i32 (arithRnd s.me.fmode) = some f) ∧
    (let s := (vecs .e4m3 5).modMe fun h => { h with v := h.v.set 3 ⟨.f32, 0, 0⟩ }
     s.rdV 3 = .ok ⟨.f32, 0, 0⟩ ∧ ∃ f, dotOp 4 .e4m3 .e4m3 .f32 (arithRnd s.me.fmode) = some f) := by
  dsimp only; and_intros <;>
    first
      | (show ∃ _, _; first | exact okEx (by decide +kernel) | exact someEx (by decide +kernel))
      | decide +kernel | exact ok (by decide +kernel)

theorem witness_vectorMasksAndPermutes :
    (let s := vecs .i16 5
     s.me.chain = [] ∧ s.rdV 1 = .ok ⟨.i16, 5, 0⟩ ∧ s.rdM 2 = .ok (BitVec.allOnes 64) ∧
       s.rdVb ⟨.i16, 5, 0⟩ 2 false = .ok ⟨.i16, 5, 0⟩ ∧ (∃ ys, s.secondLanes .i16 2 false = .ok ys) ∧
       (∃ f, condLane .lt .i16 = some f) ∧ s.rdV 2 = .ok ⟨.i16, 5, 0⟩ ∧ isBlock .i16 = false ∧ s.rdM 3 = .ok (BitVec.allOnes 64) ∧
       s.rdS 2 = .ok 0 ∧ isInt .i16 = true ∧ tagWidth .i16 = tagWidth .i16 ∧ intOfTag .i16 = some (16, true)) ∧
    (let s := vecsD .f64 5
     s.rdV 1 = .ok ⟨.f64, 5, 0⟩ ∧ s.onDCore ∧ (∃ f, fmtOfTag .f64 = some f) ∧ isBlock .f64 = false ∧
       arithFmt .f64 = some fp64 ∧ s.rdS 1 = .ok aliasBase) := by
  dsimp only; and_intros <;>
    first
      | (show ∃ _, _; first | exact okEx (by decide +kernel) | exact someEx (by decide +kernel))
      | decide +kernel | exact ok (by decide +kernel)

/-- The highest part of each ratio, and of the blocks of a register. -/
theorem witness_vectorConversions :
    (let s := vecs .i8 5
     s.me.chain = [] ∧ s.rdV 1 = .ok ⟨.i8, 5, 0⟩ ∧ s.rdM 3 = .ok (BitVec.allOnes 64) ∧
       (isInt .f32 || (fmtOfTag .f32).isSome) = true ∧ (isInt .i8 || (fmtOfTag .i8).isSome) = true ∧
       3 < max (tagLanes .i8) (tagLanes .f32) / min (tagLanes .i8) (tagLanes .f32)) ∧
    (let s := vecs .b8 5
     s.rdV 1 = .ok ⟨.b8, 5, 0⟩ ∧ arithFmt .f32 = some fp32 ∧ Tag.f32 ≠ .f64 ∧ isBlock .b8 = true ∧
       3 < tagLanes .b8 / tagLanes .f32) ∧
    (let s := vecs .bf16 5
     (∃ xs, s.quantSource 1 = .ok xs) ∧ (1 : Fin 4).val < 2) := by
  dsimp only; and_intros <;>
    first
      | (show ∃ _, _; first | exact okEx (by decide +kernel) | exact someEx (by decide +kernel))
      | decide +kernel | exact ok (by decide +kernel)

/-- Contiguous, strided and indexed lanes of the own scratchpad, and a check that fails for a lane. -/
theorem witness_vectorMemory :
    (let s := vecs .i32 0
     let ones := BitVec.allOnes 64
     let ls := activeLanes .i32 ones aliasBase (word 4)
     s.me.chain = [] ∧ Tag.i32 ≠ .inv ∧ isBlock .i32 = false ∧ s.rdM 3 = .ok ones ∧ s.rdS 1 = .ok aliasBase ∧
       aliasBase + (0 : BitVec 7).signExtend 64 * 64 = aliasBase ∧ s.ownSpad aliasBase 64 0 0 ∧ aliasBase.toNat % 64 = 0 ∧
       (∀ l ∈ ls, s.ownSpad l.ea l.n 0 (0 + l.i * 4)) ∧ s.ownSpad aliasBase 4 0 0 ∧
       (15 < tagLanes .i32 ∧ ones.getLsbD 15 = true) ∧ s.rdS (succ16 1) = .ok 0 ∧
       (∀ l ∈ activeLanes .i32 ones aliasBase 0, s.ownSpad l.ea l.n 0 0) ∧
       s.rdV 2 = .ok ⟨.i32, 0, 0⟩ ∧ tagLanes .i32 ≤ tagLanes .i32 ∧ s.me.tx = none ∧
       (∀ l ∈ indexedLanes ⟨.i32, 0, 0⟩ ones aliasBase 4, s.ownSpad l.ea l.n 0 0) ∧ (3 : Fin 8) ≠ 0) ∧
    (let s := onThread 0 fun h => withS 1 (aliasBase + 4) (withV .i32 0 h)
     let ls := activeLanes .i32 (BitVec.allOnes 64) (aliasBase + 4) (word 4)
     let odd := activeLanes .i32 (BitVec.allOnes 64) (aliasBase + 4) 1
     s.checkLanes .read false ls (baseFault (aliasBase + 4) ls) = .error (.flt ⟨5, 0, aliasBase + 4, 0, 0⟩) ∧
       s.checkLanes .write false ls (baseFault (aliasBase + 4) ls) = .error (.flt ⟨5, 0, aliasBase + 4, 0, 0⟩) ∧
       s.checkLanes .read false odd [] = .error (.flt ⟨5, 0, aliasBase + 5, 0, 1⟩) ∧
       s.checkLanes .read false (indexedLanes ⟨.i32, 0, 0⟩ (BitVec.allOnes 64) 1 4) [] =
         .error (.flt ⟨5, 0, 1, 0, 0⟩)) ∧
    (let s := vecsD .f64 0
     s.rdV 2 = .ok ⟨.f64, 0, 0⟩ ∧ s.onDCore) := by
  dsimp only; and_intros <;>
    first | decide +kernel | exact ok (by decide +kernel) | exact err (by decide +kernel) | exact ownAll (by decide +kernel)

/-- The checks that fail in the other forms, a broadcast without an active lane, and the packed forms. -/
theorem witness_vectorMemoryForms :
    (let s := onThread 0 fun h => withS 1 (aliasBase + 2) (withV .i32 2 h)
     let ones := BitVec.allOnes 64
     let flt := fun (ea : Word) => Except.error (ε := Stop) (α := Unit) (.flt ⟨5, 0, ea, 0, 0⟩)
     s.checkLanes .read false ((activeLanes .i32 ones (aliasBase + 2) 0).take 1) [] = flt (aliasBase + 2) ∧
       s.checkLanes .write false (activeLanes .i32 ones (aliasBase + 2) 4) [] = flt (aliasBase + 2) ∧
       s.rdV 2 = .ok ⟨.i32, 2, 0⟩ ∧
       s.checkLanes .write (tagWidth .i32 == 64) (indexedLanes ⟨.i32, 2, 0⟩ ones aliasBase 4) [] =
         .ok () ∧
       s.checkLanes .write (tagWidth .i32 == 64) (indexedLanes ⟨.i32, 2, 0⟩ ones (aliasBase + 2) 4) [] = flt (aliasBase + 10) ∧
       s.checkLanes .atomic false (indexedLanes ⟨.i32, 2, 0⟩ ones (aliasBase + 2) 4) [] = flt (aliasBase + 10) ∧
       s.checkLanes .read false (packedLanes .b8 (aliasBase + 2)) [] = flt (aliasBase + 2) ∧
       s.checkLanes .write false (packedLanes .e2m1x (aliasBase + 2)) [] = flt (aliasBase + 2)) ∧
    (∀ i, i < tagLanes .i32 → (0 : Word).getLsbD i = false) ∧
    (let s := vecs .e2m1x 1
     isBlock .e2m1x = true ∧ (packedLanes .e2m1x aliasBase).length = 9 ∧ s.rdV 2 = .ok ⟨.e2m1x, 1, 0⟩ ∧
       ∀ k, k < 9 → s.ownSpad (aliasBase + word (8 * k)) 8 0 (0 + 8 * k)) ∧
    (let s := vecs .b8 1
     isBlock .b8 = true ∧ (packedLanes .b8 aliasBase).length = 17 ∧ s.rdV 2 = .ok ⟨.b8, 1, 0⟩ ∧
       ∀ k, k < 17 → s.ownSpad (aliasBase + word (4 * k)) 4 0 (0 + 4 * k)) := by
  dsimp only; and_intros <;>
    first | decide +kernel | exact ok (by decide +kernel) | exact err (by decide +kernel) | exact ownEach (by decide +kernel)

/-- A heap of one pair, and one of eight; an arrival that is greater than the root, and a NaN. -/
theorem witness_topKHeap :
    (let s := onThread 0 fun h => withS 2 0x40000000 (withS 1 0x7FC00000 (withV .raw 0x3F800000 h))
     s.me.chain = [] ∧ 1 ≤ (1 : Fin 16).val ∧ (8 : Fin 16).val ≤ 8 ∧ s.rdV 4 = .ok ⟨.raw, 0x3F800000, 0⟩ ∧
       s.rdS 1 = .ok 0x7FC00000 ∧ s.rdS 2 = .ok 0x40000000 ∧ (fp32.decode 0x7FC00000).isNan = true ∧
       (fp32.decode 0x40000000).isNan = false ∧ pairLt (0x3F800000, 0) (0x40000000, 0) = true ∧
       pairLt (0x3F800000, 0) (0x3F000000, 0) = false) ∧
    ∀ j c, 0 < j → (c = 2 * j + 1 ∨ c = 2 * j + 2) → c < 1 → pairLt (0, 0) (0, 0) = false := by
  refine ⟨?_, fun j c h₀ h₁ h₂ => by omega⟩
  dsimp only; and_intros <;> first | decide +kernel | exact ok (by decide +kernel)
/-- A tree of one node at the base of the own scratchpad, its row at 0x100 and a category set at 0x200. -/
def aTree (w0 w1 x count : Nat) : State :=
  ((((onThread 0 fun h => withS 3 (aliasBase + 0x100) (withS 2 aliasBase h)).spadWrite 0 0 0 (leBytes 4 w0)).spadWrite 0 0 4
    (leBytes 4 w1)).spadWrite 0 0 0x100 (leBytes 4 x)).spadWrite 0 0 0x200 (leBytes 4 count)

/-- Word `k` of the node. -/
def nodeWord (s : State) (k : Nat) : Nat := leNat ((s.spadBytes (secOf s.cur) 0 0 16).drop (4 * k) |>.take 4)

/-- The row's feature. -/
def rowValue (s : State) : Machine.Num := fp32.decode (leNat (s.spadBytes (secOf s.cur) 0 0x100 4))

/-- Each kind of node, a feature and a threshold that are NaN, a feature that names no category, one that equals the
count and one below it. -/
theorem witness_trees :
    (let s := aTree 0 0x3F800000 0x3F800000 0
     s.me.chain = [] ∧ s.rdS 1 = .ok 0 ∧ s.rdS 2 = .ok aliasBase ∧ s.rdS 3 = .ok (aliasBase + 0x100) ∧
       (0 : Word).getLsbD 31 = false ∧ (0x80000000 : Word).getLsbD 31 = true ∧ s.ownSpad (aliasBase + word (16 * 0)) 16 0 0 ∧
       s.ownSpad (aliasBase + 0x100 + word (4 * (nodeWord s 0 % 2 ^ 29))) 4 0 0x100 ∧ (rowValue s).isNan = false ∧
       (fp32.decode (nodeWord s 1)).isNan = false ∧ nodeWord s 0 / 2 ^ 30 = 0) ∧
    nodeWord (aTree 0x40000000 0 0 0) 0 / 2 ^ 30 = 1 ∧ nodeWord (aTree 0x80000000 0 0 0) 0 / 2 ^ 30 = 2 ∧
    (rowValue (aTree 0 0 0x7FC00000 0)).isNan = true ∧
    (let s := aTree 0x80000000 0x7FC00000 0 0
     (fp32.decode (nodeWord s 1)).isNan = true ∧ nodeWord s 0 / 2 ^ 30 < 3) ∧
    (let s := aTree 0xC0000000 0x200 0x3F800000 1
     nodeWord s 0 / 2 ^ 30 = 3 ∧ s.ownSpad (aliasBase + word (nodeWord s 1)) 4 0 0x200 ∧
       (rowValue s).category = some 1 ∧ leNat (s.spadBytes (secOf s.cur) 0 0x200 4) ≤ 1) ∧
    (let s := aTree 0xC0000000 0x200 0x3F800000 2
     1 < leNat (s.spadBytes (secOf s.cur) 0 0x200 4) ∧
       s.ownSpad (aliasBase + word (nodeWord s 1) + 4 + word (4 * (1 / 32))) 4 0 0x204) ∧
    (rowValue (aTree 0xC0000000 0x200 0xBF800000 2)).category = none := by
  dsimp only; and_intros <;> first | decide +kernel | exact ok (by decide +kernel)

/-- A digest slot that is free, one of another owner, and one that is bound; a log of the least size, and a full one. -/
theorem witness_digests :
    (let s := onMaster (withV .raw 0)
     s.me.chain = [] ∧ s.cur = .master 0 0 ∧ s.rdS 2 = .ok 0 ∧ s.rdV 1 = .ok ⟨.raw, 0, 0⟩) ∧
    (let s := (onVt id).modCluster 0 0 fun c => { c with digest := c.digest.set 0 ⟨some ⟨5, 7, 0⟩, [], none, 0⟩ }
     (s.ctx 0 0).digest = none ∧ ((s.cluster 0 0).digest.get 0).owner ≠ none ∧
       ((s.cluster 0 0).digest.get 0).owner = s.slotOwner 0 0) ∧
    (let s := onVt (withV .raw 0)
     s.me.chain = [] ∧ s.cur = .thread 0 0 ∧ s.rdV 1 = .ok ⟨.raw, 0, 0⟩ ∧ s.rdS 1 = .ok 0 ∧ (s.ctx 0 0).digest = none ∧
       ((s.cluster 0 0).digest.get 0).owner = none) ∧
    (let s := (onVt id).modCluster 0 0 fun c => { c with digest := c.digest.set 0 ⟨some ⟨9, 9, 9⟩, [], none, 0⟩ }
     ((s.cluster 0 0).digest.get 0).owner ≠ none ∧ ((s.cluster 0 0).digest.get 0).owner ≠ s.slotOwner 0 0) ∧
    (let s := ((onVt (withV .raw 0)).modCtx 0 0 fun c => { c with digest := some 7 }).modSec 0 fun c =>
      { c with dglogb := 16, dgP := 2 ^ 16 - 64 }
     (s.ctx 0 0).digest = some 7 ∧ (s.ctx 0 0).digest.isSome = true ∧ s.rdV 1 = .ok ⟨.raw, 0, 0⟩ ∧ s.rdS 2 = .ok 0 ∧
       s.drained s.cur = true ∧ (s.sec 0).dgP + 64 ≤ 2 ^ ((s.sec 0).dglogb.toNat % 64)) ∧
    (let s := (onVt id).modSec 0 fun c => { c with dglogb := 16, dgP := 2 ^ 16 }
     2 ^ ((s.sec 0).dglogb.toNat % 64) < (s.sec 0).dgP + 64) := by
  dsimp only; and_intros <;> first | decide +kernel | exact ok (by decide +kernel)

/-- A line with a legal spawn record, of one vt on one core. -/
def recordLine : Line :=
  { openLine 0 with data := [0x1000, 1, 0x10100010000, 0, 0, 0, 0, 0].flatMap (leBytes 8) ++ List.replicate 64 0 }

/-- A master core about to spawn, and a context about to spawn nested, beside a pool of instances. -/
def spawning (pool : List Inst) : State :=
  ((onMaster (withS 2 0x1000)).setLine (lineKey 0 0 0x1000) (some recordLine)).modSec 0 fun c => { c with insts := pool }
def nesting : State :=
  (withInst (fun i => { i with leases := [(0, 0x10000)] }) (onThread 0 (withS 2 0x1000))).setLine (lineKey 0 5 0x1000)
    (some recordLine)

/-- Without an entry, with one and every index taken, and with the first index free; and a context that may not nest. -/
theorem witness_spawnForms :
    (let s := spawning []
     s.me.chain = [] ∧ s.cur = .master 0 0 ∧ s.me.tx = none ∧ s.rdS 2 = .ok 0x1000 ∧ (∃ r, s.captureRegs = .ok r) ∧
       s.released true = .ok () ∧ ∃ r, s.readRecord 0x1000 false = .ok r ∧ (r.2.2.2.sec 0).insts.length < 1024 ∧
         (r.2.2.2.sec 0).poolWait = [] ∧ r.2.2.2.freeIndex 0 = some 0) ∧
    (let s := (spawning []).modSec 0 fun c => { c with poolWait := [anInst] }
     ∃ r, s.readRecord 0x1000 false = .ok r ∧ (r.2.2.2.sec 0).poolWait ≠ [] ∧ ∀ j ∈ (r.2.2.2.sec 0).insts, j.uid ≠ r.2.2.2.nextId) ∧
    (let s := nesting
     s.cur = .thread 0 0 ∧ ∃ r, s.readRecord 0x1000 true = .ok r ∧ (∀ j ∈ (r.2.2.2.sec 0).insts, j.uid ≠ r.2.2.2.nextId) ∧
         (∀ j ∈ (r.2.2.2.sec 0).insts, j.phase ≠ .waitIdx) ∧ r.2.2.2.freeIndex 0 = some 1) ∧
    (let s := withInst (fun i => { i with rcd := { i.rcd with nest := false } }) (onThread 0 (withS 2 0x1004))
     s.cur = .thread 0 0 ∧ s.me.tx = none ∧ s.rdS 2 = .ok 0x1004 ∧ placeOf s.cur (0x1004 : Word).toNat 64 = .ok (.app 0x1004) ∧
       (s.instOf s.cur).map (fun i => i.rcd.nest) = some false) ∧
    (let s := spawning (List.replicate 1024 anInst)
     ∃ r, s.readRecord 0x1000 false = .ok r ∧ (∀ j ∈ (r.2.2.2.sec 0).insts, j.uid ≠ r.2.2.2.nextId) ∧
       1024 ≤ (r.2.2.2.sec 0).insts.length) ∧
    (let s := spawning ((List.range 64).map fun k => { anInst with idx := some (Fin.ofNat 64 k) })
     ∃ r, s.readRecord 0x1000 false = .ok r ∧ (r.2.2.2.sec 0).insts.length < 1024 ∧ r.2.2.2.freeIndex 0 = none) := by
  dsimp only; and_intros <;>
    first
      | (show ∃ _, _; first |
          exact okEx (by decide +kernel) | exact okP (fun _ => decide _) (fun _ => of_decide_eq_true) (by decide +kernel))
      | decide +kernel | exact ok (by decide +kernel)

/-- The states of an instance and of its vt that the other forms tell apart. -/
theorem witness_joins :
    (let s := onMaster (withS 2 0x400)
     s.me.chain = [] ∧ s.me.tx = none ∧ s.rdS 2 = .ok 0x400 ∧ s.rdS 0 = .ok 0 ∧
       ∀ i ∈ (s.sec 0).insts, i.idx = none ∨ i.handle ≠ 0x400) ∧
    (let s := withInst (fun i => { i with owner := .vt ⟨7, 0⟩, final := some .done }) (openRelease (onThread 0 id))
     (∃ i, s.byHandle 0x400 true = .ok i ∧ i.final = some .done) ∧
       ({ s with flight := [{ aFlight 9 1 (.push 0 [1]) with rel := true, actor := s.actor s.cur 0 }] }.releaseOpen s.cur) = true) ∧
    (let s := withInst id (onMaster fun h => withS 3 6143 (withS 2 6144 h))
     s.byHandle 0x400 true = .ok anInst ∧ anInst.final = none ∧ s.rdS 2 = .ok 6144 ∧ 6144 ≤ (6144 : Word).toNat ∧
       s.rdS 3 = .ok 6143 ∧ (6143 : Word).toNat < 6144 ∧ s.resume 0 anInst 6143 false = none ∧
       s.byHandle 0x400 false = .ok anInst ∧ s.vtOf s.cur = none) ∧
    (let s := withInst (fun i => { i with final := some .done }) State.reset
     s.byHandle 0x400 true = .ok { anInst with final := some .done }) ∧
    (let s := (withInst id State.reset).modHart (.thread 0 0) fun h => { h with park := some (.fault 8) }
     s.vtAt 0 0 = some ⟨7, 0⟩ ∧ (s.hart (ctxAgent 0 0)).park = some (.fault 8) ∧ anInst.uid = 7) ∧
    (let s := onVt id
     s.byHandle 0x400 false = .ok anInst ∧ s.vtOf s.cur = some ⟨7, 0⟩ ∧
       (s.descendants 0 1024 [anInst.uid]).contains 7 = true) ∧
    (let s := (onVt id).modSec 0 fun c =>
      { c with insts := [anInst, { anInst with uid := 8, handle := 0x401, idx := some 1, owner := .vt ⟨7, 0⟩, vts := [] }] }
     (∃ i, s.byHandle 0x401 false = .ok i ∧ i.uid = 8) ∧ s.vtOf s.cur = some ⟨7, 0⟩ ∧
       (s.descendants 0 1024 [8]).contains 7 = false) := by
  dsimp only; and_intros <;>
    first
      | (show ∃ _, _; exact okP (fun _ => decide _) (fun _ => of_decide_eq_true) (by decide +kernel))
      | decide +kernel | exact ok (by decide +kernel)

theorem witness_zenithForms :
    (State.reset.me.chain = [] ∧ State.reset.me.tx = none ∧ State.reset.rdS 1 = .ok 0x00FF000000000000 ∧
      State.reset.released (isRel .ar) = .ok () ∧ State.reset.zInst false = .error (.flt ⟨9, 3, 0, 0, 0⟩)) ∧
    (let s := onVt id
     s.zInst false = .ok anInst ∧ s.zInst true = .ok anInst ∧ s.zBusy s.cur 2 = false ∧ s.rdS (succ16 1) = .ok 0 ∧
       s.me.pBusy.get 3 = false ∧ s.zFinal = none ∧ (isAcq .ar && s.releaseOpen s.cur) = false ∧
       s.released (isRel .ar) = .ok ()) ∧
    (let s := onVt fun h => { h with pBusy := h.pBusy.set 3 true }
     s.me.pBusy.get 3 = true ∧ s.zInst false = .ok anInst ∧
       (isAcq .ar && ({ s with flight := [{ aFlight 9 1 (.push 0 [1]) with rel := true, actor := s.actor s.cur 0 }] }.releaseOpen s.cur))
         = true) ∧
    (let s := { onVt (emptyS 2 true) with
       zreqs := [⟨3, 0, .thread 0 0, some ⟨7, 0⟩, 7, 1, .get, some 2, false, false⟩]
       flight := [{ aFlight 9 1 (.push 0 [1]) with actor := (onVt id).actor (.thread 0 0) 0 }] }
     s.zBusy s.cur 2 = true ∧ isRel .ar = true ∧ s.drained s.cur = false ∧ s.zInst false = .ok anInst) ∧
    (let s := State.reset.modMaster 0 0 fun m => { m with finalZ := some (Vector.replicate 16 5) }
     s.zFinal = some (Vector.replicate 16 5)) ∧
    (let r : ZReq := { id := 3, sec := 0, agent := .thread 0 0, vt := some ⟨7, 0⟩, uid := 7, z := 15, op := .get, d := some 2, rel := false, acq := true }
     let s := { withInst id (onThread 0 (emptyS 2 true)) with zreqs := [r] }
     s.zreqs = [r] ∧ r.z = 15 ∧ r.d = some 2 ∧ (s.sec 0).insts = [anInst] ∧
       ((s.hart r.agent).s.get 2).claimed = true) := by
  dsimp only; and_intros <;> first | decide +kernel | exact ok (by decide +kernel) | exact err (by decide +kernel)
/-- On a master core; a vt at home that may leave, to another cluster and to its own; one away from home; one with an
empty register, and one with vector state; and a word to sleep on. -/
theorem witness_threadControl :
    (State.reset.me.chain = [] ∧ State.reset.cur = .master 0 0) ∧
    (let s := onVt fun h => withS 3 0xFF00000017C00000 (withS 2 95 (withS 1 96 h))
     s.me.chain = [] ∧ s.cur = .thread 0 0 ∧ s.me.tx = none ∧ s.vtAt 0 0 = some ⟨7, 0⟩ ∧ s.released true = .ok () ∧
       (s.ctx 0 0).extFrom = none ∧ s.rdS 1 = .ok 96 ∧ 95 < (96 : Word).toNat ∧ s.drained s.cur = true ∧
       s.enginesIdle s.cur = true ∧ s.rdS 2 = .ok 95 ∧ (95 : Word).toNat ≤ 95 ∧ s.rdS 3 = .ok 0xFF00000017C00000 ∧
       placeOf s.cur 0xFF00000017C00000 1 = .ok (.spad 95 0) ∧ (∀ r : Fin 16, (s.me.s.get r).full = true) ∧
       s.vectorEmpty 0 0 = true ∧ Fin.ofNat 96 95 ≠ clusterOf 0 ∧ clusterOf (s.homeIdx 0 0) = clusterOf 0 ∧
       s.homeIdx 0 0 = 0 ∧ s.slotUp 0 0 = true ∧ (s.ctx 0 0).reserved = none ∧ (s.ctx 0 0).drawAfter = none ∧
       s.isFenced 0 (chipletOf 95) = false ∧ s.releaseOpen s.cur = false) ∧
    (let s := (onVt id).modCtx 0 0 fun c => { c with homec := 65 }
     s.homeIdx 0 0 = 65 ∧ clusterOf 65 ≠ clusterOf 0 ∧ s.vectorEmpty 0 0 = true) ∧
    (let s := ((onVt id).modCtx 0 0 fun c => { c with homec := 63 }).modCtx 0 63 fun c => { c with reserved := some ⟨7, 0⟩ }
     s.homeIdx 0 0 = 63 ∧ clusterOf 63 = clusterOf 0 ∧ (0 : Nat) ≠ 63 ∧ 63 < 6144 ∧ (s.ctx 0 63).reserved = some ⟨7, 0⟩ ∧
       (s.ctx 0 63).holds = .released ∧ s.slotUp 0 63 = true) ∧
    (let s := ((onVt id).modCtx 0 0 fun c => { c with homec := 63 }).modCtx 0 63 fun c => { c with reserved := some ⟨7, 1⟩ }
     (s.ctx 0 63).reserved ≠ some ⟨7, 0⟩ ∧ (s.ctx 0 63).reserved ≠ none) ∧
    (let s := (onVt id).modCtx 0 0 fun c => { c with extFrom := some 5 }
     (s.ctx 0 0).extFrom = some 5) ∧
    (let s := onVt (emptyS 9 false)
     s.vtAt 0 0 = some ⟨7, 0⟩ ∧ ¬∀ r : Fin 16, (s.me.s.get r).full = true) ∧
    (let s := onVt (withV .i32 0)
     (∀ r : Fin 16, (s.me.s.get r).full = true) ∧ s.vectorEmpty 0 0 = false) ∧
    (let s := (onVt (withS 1 0x10000)).setLine (lineKey 0 5 0x10000) (some (openLine 0))
     s.rdS 1 = .ok 0x10000 ∧ s.rdS 2 = .ok 0 ∧ s.rdS 1 ≠ .ok 0 ∧ placeOf s.cur 0x10000 8 = .ok (.app 0x10000) ∧
       s.releaseOpen s.cur = false ∧ ∃ r, s.loadNat 0x10000 8 true = .ok r ∧ word r.1 = 0) ∧
    (let s := openRelease (onVt (withS 1 0x10000))
     s.rdS 1 = .ok 0x10000 ∧ s.rdS 2 = .ok 0 ∧ s.releaseOpen s.cur = true ∧ s.drained s.cur = false ∧
       placeOf s.cur 0x10000 8 = .ok (.app 0x10000)) ∧
    (placeOf (onVt id).cur 0xFF00000000400000 8 = .ok (.spad 1 0) ∧
      placeOf (onVt id).cur 0xFF800000005F3F78 8 = .ok (.reg 6143 15) ∧
      (onVt (withS 1 0x10000)).rdS 1 = .ok 0x10000 ∧ placeOf (onVt id).cur 0x10000 1 = .ok (.app 0x10000)) ∧
    (let s := (onVt id).modCtx 0 0 fun c => { c with homec := 63 }
     (0 : Nat) ≠ s.homeIdx 0 0 ∧ (s.ctx 0 0).drawAfter = none ∧ (s.ctx 0 0).extFrom = none) := by
  dsimp only; and_intros <;>
    first
      | (show ∃ _, _; exact okP (fun _ => decide _) (fun _ => of_decide_eq_true) (by decide +kernel))
      | decide +kernel | exact ok (by decide +kernel) | exact fun h => nomatch h

/-- The edges of the numbers without a register, and of the privileged ones; both levels of a master core. -/
theorem witness_readSpecial :
    (State.reset.me.chain = [] ∧ 0x10C < (0x10D : BitVec 12).toNat ∧ 0x10C < (0xFFF : BitVec 12).toNat ∧
      (0x12 < (0x13 : BitVec 12).toNat ∧ (0xFF : BitVec 12).toNat < 0x100) ∧ (4 < (5 : BitVec 12).toNat ∧
      (7 : BitVec 12).toNat < 8) ∧ (11 < (12 : BitVec 12).toNat ∧ (15 : BitVec 12).toNat < 16)) ∧
    (let s := onThread 6143 id
     s.cur = .thread 0 6143 ∧ 0x100 ≤ (0x100 : BitVec 12).toNat ∧ (0x10C : BitVec 12).toNat ≤ 0x10C) ∧
    (State.reset.cur = .master 0 0 ∧ (State.reset.master 0 0).sys = true) ∧
    (let s := State.reset.modMaster 0 0 fun m => { m with sys := false }
     s.cur = .master 0 0 ∧ (s.master 0 0).sys = false) := by
  dsimp only; and_intros <;> decide +kernel

theorem witness_writeSpecial :
    (State.reset.me.chain = [] ∧ State.reset.rdS 0 = .ok 0 ∧ State.reset.cur = .master 0 0 ∧
      (State.reset.master 0 0).sys = true ∧ State.reset.drained State.reset.cur = true ∧
      State.reset.enginesIdle State.reset.cur = true ∧ (BitVec.allOnes 64).getLsbD 4 = true ∧
      (0x3FF0000 : Word).getLsbD 4 = false ∧ (95 : Fin 96).val = ((0x5F00000000 : Word).extractLsb' 32 7).toNat) ∧
    (let s := onThread 0 (withS 2 0xFFFFFFFFFFFFFFFF)
     s.rdS 2 = .ok 0xFFFFFFFFFFFFFFFF ∧ s.cur = .thread 0 0) ∧
    (let s := State.reset.modSec 0 fun c => { c with hxDbo := true }
     (0x300000000 : Word).getLsbD 32 = true ∧ (s.sec 0).hxDbo = true) ∧
    ((1 : BitVec 16) ≠ 0 ∧ (1 : Sec) ≠ 0) := by
  dsimp only; and_intros <;> first | decide +kernel | exact ok (by decide +kernel)

/-- A fault inside a chain; returns to the last address, beyond it, and to one that is no multiple of 4; a chiplet loss
and an IRQ that are pending, and an agent parked at `wfi`. -/
theorem witness_exceptions :
    (State.reset.cur = .master 0 0 ∧ State.reset.me.tx = none ∧ State.reset.me.chain = [] ∧ 0x16 ≠ 0x0E) ∧
    (let s := onVt id
     s.cur = .thread 0 0 ∧ s.me.tx = none ∧ s.me.chain = []) ∧
    (let s := ((onVt id).bootTables 0 5 0x10900000).setLine (lineKey 0 5 0x10900000) (some (openLine 0))
     s.instOf s.cur = some anInst ∧ aRecord.save % 65536 = 0 ∧ aRecord.save + 0x1000000 ≤ 2 ^ 56 ∧
       (∃ r, s.translateAs 0 5 0x10900000 false = .ok r) ∧ s.line (lineKey 0 5 0x10900000) = some (openLine 0) ∧
       (openLine 0).data.length = 128) ∧
    (let s := State.reset.modMaster 0 0 fun m => { m with epc := 0x00FFFFFFFFFFFFFC }
     (s.master 0 0).sys = true ∧ (s.master 0 0).epc.toNat < 2 ^ 56 ∧ (s.master 0 0).epc.toNat % 4 = 0) ∧
    (let s := State.reset.modMaster 0 0 fun m => { m with epc := 0x0100000000000000 }
     2 ^ 56 ≤ (s.master 0 0).epc.toNat) ∧
    (let s := State.reset.modMaster 0 0 fun m => { m with epc := 0x00FFFFFFFFFFFFFE }
     (s.master 0 0).epc.toNat < 2 ^ 56 ∧ (s.master 0 0).epc.toNat % 4 ≠ 0) ∧
    (State.reset.modMaster 0 0 fun m => { m with sys := false }).master 0 0 = { Master.reset with sys := false } ∧
    ((State.reset.master 0 0).ie = false ∧ (State.reset.master 0 0).chl = none ∧ (State.reset.master 0 0).irqs = []) ∧
    (let s := (State.reset.modMaster 0 0 fun m => { m with ie := true, chl := some ⟨1, 0x200⟩ }).modHart (.master 0 0) fun h =>
      { h with park := some .wfi }
     (s.master 0 0).ie = true ∧ s.inService (.master 0 0) = true ∧ (s.hart (.master 0 0)).tx = none ∧
       (s.hart (.master 0 0)).park = some .wfi ∧ (s.master 0 0).chl = some ⟨1, 0x200⟩ ∧ (s.master 0 0).nextAcquires = true ∧
       s.releaseOpen (.master 0 0) = false) ∧
    (let s := openRelease (State.reset.modMaster 0 0 fun m => { m with ie := true, chl := some ⟨1, 0x200⟩ })
     (s.master 0 0).nextAcquires = true ∧ s.releaseOpen (.master 0 0) = true) ∧
    (let s := State.reset.modMaster 0 0 fun m => { m with ie := true, irqs := [(1, some 5), (14, some 6)] }
     (s.master 0 0).ie = true ∧ (s.master 0 0).chl = none ∧ (s.master 0 0).irqs = (1, some 5) :: [(14, some 6)] ∧
       s.inService (.master 0 0) = true ∧ (s.hart (.master 0 0)).park = none ∧
       ((s.master 0 0).nextAcquires && s.releaseOpen (.master 0 0)) = false) := by
  dsimp only; and_intros <;> first
      | (show ∃ _, _; exact okEx (by decide +kernel))
      | decide +kernel


/-- The edges of the targets of `ipi`. -/
theorem witness_systemForms :
    (∀ x k, (onThread 0 id).cur = .master x k → ((onThread 0 id).master x k).sys = false) ∧
    (let s := onMaster fun h => withS 3 65536 (withS 2 0 h)
     s.me.chain = [] ∧ s.cur = .master 0 0 ∧ (s.master 0 0).sys = true ∧ s.me.tx = none ∧ (s.master 0 0).chl = none ∧
       (s.master 0 0).irqs = [] ∧ (s.master 0 0).tlbis = [] ∧ s.rdS 2 = .ok 0 ∧ s.rdS (succ16 2) = .ok 65536 ∧
       s.rdS 4 = .ok 0 ∧ s.tlbiFaults 0 0 65536 (some 0) = [] ∧ s.tlbiFaults 0 0 65536 none = []) ∧
    (let s := (mapped id).modSec 0 fun c =>
       { c with tlb := [(pageKey 0 0, some ⟨0x40000, ⟨true, true, true, true, false⟩, false, false, false, 0⟩)] }
     s.sealFaults 0 0 0 65536 = [] ∧ (∃ fs, s.pageFrames 0 0 0 1 = .ok fs) ∧
       ∃ bs, s.rangeBytes 0 0 0 (65536 / 128) = .ok bs) ∧
    (let s := (mapped id).setLine (lineKey 0 0 0) (some { openLine 0 with poison := true })
     s.sealFaults 0 0 0 65536 = [] ∧ (∃ fs, s.pageFrames 0 0 0 1 = .ok fs) ∧
       s.rangeBytes 0 0 0 (65536 / 128) = .error (0, .mce 3)) ∧
    (let s := State.reset.modMaster 0 0 fun m => { m with irqs := [(3, some 0)], tlbis := [4] }
     (s.master 0 0).irqs ≠ [] ∧ (s.master 0 0).tlbis ≠ []) ∧
    (let s := (onMaster fun h => withS 3 0x803C (withS 2 0x17F8 h)).modSec 0 fun c => { c with spillq := 0x10000 }
     s.rdS 3 = .ok 0x803C ∧ (0x803C : Word).toNat = 65536 * 0 + 32768 + 4 * 15 ∧ s.released true = .ok () ∧
       s.rdS 2 = .ok 0x17F8 ∧ (0x17F8 : Word).toNat = 65536 * 0 + 64 * 95 + 8 * 7 ∧
       (s.sec 0).spillq.toNat / 2 ^ 16 % 2 ^ 36 ≠ 0 ∧ (1 : Word).toNat % 16 = 1 ∧ (2 : Word).toNat % 16 = 2 ∧
       3 ≤ (3 : Word).toNat % 16 ∧ (0x10000 : Word).toNat / 65536 ≠ 0) := by
  refine ⟨fun x k h => (nomatch h), ?_⟩
  dsimp only; and_intros <;> first
      | (show ∃ _, _; exact okEx (by decide +kernel))
      | decide +kernel | exact ok (by decide +kernel) | exact err (by decide +kernel)
/-- A configuration of the integer class, one of the FP8 class, both of 128 by 128 by 64. -/
def intCfg : Word × Word := (word (1 + 1 * 2 ^ 4 + 2 ^ 8 + 127 * 2 ^ 12 + 127 * 2 ^ 19), word (64 + 128 * 2 ^ 24))
def fp8Cfg : Word × Word := (word (10 + 10 * 2 ^ 4 + 127 * 2 ^ 12 + 127 * 2 ^ 19), word (64 + 128 * 2 ^ 24))

/-- A vt with a configuration, the base of its scratchpad in s1 and s2, 0x10000 behind it in s3. -/
def matrixVt (c : Word × Word) (f : Hart → Hart) : State :=
  (onVt fun h => f (withS 3 (aliasBase + 0x10000) (withS 2 aliasBase (withS 1 aliasBase h)))).modCtx 0 0 fun q =>
    { q with mxcfg := some c }

/-- A shape record of a stored matrix of 128 by 128, dense or of pattern blocks of slot 3. -/
def denseRecord : List Nat :=
  [0xFF40000000010000, 128 + 128 * 2 ^ 32, 128 + 10 * 2 ^ 24, 0, 0, 1 * 2 ^ 4, 0xFF40000000020000, 0]
def patternRecord : List Nat :=
  [0xFF40000000010000, 128 + 128 * 2 ^ 32, 10 * 2 ^ 24 + 2 * 2 ^ 28 + 3 * 2 ^ 30, 0, 0, 1 * 2 ^ 4, 0xFF40000000020000, 0]

/-- A vt whose scratchpad holds a shape record at 0x1000, bound to slot 3. -/
def sparseVt (ws : List Nat) : State :=
  ((matrixVt fp8Cfg fun h => withS 5 0 (withS 4 (aliasBase + 0x1000) h)).spadWrite 0 0 0x1000 (ws.flatMap (leBytes 8))).modCtx
    0 0 fun q => { q with cirrus := some 3 }

theorem witness_matrixForms :
    (let s := matrixVt intCfg fun h => withS 6 fp8Cfg.2 (withS 5 fp8Cfg.1 h)
     s.me.chain = [] ∧ s.cur = .thread 0 0 ∧ s.me.tx = none ∧ s.rdPair 5 = .ok fp8Cfg ∧ s.mxBusy s.cur = false ∧
       mxLegal fp8Cfg = true ∧ mxLegal intCfg = true ∧ (s.ctx 0 0).mxcfg = some intCfg ∧ reshapes intCfg fp8Cfg = true ∧
       reshapes intCfg intCfg = false ∧ (s.ctx 0 0).accLive.get 0 = false ∧ (s.ctx 0 0).accLive.get 1 = false) ∧
    ((onVt id).ctx 0 0).mxcfg = none ∧ mxLegal (0, 0) = false ∧
    (let s := (matrixVt intCfg id).modCtx 0 0 fun q => { q with accLive := q.accLive.set 1 true }
     (s.ctx 0 0).accLive.get 1 = true) ∧
    (let s := (onVt id).modCluster 0 0 fun c =>
      { c with mx := c.mx.set 0 [(onVt id).mxCmd .zero false (0, 0) ((onVt id).actor (.thread 0 0) 1)] }
     s.mxBusy s.cur = true) ∧
    (let s := matrixVt intCfg id
     s.jobSpace ∧ ((s.cluster 0 (clusterOf 0)).mx.get (coreOf 0)).length < 4 ∧ s.rdS 1 = .ok aliasBase ∧
       ownOperand s.cur aliasBase.toNat 65536 128 true = [] ∧ s.mxPred 0 0 false = .ok true ∧
       s.rdS (succ16 1) = .ok aliasBase ∧ outFaults s.cur .st (mxShape intCfg) 4 aliasBase.toNat 512 = [] ∧
       aFaults s.cur (mxShape intCfg) aliasBase.toNat aliasBase.toNat = [] ∧
       bFaults s.cur (mxShape intCfg) aliasBase.toNat aliasBase.toNat = [] ∧
       (∃ v, s.rdSecond 1 (blockTag (mxShape intCfg).af) = .ok v) ∧
       s.readIndexList (mxShape intCfg) aliasBase.toNat = ([], none, List.replicate 128 0, s) ∧
       gatherFaults s.cur (mxShape intCfg) aliasBase.toNat (List.replicate 128 0) = []) ∧
    (let s := matrixVt fp8Cfg id
     outFaults s.cur .scale (mxShape fp8Cfg) 0 aliasBase.toNat 0 = [] ∧
       outFaults s.cur .stq (mxShape fp8Cfg) 13 aliasBase.toNat 0x1000000080 = []) ∧
    (let s := sparseVt denseRecord
     s.rdS 4 = .ok (aliasBase + 0x1000) ∧ s.rdS (succ16 4) = .ok 0 ∧
       s.readShape (aliasBase + 0x1000) = ([], none, some (denseRecord, s)) ∧
       recFault s.cur (mxShape fp8Cfg) (shapeRec denseRecord) (s.ctx 0 0).cirrus = none ∧
       tileFaults s.cur (mxShape fp8Cfg) (shapeRec denseRecord) 0 = [] ∧
       tileOk (mxShape fp8Cfg) (shapeRec denseRecord) ((0 : Word).toNat % 2 ^ 32) ((0 : Word).toNat / 2 ^ 32) = true ∧
       recFault s.cur (mxShape fp8Cfg) (shapeRec (denseRecord.set 6 0)) (s.ctx 0 0).cirrus = some (flt cSHP subRec)) ∧
    (let s := sparseVt patternRecord
     (shapeRec patternRecord).kind = 2 ∧ s.readShape (aliasBase + 0x1000) = ([], none, some (patternRecord, s)) ∧
       recFault s.cur (mxShape fp8Cfg) (shapeRec patternRecord) (s.ctx 0 0).cirrus = none ∧
       tileFaults s.cur (mxShape fp8Cfg) (shapeRec patternRecord) 0 = []) ∧
    (let s := matrixVt fp8Cfg fun h => { h with q := Vector.replicate 4 ⟨0, false⟩ }
     s.mxPred 0 2 true = .ok false ∧ s.rdQ 2 = .ok 0 ∧ s.ownSpad aliasBase 16 0 0) ∧
    (let s := openRelease ((matrixVt intCfg id).modCluster 0 0 fun c => { c with channels := c.channels.set 0 ⟨true, 254, 2, 256⟩ })
     s.rdS (succ16 1) = .ok aliasBase ∧ ownOperand s.cur aliasBase.toNat (2 * (mxShape intCfg).m) 2 false = [] ∧
       (s.inOpen 0 (clusterOf 0) (aliasBase.toNat % 0x400000) (2 * (mxShape intCfg).m) && s.releaseOpen s.cur) = true ∧
       (∃ v, s.rdSecond 2 (blockTag (mxShape intCfg).bf) = .ok v) ∧ s.rdS (succ16 2) = .ok (aliasBase + 0x10000)) ∧
    (let s := (sparseVt denseRecord).modMe (withS 2 (aliasBase + 0x8000))
     s.rdS (succ16 1) = .ok (aliasBase + 0x8000) ∧ s.rdS (succ16 4) = .ok 0 ∧
       s.readIndexList (mxShape fp8Cfg) (aliasBase + 0x8000).toNat = ([], none, List.replicate 128 0, s) ∧
       gatherFaults s.cur (mxShape fp8Cfg) aliasBase.toNat (List.replicate 128 0) = [] ∧
       s.readShape (aliasBase + 0x1000) = ([], none, some (denseRecord, s))) := by
  dsimp only; and_intros <;>
    first
      | (show ∃ _, _; exact okEx (by decide +kernel))
      | decide +kernel | exact ok (by decide +kernel) | (unfold State.jobSpace; decide +kernel)

/-- The last element of the largest tile, and a tile of one element. -/
theorem witness_integerSums :
    (let h := mxShape intCfg
     h.int = true ∧ h.m ≤ 128 ∧ h.n ≤ 128 ∧ (List.replicate 128 (List.replicate 64 127)).length = h.m ∧
       (List.replicate 128 (List.replicate 64 128)).length = h.n ∧
       (∀ r ∈ List.replicate 128 (List.replicate 64 127), r.length = h.k) ∧
       (∀ r ∈ List.replicate 128 (List.replicate 64 128), r.length = h.k)) ∧
    (List.replicate 16384 0).length = 16384 ∧ 127 < 128 :=
  ⟨by decide +kernel, List.length_replicate .., by decide⟩

/-- A cluster of which core 0 has a command that has used its time, with the visit's last step to go or a visit over. -/
def engine (left : Option Nat) (steps : Nat) (flt : Option Flt := none) : State :=
  (onVt id).modCluster 0 0 fun c =>
    { c with mx := c.mx.set 0 [{ (onVt id).mxCmd .zero false (0, 0) ((onVt id).actor (.thread 0 0) 1) with
        left := left, flt := flt }]
             stepsLeft := steps }

/-- Accumulator 0 of core 0 of cluster 0 is live, and belongs to the vt with home context 1. -/
def tagged : State := (onVt id).setAccTag 0 0 0 0 (some ⟨⟨5, 7, 1⟩, true⟩)

theorem witness_engineSteps :
    (let s := engine (some 0) 1
     s.unitsRun 0 = true ∧ s.isFenced 0 (chipletOf 0) = false ∧ (s.cluster 0 0).budget = 0 ∧
       0 < (s.cluster 0 0).stepsLeft ∧ (s.cluster 0 0).visit = 0 ∧
       ∃ h, s.mxHead 0 0 0 = some h ∧ s.mxRunnable 0 0 h = true ∧ h.left = some 0 ∧ h.flt = none ∧
         (s.mxEffect 0 0 0 h).2.2.any Flt.waits = false) ∧
    (∃ h, (engine (some 0) 1 (some ⟨0, 0, 0, 0, 0⟩)).mxHead 0 0 0 = some h ∧ h.flt = some ⟨0, 0, 0, 0, 0⟩ ∧
      h.flt.any Flt.waits = true) ∧
    (let s := engine none 0
     (s.cluster 0 0).stepsLeft = 0 ∧ (∃ h, s.mxHead 0 0 0 = some h ∧ s.mxRunnable 0 0 h = true) ∧
       ∀ k : Fin 8, ¬(k.val + 8 - (s.cluster 0 0).visit.val) % 8 < ((0 : Fin 8).val + 8 - (s.cluster 0 0).visit.val) % 8) ∧
    (∀ k : Fin 8, (onVt id).mxHead 0 0 k = none) := by
  refine ⟨⟨?_, ?_, ?_, ?_, ?_, _, rfl, ?_, rfl, rfl, ?_⟩, ⟨_, rfl, rfl, ?_⟩, ⟨?_, ⟨_, rfl, ?_⟩, ?_⟩, ?_⟩ <;>
    decide +kernel

theorem witness_engineSteps_slots :
    (tagged.accTag 0 0 0 0 = some ⟨⟨5, 7, 1⟩, true⟩ ∧ (tagged.inst 0 7).isSome = true ∧
      ∀ (o' : Fin 96) (k' : Fin 8), (tagged.accTag 0 o' k' 0).isSome = true → o' = 0 ∧ k' = 0) ∧
    (let h := tagged.mxCmd .zero false (0, 0) (tagged.actor (.thread 0 0) 1)
     h.actor.accOwner = some ⟨5, 7, 0⟩ ∧ (⟨5, 7, 1⟩ : SlotOwner) ≠ ⟨5, 7, 0⟩ ∧
       tagged.accIsLive 0 0 0 h.actor h.n = false ∧ tagged.accTag 0 0 0 h.n = some ⟨⟨5, 7, 1⟩, true⟩ ∧
       (onVt id).accTag 0 0 0 h.n = none) := by
  dsimp only; and_intros <;> decide +kernel

/-- A run at its last step but none, over one block row of nine columns. -/
def aRun (inverse : Bool) : GenRun :=
  let slot := { CirrusSlot.reset with prog := [0x68000000, 0x68000000], nr := 1, nc := 9 }
  let r := GenRun.start (.query (.thread 0 0) 1 0 ⟨0, true, false⟩ false) slot inverse 0 2 5 4 none 4095 0
  { r with index := 0 }

theorem witness_cirrusWords :
    (let s := { State.reset with gen := some (aRun false), agenda := [.cirrus 0x68000000] }
     s.gen = some (aRun false) ∧ (aRun false).finished = false ∧ (aRun false).steps < 4096) ∧
    (let r := aRun false
     r.rank = none ∧ r.inverse = false ∧ r.slot.nc.toNat ≤ 9 ∧ 8 < r.slot.nc.toNat ∧ r.prev = none ∧ r.vlo ≠ 0 ∧
       r.vhi < 6 ∧ 1 < r.vlo ∧ 1 ≤ r.vhi ∧ r.vlo ≤ 2 ∧ 5 ≤ r.vhi) ∧
    (let r := { aRun false with prev := some (3, 1) }
     r.prev = some (3, 1) ∧ (3 : Nat) ≤ 3 ∧ (2 : Nat) ≠ 2 + 1 ∧ 3 < 4 ∧ 2 = 1 + 1) ∧
    (let r := aRun true
     r.rank = none ∧ r.inverse = true ∧ r.v = 4 ∧ r.answer = none ∧ 5 ≠ r.v) ∧
    4096 ≤ { aRun false with steps := 4096 }.steps ∧ ((aRun false).src (.k 0)).toNat < (1 : BitVec 17).toNat ∧
    (let r := aRun false
     (r.src (.c 1)).toNat ≤ (r.src (.c 1)).toNat ∧ (r.src (.k 0)).toNat ≤ (r.src (.c 1)).toNat ∧
       (3 : BitVec 17).toNat = (r.src (.c 1)).toNat + 1 ∧ (r.src .nr).toNat = (r.src (.k 0)).toNat + 1) := by
  dsimp only; and_intros <;> decide +kernel

/-- A slot with a program that has an inverse section: empty, and of one word. -/
def boundSlot (prog : List Nat) : State :=
  let s := (onVt fun h => withS 5 1 (withS 4 aliasBase (withS 3 0x100000000 (withS 2 12 (withS 1 11 h))))).modCtx 0 0 fun q =>
    { q with cirrus := some 7 }
  let slot := { CirrusSlot.reset with owner := s.slotOwner 0 0, prog := prog, inv := some 0, nr := 1, nc := 1 }
  s.modCluster 0 0 fun c => { c with cirrus := c.cirrus.set 7 slot }

theorem witness_patternForms :
    (State.reset.me.chain = [] ∧ State.reset.cur = .master 0 0) ∧
    (let s := (onVt (withS 1 aliasBase)).spadWrite 0 0 0 (leBytes 4 1 ++ leBytes 4 0x68000000)
     s.me.chain = [] ∧ s.cur = .thread 0 0 ∧ s.me.tx = none ∧ s.rdS 2 = .ok 0 ∧ s.bindingBusy s.cur = false ∧
       (s.ctx 0 0).cirrus = none ∧ ((s.cluster 0 0).cirrus.get 0).owner = none ∧ s.rdS 1 = .ok aliasBase ∧
       aliasBase.toNat % 4 = 0 ∧ s.readImage aliasBase = .ok ([0x68000000], none, s)) ∧
    (let s := (onVt id).modCluster 0 0 fun c =>
      { c with cirrus := c.cirrus.set 0 { CirrusSlot.reset with owner := some ⟨9, 9, 9⟩ } }
     ((s.cluster 0 0).cirrus.get 0).owner ≠ none ∧ ((s.cluster 0 0).cirrus.get 0).owner ≠ s.slotOwner 0 0) ∧
    (let s := boundSlot [0x60000000]
     let slot := (s.cluster 0 (clusterOf 0)).cirrus.get 7
     (s.ctx 0 0).cirrus = some 7 ∧ (7 : Fin 8) ≠ 6 ∧ slot.owner ≠ none ∧ slot.owner = s.slotOwner 0 0 ∧
       s.bindingBusy s.cur = false ∧ s.rdS 2 = .ok 12 ∧ 11 < (12 : Word).toNat ∧ s.rdS 1 = .ok 11 ∧ (11 : Word).toNat ≤ 11 ∧
       s.jobSpace ∧ ((s.cluster 0 (clusterOf 0)).mx.get (coreOf 0)).length < 4 ∧ s.rdPair 4 = .ok (aliasBase, 1) ∧
       s.rdPair 3 = .ok (0x100000000, aliasBase) ∧ 1 ≤ (1 : Word).toNat ∧ (1 : Word).toNat ≤ 262143 ∧
       1 ≤ (0x100000000 : Word).toNat / 2 ^ 32 ∧
       (0x100000000 : Word).toNat % 2 ^ 32 + (0x100000000 : Word).toNat / 2 ^ 32 ≤ slot.nr.toNat ∧
       ownOperand s.cur aliasBase.toNat (8 + 8 * (1 : Word).toNat) 8 false = [] ∧ slot.inv ≠ none ∧
       slot.nr.toNat ≤ (1 : Word).toNat % 2 ^ 32 ∧ slot.nc.toNat ≤ (0x100000000 : Word).toNat / 2 ^ 32 ∧
       (0 : Word).toNat % 2 ^ 32 < slot.nr.toNat ∧ (0 : Word).toNat / 2 ^ 32 < slot.nc.toNat ∧ s.genFree = true ∧
       (s.me.s.get 0).claimed = false ∧
       (GenRun.start (.query s.cur 0 s.curWord (s.me.s.get 0) (s.me.unread.contains 0)) slot true 0 0 0 0 none 0 0).finished = true) ∧
    (let s := boundSlot [0x60000000]
     let t := s.modCluster 0 0 fun c =>
       { c with mx := c.mx.set 0 [{ s.mxCmd .zero false (0, 0) (s.actor (.thread 0 0) 1) with bind_ := some 7 }] }
     (t.ctx 0 0).cirrus = some 7 ∧ t.bindingBusy t.cur = true ∧ t.rdS 2 = .ok 12 ∧ t.rdS 4 = .ok aliasBase) ∧
    (let s := boundSlot [0x60000000, 0x68000000]
     (GenRun.start (.query s.cur 0 s.curWord (s.me.s.get 0) (s.me.unread.contains 0)) ((s.cluster 0 (clusterOf 0)).cirrus.get 7) true 0 0 0 0 none 0 0).finished =
       false) ∧
    (let s := boundSlot [0x60000000]
     ownOperand s.cur aliasBase.toNat (8 + 8 * (0 : Word).toNat) 8 false = [] ∧
       ownOperand s.cur aliasBase.toNat (8 + 8 * (262143 : Word).toNat) 8 false = [] ∧
       (0x200000000 : Word).toNat % 2 ^ 32 + (0x200000000 : Word).toNat / 2 ^ 32 >
         ((s.cluster 0 (clusterOf 0)).cirrus.get 7).nr.toNat ∧ (5 : Word).toNat / 2 ^ 32 = 0 ∧ s.zBusy s.cur 0 = false) ∧
    (let s := (boundSlot [0x60000000]).modMe (emptyS 6 true)
     s.genFree = true ∧ (s.me.s.get 6).claimed = true) ∧
    (let s := { boundSlot [0x60000000] with gen := some (aRun false), agenda := [.cirrus 0x68000000] }
     s.genFree = false) ∧
    (let s := (boundSlot []).modCluster 0 0 fun c => { c with cirrus := c.cirrus.set 7 CirrusSlot.reset }
     ((s.cluster 0 (clusterOf 0)).cirrus.get 7).inv = none) := by
  dsimp only; and_intros <;> 
    first | decide +kernel | exact ok (by decide +kernel) | (unfold State.jobSpace; decide +kernel)
/-- A vt about to copy: source in s4, length in s5, destination in s6, a set of clusters in s7. -/
def copyVt (src len dst set : Word) : State :=
  onVt fun h => withS 7 set (withS 6 dst (withS 5 len (withS 4 src h)))

/-- A copy command of the vt. -/
def aCopy (op : CpOp) (dst src : Word) (len : Nat) : CpCmd :=
  (onVt id).cpCmd op false dst src len [] ((onVt id).actor (.thread 0 0) 1)

/-- The least and the greatest length of a copy; each of the operands that are turned away. -/
theorem witness_copyCommands :
    (let s := copyVt aliasBase 8 0x10000 0x10101
     s.me.chain = [] ∧ s.cur = .thread 0 0 ∧ s.me.tx = none ∧ s.jobSpace ∧ s.rdS 4 = .ok aliasBase ∧
       s.rdS (succ16 4) = .ok 8 ∧ s.rdS 6 = .ok 0x10000 ∧ s.rdS (succ16 6) = .ok 0x10101 ∧ (8 : Word).toNat % 8 = 0 ∧
       8 ≤ (8 : Word).toNat ∧ ((s.cluster 0 (clusterOf 0)).cp.get (coreOf 0)).length < 8 ∧
       ownOperand s.cur aliasBase.toNat 8 8 false = [] ∧ s.copyOperand 0x10000 8 8 true true = [] ∧
       s.overlaps aliasBase.toNat 0x10000 8 = [] ∧ s.copyOperand 0x10000 8 8 false false = [] ∧
       setFaults 0x10000 0x10101 8 = [] ∧ s.setOverlap 0x10000 0x10101 aliasBase.toNat 8 = [] ∧
       ownOperand s.cur aliasBase.toNat (((4096 : Word).toNat + 7) / 8 * 8) 8 false = [] ∧
       s.copyOperand 0x10000 64 64 false false = []) ∧
    (let s := copyVt aliasBase 0x200000 0x10000 0
     (0x200000 : Word).toNat ≤ 0x200000 ∧ ownOperand s.cur aliasBase.toNat 0x200000 8 false = []) ∧
    (let s := copyVt 0x10000 8 aliasBase 0
     ownOperand s.cur aliasBase.toNat 8 8 false = [] ∧ s.copyOperand 0x10000 8 8 true false = [] ∧
       s.overlaps 0x10000 aliasBase.toNat 8 = []) ∧
    (let s := (onVt id).modCluster 0 0 fun c => { c with cp := c.cp.set 0 (List.replicate 8 (aCopy .send 0x10000 aliasBase 8)) }
     8 ≤ ((s.cluster 0 (clusterOf 0)).cp.get (coreOf 0)).length) ∧
    (let s := copyVt aliasBase 4 0x10000 0
     (4 : Word).toNat % 8 ≠ 0 ∧ ownOperand s.cur aliasBase.toNat 4 8 false = [] ∧ s.copyOperand 0x10000 4 8 true true = [] ∧
       s.overlaps aliasBase.toNat 0x10000 4 = []) ∧
    (let s := copyVt aliasBase 0 0x10000 0
     ownOperand s.cur aliasBase.toNat 0 8 false = [] ∧ s.copyOperand 0x10000 0 8 true true = [] ∧
       s.overlaps aliasBase.toNat 0x10000 0 = []) ∧
    (let s := copyVt 0xFF00000000400000 8 0x10000 0
     placeOf s.cur 0xFF00000000400000 8 = .ok (.spad 1 0) ∧ clusterOfAgent s.cur ≠ some 1 ∧ 0xFF00000000400000 % 8 = 0 ∧
       s.overlaps 0xFF00000000400000 0x10000 8 = []) := by
  dsimp only; and_intros <;>
    first | decide +kernel | exact ok (by decide +kernel) | (unfold State.jobSpace; decide +kernel)

/-- A channel of the last word, one that overlaps an open one, and element lists of the least and greatest count. -/
theorem witness_channelsAndGathers :
    (let s := onVt fun h => withS 3 8 (withS 2 (aliasBase + 0x1FFFF8) (withS 1 15 h))
     s.me.chain = [] ∧ s.cur = .thread 0 0 ∧ s.me.tx = none ∧ s.rdS 1 = .ok 15 ∧
       ((s.cluster 0 0).channels.get 15).wm < 2 ^ 63 ∧ s.rdS 2 = .ok (aliasBase + 0x1FFFF8) ∧ s.rdS (succ16 2) = .ok 8 ∧
       s.rdS (succ16 3) = .ok 0 ∧ (8 : Word) ≠ 0 ∧ ownOperand s.cur (aliasBase + 0x1FFFF8).toNat 8 8 false = [] ∧
       (8 : Word).toNat % 8 = 0 ∧ ∀ k, k ≠ (15 : Fin 16) → ((s.cluster 0 0).channels.get k).isOpen = false) ∧
    (let s := (onVt id).modCluster 0 0 fun c => { c with channels := c.channels.set 0 ⟨true, 0x1FFFF8, 8, 0x1FFFF8⟩ }
     (0 : Fin 16) ≠ 15 ∧ ((s.cluster 0 0).channels.get 0).isOpen = true ∧
       spadOff (aliasBase + 0x1FFFF8).toNat < ((s.cluster 0 0).channels.get 0).base + ((s.cluster 0 0).channels.get 0).len ∧
       ((s.cluster 0 0).channels.get 0).base < spadOff (aliasBase + 0x1FFFF8).toNat + 8) ∧
    (let s := onVt fun h => withS 5 1 (withS 4 0x10000 (withS 3 aliasBase (withS 2 aliasBase h)))
     s.jobSpace ∧ s.rdPair 2 = .ok (aliasBase, aliasBase) ∧ s.rdPair 4 = .ok (0x10000, 1) ∧
       (∀ j ∈ (s.sec 0).asyncs, j.id ≠ s.nextId) ∧ ownOperand s.cur aliasBase.toNat ((1 : Word).toNat * 4) 8 false = [] ∧
       s.baseFaults 0x10000 = [] ∧ 1 ≤ (1 : Word).toNat ∧ (3 : BitVec 7).toNat + 1 = 4 ∧ (7 : BitVec 7).toNat + 1 = 8 ∧
       (0 : BitVec 7).toNat + 1 ≠ 4 ∧ (0 : BitVec 7).toNat + 1 ≠ 8) ∧
    (let s := onVt id
     ownOperand s.cur aliasBase.toNat ((65536 : Word).toNat * 8) 8 false = [] ∧ (65536 : Word).toNat ≤ 65536 ∧
       ownOperand s.cur aliasBase.toNat ((0 : Word).toNat * 8) 8 false = [] ∧
       ownOperand s.cur aliasBase.toNat ((65537 : Word).toNat * 8) 8 false = [] ∧ 65536 < (65537 : Word).toNat) := by
  dsimp only; and_intros <;>
    first | decide +kernel | exact ok (by decide +kernel) | (unfold State.jobSpace; decide +kernel)

/-- A job record of master core 0. -/
def aJob : Job :=
  { running := false, queued := false, status := 1, info := 0, flt := none, reported := false, vt := none, detached := false
    order := 0 }

/-- A master core with a record under identifier 0xFFFF. -/
def withJob (j : Job) : State :=
  (onMaster (withS 2 0xFFFF)).setJob 0 (State.reset.jobOwner (.master 0 0)) 0xFFFF (some j)

theorem witness_jobForms :
    (let s := withJob aJob
     s.me.chain = [] ∧ s.rdS 2 = .ok 0xFFFF ∧ s.ownJob s.cur 0 = none ∧ s.ownJob s.cur 0xFFFF = some aJob ∧
       aJob.running = false ∧ aJob.flt = none) ∧
    (let s := withJob { aJob with running := true }
     s.ownJob s.cur 0xFFFF = some { aJob with running := true }) ∧
    (let s := withJob { aJob with flt := some ⟨7, 0, 0, 0, 0⟩ }
     (s.ownJob s.cur 0xFFFF).map (·.flt) = some (some ⟨7, 0, 0, 0, 0⟩) ∧ (s.ownJob s.cur 0xFFFF).map (·.reported) = some false) ∧
    (let s := withJob { aJob with flt := some ⟨7, 0, 0, 0, 0⟩, reported := true }
     (s.ownJob s.cur 0xFFFF).map (·.reported) = some true) ∧
    (((List.range 63).map (· + 1)).length < 64 ∧ 65535 < 65536 ∧ 65535 ≠ 0 ∧ 65535 ∉ (List.range 63).map (· + 1)) := by
  dsimp only; and_intros <;> first | decide +kernel | exact ok (by decide +kernel)

/-- Ranges up to the end of application space, one that is leased, one that is not aligned, and one that is empty. -/
theorem witness_rangeForms :
    (let s := onMaster fun h => withS 3 0x200000 (withS 2 0x00FFFFFFFFE00000 h)
     s.me.chain = [] ∧ s.me.tx = none ∧ s.rdS 2 = .ok 0x00FFFFFFFFE00000 ∧ s.rdS (succ16 2) = .ok 0x200000 ∧ s.jobSpace ∧
       (∀ j ∈ (s.sec 0).asyncs, j.id ≠ s.nextId) ∧ s.released true = .ok () ∧
       (0x00FFFFFFFFE00000, 0x200000) ∉ s.leaseSet s.cur ∧
       ∀ n ∈ [65536, 128, 0x200000], ∀ p, rangeFaults s.cur 0x00FFFFFFFFE00000 0x200000 n p = []) ∧
    (let s := State.reset.modSec 0 fun c => { c with masterLeases := [(0, [(0x10000, 0x10000)])] }
     (0x10000, 0x10000) ∈ s.leaseSet s.cur) ∧
    (placeOf State.reset.cur 0x10001 (max (0x10000 : Word).toNat 1) = .ok (.app 0x10001) ∧ 0x10001 % 128 ≠ 0 ∧
      0x10001 % 0x10000 ≠ 0 ∧ 0x10001 % 0x200000 ≠ 0 ∧
      placeOf State.reset.cur 0x10000 (max (0 : Word).toNat 1) = .ok (.app 0x10000)) := by
  dsimp only; and_intros <;>
    first | decide +kernel | exact ok (by decide +kernel) | (unfold State.jobSpace; decide +kernel)

/-- A sector whose network table binds send and receive queue 0 to ASID 5, and a descriptor of one byte. -/
def netVt (f : Sector → Sector) : State :=
  ((onVt (withS 1 aliasBase)).spadWrite 0 0 16 (leBytes 8 1)).modSec 0 fun c =>
    f { c with netBase := some 0x100000, netTable := [(0, 5), (2, 1), (0x40000, 5), (0x40002, 1)] }

theorem witness_networkForms :
    (let s := netVt fun c => { c with rxDone := [(0, 1)] }
     let bs := s.spadBytes 0 0 0 64
     s.me.chain = [] ∧ s.me.tx = none ∧ s.rdS 1 = .ok aliasBase ∧ s.ownSpad aliasBase 64 0 0 ∧ descFaults bs = [] ∧
       s.sendBound 0 (leNat ((bs.drop 2).take 2)) (s.asidOf s.cur) = true ∧ s.jobSpace ∧
       (∃ e, s.rxQueue 0 0 = some e ∧ e.asid = s.asidOf s.cur) ∧
       Sparse.get 0 (s.sec 0).rxTaken 0 < Sparse.get 0 (s.sec 0).rxDone 0) ∧
    (let s := netVt id
     Sparse.get 0 (s.sec 0).rxDone 0 ≤ Sparse.get 0 (s.sec 0).rxTaken 0) ∧
    (let s := netVt fun c => { c with netTable := [(0x40000, 6), (0x40002, 1)] }
     s.sendBound 0 0 (s.asidOf s.cur) = false ∧ ∃ e, s.rxQueue 0 0 = some e ∧ e.asid ≠ s.asidOf s.cur) ∧
    (netVt id).rxQueue 0 0xFFFF = none := by
  dsimp only; and_intros <;>
    first | (show ∃ _, _; exact ⟨_, rfl, by decide +kernel⟩) | decide +kernel | exact ok (by decide +kernel) |
      (unfold State.jobSpace; decide +kernel)

/-- An acquire behind a release of the agent that is still open, and lists that overlap. -/
theorem witness_openReleases :
    (let s := openRelease (onVt (withS 1 15))
     s.me.chain = [] ∧ s.me.tx = none ∧ s.rdS 1 = .ok 15 ∧ s.releaseOpen s.cur = true ∧ s.drained s.cur = false) ∧
    (let s := openRelease (onMaster fun h => withS 3 0x10000 (withS 2 0x10000 h))
     s.rdS 2 = .ok 0x10000 ∧ s.rdS (succ16 2) = .ok 0x10000 ∧ rangeFaults s.cur 0x10000 0x10000 65536 false = [] ∧
       s.drained s.cur = false) ∧
    (let s := onVt (withS 1 15)
     s.releaseOpen s.cur = false) ∧
    (let s := openRelease (withJob aJob)
     s.ownJob s.cur 0xFFFF = some aJob ∧ s.releaseOpen s.cur = true) ∧
    (withJob aJob).releaseOpen (withJob aJob).cur = false ∧
    (let s := openRelease (netVt fun c => { c with rxDone := [(0, 1)] })
     (∃ e, s.rxQueue 0 0 = some e ∧ e.asid = s.asidOf s.cur) ∧
       Sparse.get 0 (s.sec 0).rxTaken 0 < Sparse.get 0 (s.sec 0).rxDone 0 ∧ s.releaseOpen s.cur = true) ∧
    extentsOverlap aliasBase.toNat 4 aliasBase.toNat 4 ≠ [] ∧ extentsOverlap aliasBase.toNat 4 (aliasBase + 8).toNat 4 = [] := by
  dsimp only; and_intros <;>
    first | (show ∃ _, _; exact ⟨_, rfl, by decide +kernel⟩) | decide +kernel | exact ok (by decide +kernel)
/-- An agent that is parked. -/
def parked (g : Agent) (p : Park) (s : State) : State := s.modHart g fun h => { h with park := some p }

/-- Context 0 parked at word 0 of its scratchpad. -/
def feState (k : FeKind) (full : Bool) : State :=
  parked (.thread 0 0) (.fe (spadWord 0 0 0) k 2 0) ((onVt id).setFull 0 0 0 full)

theorem witness_wakes :
    (let g : Agent := .thread 0 0
     (let s := parked g (.reg 4) (onVt id)
      (s.hart g).park = some (.reg 4) ∧ ((s.hart g).s.get 4).full = true) ∧
     (((parked g (.queue .copy) (onVt id)).hart g).park = some (.queue .copy)) ∧
     (let s := parked g (.pool 8 2) ((onVt id).modSec 0 fun c => { c with poolWait := [{ anInst with uid := 8 }] })
      (s.sec 0).poolWait = [{ anInst with uid := 8 }] ∧ (s.sec 0).insts.length < 1024 ∧ s.poolWaiter 8 = some (g, 2) ∧
        (∀ j ∈ (s.sec 0).insts, j.uid ≠ 8) ∧ s.poolIndex 0 = some 1) ∧
     (let s := ((onVt id).modSec 0 fun c => { c with insts := [{ anInst with phase := .waitIdx }] })
      s.poolIndex 0 = none ∧ ∀ j ∈ (s.sec 0).insts, j.uid ≠ 8) ∧
     (let s := parked g (.mark 0 0 8) (onVt id)
      (s.hart g).park = some (.mark (0 : Fin 96).val 0 8) ∧ clusterOfAgent g = some 0 ∧ s.belowMark 0 0 0 8 = false) ∧
     (let s := feState .stfe false
      s.feNext 0 0 0 = some (0, g, .stfe, 2) ∧ s.feCount (spadWord 0 0 0) = 1) ∧
     (let s := feState .ldff true
      s.feNext 0 0 0 = some (0, g, .ldff, 2) ∧ s.feCount (spadWord 0 0 0) = 1 ∧ s.belowMark 0 0 0 8 = false ∧
        s.spadBad 0 0 0 8 = false) ∧
     (let s := feState .ldfe true
      s.feNext 0 0 0 = some (0, g, .ldfe, 2)) ∧
     (let s := (feState .ldfe true).modCluster 0 0 fun c => { c with channels := c.channels.set 0 ⟨true, 0, 8, 0⟩ }
      s.feNext 0 0 0 = some (0, g, .ldfe, 2) ∧ s.belowMark 0 0 0 8 = true) ∧
     (let s := parked g .dslot (onVt id)
      s.dWaiter 0 0 = some 0 ∧ s.freeDSlot 0 0 = some 48)) ∧
    (let g : Agent := .master 0 0
     (let s := parked g (.join 7 2) (withInst (fun i => { i with final := some .lost }) State.reset)
      (s.hart g).park = some (.join 7 2) ∧ s.inst 0 7 = some { anInst with final := some .lost }) ∧
     (let s := parked g (.jwait 0xFFFF 2) (withJob aJob)
      (s.hart g).park = some (.jwait 0xFFFF 2) ∧ s.ownJob g 0xFFFF = some aJob ∧ aJob.running = false ∧ aJob.flt = none) ∧
     (parked g (.jwait 9 2) (withJob aJob)).ownJob g 9 = none ∧
     (let s := parked g (.jwait 0xFFFF 2) (withJob { aJob with flt := some ⟨7, 0, 0, 0, 0⟩ })
      s.ownJob g 0xFFFF = some { aJob with flt := some ⟨7, 0, 0, 0, 0⟩ } ∧ aJob.reported = false)) := by
  dsimp only; and_intros <;> decide +kernel

theorem witness_sleepWakes :
    (let g : Agent := .thread 0 0
     (let s := (parked g (.sleep 0 5 0x10000 0x10000) (onVt id)).setLine (lineKey 0 5 0x10000) (some (openLine 1))
      (s.hart g).park = some (.sleep 0 5 0x10000 0x10000) ∧ (s.hart g).tx = none ∧
        { s with cur := g }.heldLine 0x10000 8 .read true (openLine 1)) ∧
     (let s := parked g (.sleep 0 5 0x20000 0x20000) (onVt id)
      State.load { s with cur := g } 0x20000 8 true = .error (.flt ⟨7, 5, 0x20000, 0, 0⟩))) := by
  dsimp only; and_intros <;> first | decide +kernel | exact ok (by decide +kernel) | exact err (by decide +kernel)

/-- A migration message of the instance's vt. -/
def aMove : Migration :=
  { regs := Vector.replicate 16 1, pc := 0x2000, srseed := 0, fflags := 0, fmode := 0, preds := Vector.replicate 8 false
    hpri := 0, vt := ⟨7, 0⟩, home := 65, seq := 3, bound := false, from_ := 1, roSeq := 0
    unread := [] }

/-- The instance's sector with one message in flight to cluster 0. -/
def arriving (b : Parcel) (f : Hart → Hart) : State := { withInst id (onThread 0 f) with flight := [aFlight 9 0 b] }

theorem witness_messages :
    (let s := arriving (.push 0x1FFFFF [1]) id
     s.flightOf 9 = some (aFlight 9 0 (.push 0x1FFFFF [1])) ∧ s.isFenced 0 (chipletOf 0) = false ∧
       s.heldBack (aFlight 9 0 (.push 0x1FFFFF [1])) = false ∧
       ∀ o ∈ wordsOf 0x1FFFFF 1, s.feCount (spadWord 0 0 o) = 0) ∧
    (let f := aFlight 9 0 (.deposit 0 4 1)
     let k := { f with kept := some ⟨7, 0⟩ }
     let s := arriving (.deposit 0 4 1) (emptyS 4 false)
     s.heldBack f = false ∧ s.earlierOpen f = false ∧ s.holderOf 0 0 = some ⟨7, 0⟩ ∧ s.diverted k = false ∧
       s.depositReady k 0 4 = true) ∧
    (let k := { aFlight 9 0 (.deposit 0 4 1) with kept := some ⟨7, 0⟩ }
     let s := arriving (.deposit 0 4 1) id
     s.depositReady k 0 4 = false ∧ (s.cluster 0 0).recvInbox.length < 32) ∧
    (let s := { onThread 0 id with flight := [aFlight 9 0 (.deposit 0 4 1)] }
     s.holderOf 0 0 = none) ∧
    (let s := { onThread 0 id with flight := [aFlight 8 0 (.push 0 [1]), aFlight 9 0 (.deposit 0 4 1)] }
     s.earlierOpen (aFlight 9 0 (.deposit 0 4 1)) = true) ∧
    (let s := arriving (.migrate aMove) id
     aMove.bound = false ∧ s.vtLives 0 aMove.vt = true ∧ s.messageWaits 0 0 = false ∧ s.freeSlotIn 0 0 = some 1 ∧
       windowNext (Sparse.get none (s.cluster 0 0).windows (originKey aMove.home)) aMove.seq = some ⟨3, [3]⟩ ∧ aMove.home < 6144) ∧
    (let s := (arriving (.migrate aMove) id).modCluster 0 0 fun c => { c with windows := [(65, some ⟨3, [3]⟩)] }
     windowNext (Sparse.get none (s.cluster 0 0).windows (originKey aMove.home)) aMove.seq = none) ∧
    (let s := (arriving (.migrate aMove) id).modCluster 0 0 fun c => { c with migInbox := [aFlight 3 0 (.migrate aMove)] }
     s.messageWaits 0 0 = true ∧ (s.cluster 0 0).migInbox.length < 32) := by
  dsimp only; and_intros <;> decide +kernel

/-- A deposit that waits for the instance's vt. -/
def aWaiter (b : Parcel) : Flight := { aFlight 5 0 b with arrived := some 0, kept := some ⟨7, 0⟩ }

/-- A full receive inbox of deposits, and one more that arrives. -/
def fullInbox : State :=
  (arriving (.deposit 0 4 1) id).modCluster 0 0 fun c => { c with recvInbox := List.replicate 32 (aWaiter (.deposit 0 4 1)) }

/-- An instance of ASID 0 with one record in its overflow heap, which is mapped. -/
def replayState : State :=
  let s := (withInst (fun i => { i with asid := 0, rcd := { aRecord with save := 0 } }) (onThread 0 id)).bootTables 0 0 areaHeap
  (s.heapAll [aWaiter (.deposit 0 4 1)]).getD s

theorem witness_inboxes :
    (let s := (withInst id (onThread 0 (emptyS 4 false))).modCluster 0 0 fun c =>
       { c with recvInbox := [aWaiter (.deposit 0 4 1)] }
     s.waitingFlight 5 = some (aWaiter (.deposit 0 4 1)) ∧ s.depositReady (aWaiter (.deposit 0 4 1)) 0 4 = true) ∧
    (let s := (onVt id).modCluster 0 0 fun c => { c with migInbox := [aFlight 5 0 (.migrate aMove)] }
     s.nextAdmitted 0 0 = some (aFlight 5 0 (.migrate aMove), aMove, 1) ∧ s.vtLives 0 aMove.vt = true ∧
       windowNext (Sparse.get none (s.cluster 0 0).windows (originKey aMove.home)) aMove.seq = some ⟨3, [3]⟩) ∧
    (let s := fullInbox
     s.flightOf 9 = some (aFlight 9 0 (.deposit 0 4 1)) ∧ (s.sec 0).ovp = false ∧ 32 ≤ (s.cluster 0 0).recvInbox.length ∧
       ∃ u, s.heapAll ((s.cluster 0 0).recvInbox.take 16) = some u) ∧
    (let s := { (onVt id).modCluster 0 0 fun c => { c with recvInbox := List.replicate 32 (aFlight 5 0 (.push 0 [])) } with
       flight := [aFlight 9 0 (.push 0 [])] }
     s.heapAll ((s.cluster 0 0).recvInbox.take 16) = none) ∧
    (let s := replayState
     s.isFenced 0 (chipletOf 0) = false ∧
       ∃ u, firstSome (fun i => s.heapTake 0 i 0) (s.heapOrder 0 0) = some u) ∧
    (let s := (onVt id).modSec 0 fun c => { c with refused := [aFlight 5 0 (.push 0 [])] }
     firstSome (fun (z : Sec) => (s.sec z).refused.find? fun e => e.id == 5) [0, 1, 2, 3] = some (aFlight 5 0 (.push 0 []))) ∧
    (let s := { (onVt id).modSec 0 fun c => { c with refused := [aFlight 5 0 (.push 0 [])] } with tokens := [⟨6, 0, 0, 0, 95⟩] }
     s.tokens.find? (fun t => t.id == 6) = some ⟨6, 0, 0, 0, 95⟩ ∧
       (s.sec 0).refused.find? (fun e => e.cl == 0) = some (aFlight 5 0 (.push 0 [])) ∧
       (s.cluster 0 0).reserveBuf.length < 4) ∧
    (let s := { ((onVt id).modSec 0 fun c => { c with refused := [aFlight 5 0 (.push 0 [])] }).modCluster 0 0 fun c =>
       { c with recvInbox := List.replicate 32 (aFlight 7 0 (.push 0 []))
                migInbox := List.replicate 32 (aFlight 7 0 (.push 0 [])) } with tokens := [⟨6, 0, 1, 0, 95⟩] }
     (0 : Fin 96) ≠ 1 ∧ 95 < 96 ∧ s.blocked 0 0 = true ∧ senderCluster (aFlight 5 0 (.push 0 [])) = some 0) ∧
    (let s := arriving (.deposit 0 4 1) id
     leNat (s.readPhys 0 (spillBase (s.sec 0).spillq + 8) 8) - leNat (s.readPhys 0 (spillBase (s.sec 0).spillq) 8) <
       spillRecords (s.sec 0).spillq) ∧
    (let s := (arriving (.deposit 0 4 1) id).writePhys 0 8 (leBytes 8 (spillRecords 0))
     spillRecords (s.sec 0).spillq ≤
       leNat (s.readPhys 0 (spillBase (s.sec 0).spillq + 8) 8) - leNat (s.readPhys 0 (spillBase (s.sec 0).spillq) 8)) := by
  dsimp only; and_intros <;> first | (show ∃ _, _; exact someEx (by decide +kernel)) | decide +kernel

/-- A wake while an earlier release is open, and a deposit whose core is stopped by pre-emption. -/
theorem witness_wakesAndDiversion :
    (let s := parked (.thread 0 0) (.jwait 0xFFFF 2) (openRelease (onVt id))
     (s.hart (.thread 0 0)).park = some (.jwait 0xFFFF 2) ∧ s.releaseOpen (.thread 0 0) = true) ∧
    (let s := arriving (.deposit 0 4 1) id
     s.flightOf 9 = some (aFlight 9 0 (.deposit 0 4 1)) ∧ s.diverted (aFlight 9 0 (.deposit 0 4 1)) = false) ∧
    (let s := (arriving (.deposit 0 4 1) id).modCluster 0 0 fun c =>
      { c with cores := c.cores.set 0 { c.cores.get 0 with stopped := some 0 } }
     s.diverted (aFlight 9 0 (.deposit 0 4 1)) = true) := by
  dsimp only; and_intros <;> decide +kernel

/-- The actor of a job of master core 0, and of a job of the instance's vt. -/
def masterActor (job : Nat) : Actor := State.reset.actor (.master 0 0) job
def vtActor (job : Nat) : Actor := (onVt id).actor (.thread 0 0) job

/-- A gather unit's job and a request of it. -/
def aGather (kind : AsyncKind) (todo : List Nat) : Async :=
  { id := 4, kind := kind, actor := vtActor 1, started := false, pc := 0, instr := 0, base := 0x10000, len := 1, side := aliasBase
    list := aliasBase, size := 4, wide := false, todo := todo, flt := none, count := 0 }
def aRequest (ea : Nat) (op : BankOp) : BankReq :=
  { id := 3, sec := 0, cl := 0, actor := vtActor 1, copy := false, cmd := 4, elem := 0, ea := ea, len := 4, op := op
    data := [1, 2, 3, 4], spans := [], back := false }

/-- The request waits, its line is held in sector 0 and in sector 1, and a peer window leads there. -/
def requested (b : BankReq) : State :=
  let s := (((onVt id).modSec 0 fun c => { c with asyncs := [aGather .xgat []], imports := [(0, ⟨0x100000000, true, false, true,
    true, 0x10000⟩)] }).modSec 1 fun c => { c with exports := [(0, ⟨0x10000, 0x10000, 5, true, true, true, false, 0⟩)] }).setLine
    (lineKey 0 5 0x10000) (some (openLine 1))
  { s.setLine (lineKey 1 5 0x10000) (some (openLine 1)) with bankq := [b] }

theorem witness_unitRequests :
    (let b := aRequest 0x10000 .read
     let s := requested b
     s.bankq.find? (fun e => e.id == 3) = some b ∧ b.back = false ∧ b.copy = false ∧ s.async 0 4 = some (aGather .xgat []) ∧
       placeOf b.actor.agent 0x10000 4 = .ok (.app 0x10000) ∧ b.actor.asid = 5 ∧ s.elemLease b.actor 0x10000 4 = .ok () ∧
       s.homeLine 0 5 0x10000 4 (s.actAcc b.actor b.kind (b.kind != .atomic)) (openLine 1)) ∧
    (let b := aRequest 0x10000 .write
     b.data.length = b.len ∧ (requested b).homeLine 0 5 0x10000 4 ((requested b).actAcc b.actor b.kind (b.kind != .atomic))
       (openLine 1)) ∧
    (let b := aRequest 0xFE00000000000000 (.add true)
     let s := requested b
     placeOf b.actor.agent 0xFE00000000000000 4 = .ok (.peer 0 0) ∧ (s.sec 0).power = .running ∧
       s.peerCheck 0 0 0 4 b.kind = .ok (1, 5, 0x10000) ∧
       s.homeLine 1 5 0x10000 4 (s.actAcc b.actor b.kind (b.kind != .atomic)) (openLine 1)) ∧
    (let b := aRequest 0xFE00FF0000000000 .read
     placeOf b.actor.agent 0xFE00FF0000000000 4 = .ok (.peer 255 0) ∧ (requested b).peerCheck 0 255 0 4 b.kind = .error peerSlot ∧
       (aGather .xgat []).flt = none) := by
  dsimp only; and_intros <;> first | decide +kernel | exact ok (by decide +kernel) | exact err (by decide +kernel)

/-- Copy commands of the cluster: in a queue, running, and with nothing left. -/
def copying (queued running : List CpCmd) : State :=
  (onVt id).modCluster 0 0 fun c => { c with cp := c.cp.set 0 queued, cpRunning := running }

theorem witness_unitSteps :
    (let s := copying [aCopy .send 0x10000 aliasBase 8] []
     s.unitsRun 0 = true ∧ s.isFenced 0 (chipletOf 0) = false ∧ (s.cluster 0 0).cpRunning.length < 8 ∧
       s.cpNext 0 0 = some (0, aCopy .send 0x10000 aliasBase 8)) ∧
    (let k := aCopy .send 0xFF00000000400000 aliasBase 8
     let s := copying [] [k]
     (s.cluster 0 0).cpRunning = [k] ∧ s.cpNext 0 0 = none ∧ k.op = .send ∧ k.todo = [(0, 8)] ∧
       placeOf k.actor.agent (k.src.toNat + 0) 1 = .ok (.spad 0 0) ∧ placeOf k.actor.agent (k.dst.toNat + 0) 1 = .ok (.spad 1 0) ∧
       s.isFenced 0 (chipletOf 1) = false ∧ s.belowMark 0 0 0 8 = false ∧ s.spadBad 0 0 0 8 = false) ∧
    (let k := { aCopy .send 0x10000 aliasBase 8 with todo := [] }
     let s := (copying [] [k]).setJob 0 k.actor.home 1 (some { aJob with running := true, vt := some ⟨7, 0⟩, order := k.actor.seq })
     s.running 0 0 k.id = some k ∧ k.todo = [] ∧ k.unaccepted = 0 ∧ k.flt = none ∧ k.full = false ∧
       (s.jobOfActor 0 k.actor).isSome = true ∧ k.stop = none) ∧
    (let k := { aCopy .fetch aliasBase 0x10000 8 with todo := [], stop := some ⟨7, 0, 0x10000, 0, 0⟩ }
     let s := (copying [] [k]).setJob 0 k.actor.home 1 (some { aJob with running := true, vt := some ⟨7, 0⟩, order := k.actor.seq })
     s.running 0 0 k.id = some k ∧ (s.jobOfActor 0 k.actor).isSome = true ∧ k.stop = some ⟨7, 0, 0x10000, 0, 0⟩) ∧
    (let b := { aRequest aliasBase.toNat .read with back := true, copy := true }
     (requested b).bankq.find? (fun b => b.id == 3 && b.back && b.sec == 0 && b.cl == 0) = some b ∧ b.copy = true ∧
       ∀ o ∈ wordsOf (spadOff aliasBase.toNat) 4, (requested b).feCount (spadWord 0 0 o) = 0) ∧
    (let b := { aRequest 0x10000 .read with back := true }
     (requested b).bankq.find? (fun b => b.id == 3 && b.back && b.sec == 0 && b.cl == 0) = some b ∧ b.copy = false ∧
       (requested b).async 0 b.cmd = some (aGather .xgat []) ∧
       ∀ o ∈ wordsOf (spadOff (aliasBase.toNat + 0 * 4)) 4, (requested b).feCount (spadWord 0 0 o) = 0) := by
  dsimp only; and_intros <;> first | decide +kernel | exact ok (by decide +kernel)

/-- A copy request of a running command, of the longest flit, whose line is held. -/
def copyFlit (op : CpOp) (b : BankOp) : State :=
  let k := { aCopy op (if op = .fetch then aliasBase else 0x10000) (if op = .fetch then 0x10000 else aliasBase) 64 with
    todo := [], unaccepted := 64 }
  { (copying [] [k]).setLine (lineKey 0 5 0x10000) (some (openLine 1)) with
    bankq := [{ copyReq 0 0 k 0 0x10000 64 b (List.replicate 64 9) false with id := 3 }] }

/-- A flit for a fetch, one behind a watermark, one of a send and a flush to application space, one of a `sendm`, and
the flits of a ring record. -/
theorem witness_copyFlits :
    (let k := aCopy .fetch aliasBase 0x10000 8
     let s := copying [] [k]
     s.unitsRun 0 = true ∧ s.isFenced 0 (chipletOf 0) = false ∧ (s.cluster 0 0).cpRunning = [k] ∧ s.cpNext 0 0 = none ∧
       k.todo = [(0, 8)] ∧ placeOf k.actor.agent (k.src.toNat + 0) 1 = .ok (.app 0x10000)) ∧
    (let k := aCopy .flush 0x10000 aliasBase 8
     let s := (copying [] [k]).modCluster 0 0 fun c => { c with channels := c.channels.set 0 ⟨true, 0, 8, 0⟩ }
     (s.cluster 0 0).cpRunning = [k] ∧ s.cpNext 0 0 = none ∧ k.todo = [(0, 8)] ∧
       placeOf k.actor.agent (k.src.toNat + 0) 1 = .ok (.spad 0 0) ∧ s.belowMark 0 0 0 8 = true) ∧
    (let k := aCopy .flush 0x10000 aliasBase 8
     let s := copying [] [k]
     s.belowMark 0 0 0 8 = false ∧ s.spadBad 0 0 0 8 = false ∧ k.ring = none ∧ k.op = .flush ∧
       placeOf k.actor.agent (k.dst.toNat + 0) 1 = .ok (.app 0x10000)) ∧
    (let k := { aCopy .sendm 0x100 aliasBase 8 with set := [0, 1] }
     let s := copying [] [k]
     k.ring = none ∧ k.op = .sendm ∧ k.todo = [(0, 8)] ∧ s.cpNext 0 0 = none) ∧
    (let k := { aCopy .sendg 0x10000 aliasBase 72 with ring := some ⟨0, 1, 0x18000, 8192⟩, todo := [(0, 64), (64, 8)] }
     let s := copying [] [k]
     k.ring = some ⟨0, 1, 0x18000, 8192⟩ ∧ k.todo = (0, 64) :: [(64, 8)] ∧
       placeOf k.actor.agent (k.src.toNat + 0) 1 = .ok (.spad 0 (spadOff k.src.toNat + 0)) ∧ s.cpNext 0 0 = none) ∧
    (let k := { aCopy .sendg 0x10000 aliasBase 72 with ring := some ⟨0, 1, 0x18000, 8192⟩, todo := [(64, 8)] }
     k.todo = (64, 8) :: [] ∧ placeOf k.actor.agent (k.src.toNat + 64) 1 = .ok (.spad 0 (spadOff k.src.toNat + 64))) := by
  dsimp only; and_intros <;> first | decide +kernel | exact ok (by decide +kernel)

theorem witness_copyBanks :
    (let s := copyFlit .fetch .read
     let a := vtActor 1
     (∃ b k, s.bankq.find? (fun e => e.id == 3) = some b ∧ b.back = false ∧ b.copy = true ∧
       s.running b.sec b.cl b.cmd = some k ∧ b.actor = a ∧ b.op = .read ∧ b.len = 64) ∧
       a.agent = .thread 0 (Fin.ofNat 6144 a.home) ∧ placeOf a.agent 0x10000 8 = .ok (.app 0x10000) ∧
       s.homeLine 0 a.asid 0x10000 64 (s.actAcc a .read true) (openLine 1)) ∧
    (let s := copyFlit .flush .write
     let a := vtActor 1
     (∃ b k, s.bankq.find? (fun e => e.id == 3) = some b ∧ s.running b.sec b.cl b.cmd = some k ∧ b.op = .write ∧
       b.data.length = b.len ∧ k.op = .flush) ∧ s.homeLine 0 a.asid 0x10000 64 (s.actAcc a .write true) (openLine 1) ∧
       (openLine 1).data.length = 128 ∧ ∀ i, i < 64 / 8 → s.feCount (spadWord 0 0 (spadOff aliasBase.toNat + 8 * i)) = 0) ∧
    ((List.range 8).all fun i => let s := copyFlit .flush .write
      decide ((placeOf (vtActor 1).agent (0x10000 + 8 * i) 8).toOption = some (.app (0x10000 + 8 * i)) ∧
        (s.actLease (vtActor 1) (0x10000 + 8 * i) 8).toOption = some () ∧ s.sealAt 0 5 (0x10000 + 8 * i) = none)) = true := by
  dsimp only; and_intros <;> first
      | (show ∃ _, _; exact ⟨_, _, rfl, rfl, rfl, rfl, rfl, rfl, rfl⟩) | (show ∃ _, _; exact ⟨_, _, rfl, rfl, rfl, rfl, rfl⟩)
      | decide +kernel | exact ok (by decide +kernel)

/-- A complete record on its way to its ring, of which the data area starts at an address. -/
def recordFlit (data : Nat) (held : List HeldRecord) (l : Option Line) : State :=
  let k := { aCopy .sendg 0x10000 aliasBase 8 with todo := [], ring := some ⟨0, 1, data, 8192⟩, unaccepted := 1 }
  let s := ((copying [] [k]).modSec 0 fun c => { c with held := held }).setLine (lineKey 0 5 0x18000) l
  { s with bankq := [{ copyReq 0 0 k 0 0x18000 8 .record (List.replicate 8 9) false with id := 3 }] }

theorem witness_records :
    (let s := recordFlit (2 ^ 56) [] none
     (∃ b k r, s.bankq.find? (fun e => e.id == 3) = some b ∧ b.back = false ∧ b.copy = true ∧ b.op = .record ∧
       s.running b.sec b.cl b.cmd = some k ∧ k.ring = some r ∧ r.data = 2 ^ 56 ∧ k.flt = none) ∧ (0x10000 : Word).toNat < 2 ^ 56) ∧
    (let s := recordFlit 0x18000 [] (some (openLine 1))
     let segs := (recordPieces ⟨0, 1, 0x18000, 8192⟩ (vtActor 1).home (List.replicate 8 9)).map fun p => (p.1 - 0x18000 + 0x18000, p.2)
     s.ringHome (vtActor 1) 0x18000 8192 .write = .ok ⟨0, 5, 0x18000, 0x18000⟩ ∧ s.missingPage 0 5 segs = none ∧
       ∃ u, s.writeRecord 0 5 (s.raceOf (vtActor 1)) segs = .ok u) ∧
    (let s := recordFlit 0x18000 (List.replicate 63 ⟨0, 5, 0, 0, []⟩) none
     let segs := (recordPieces ⟨0, 1, 0x18000, 8192⟩ (vtActor 1).home (List.replicate 8 9)).map fun p => (p.1 - 0x18000 + 0x18000, p.2)
     s.missingPage 0 5 segs = some 0x10000 ∧
       ((s.sec 0).held.filter fun e => e.port == s.receivingPort 0 0 0).length < 64) ∧
    (let s := recordFlit 0x18000 (List.replicate 64 ⟨0, 5, 0, 0, []⟩) none
     64 ≤ ((s.sec 0).held.filter fun e => e.port == s.receivingPort 0 0 0).length) := by
  dsimp only; and_intros <;> first
      | (show ∃ _, _; first | exact okEx (by decide +kernel) | exact ⟨_, _, _, rfl, rfl, rfl, rfl, rfl, rfl, rfl, rfl⟩)
      | decide +kernel | exact ok (by decide +kernel)

/-- A ring of 8 KiB: empty, and one in which 4096 bytes and the record's header do not fit. -/
def ringLine (tail : Nat) : Line :=
  { openLine 0 with data := [0, tail, 8192, 0x20000, 0].flatMap (leBytes 8) ++ List.replicate 88 0 }
def ringState (tail : Nat) : State :=
  (copying [] [aCopy .sendg 0x10000 aliasBase 4096]).setLine (lineKey 0 5 0x10000) (some (ringLine tail))

theorem witness_rings :
    (let k := aCopy .sendg 0x10000 aliasBase 4096
     let s := ringState 4080
     s.running 0 0 k.id = some k ∧ k.op = .sendg ∧ k.ring = none ∧ k.unaccepted ≠ 0 ∧ s.belowMark 0 0 0 4096 = false ∧
       s.spadBad 0 0 0 4096 = false ∧ placeOf k.actor.agent k.dst.toNat 64 = .ok (.app 0x10000) ∧
       s.actLease k.actor 0x10000 64 = .ok () ∧ s.homeLine 0 k.actor.asid 0x10000 64 ⟨.atomic, true, false, none⟩ (ringLine 4080) ∧
       (ringLine 4080).data.length = 128 ∧ (parseRing (slice (ringLine 4080).data (0x10000 % 128) 64)).legal = true ∧
       (parseRing (slice (ringLine 4080).data (0x10000 % 128) 64)).fits (16 + (4096 + 15) / 16 * 16) = true) ∧
    (parseRing (slice (ringLine 4081).data (0x10000 % 128) 64)).fits (16 + (4096 + 15) / 16 * 16) = false := by
  dsimp only; and_intros <;> first | decide +kernel | exact ok (by decide +kernel)

/-- A gather with an element to do, and one with nothing left. -/
theorem witness_elements :
    (let a := aGather .xgat [0]
     let s := (onVt id).modSec 0 fun c => { c with asyncs := [a] }
     s.async 0 4 = some a ∧ a.flt = none ∧ a.todo = [0] ∧ s.earlierDone a.actor = true ∧
       (∀ r ∈ a.elemReads 0, s.belowMark 0 a.cluster (spadOff r.1) r.2 = false ∧ s.spadBad 0 a.cluster (spadOff r.1) r.2 = false) ∧
       a.elemAddr (leNat (s.spadBytes 0 a.cluster (spadOff (a.list.toNat + 0 * 4)) 4)) = .ok 0x10000) ∧
    (let a := aGather .xgat []
     let s := ((onVt id).modSec 0 fun c => { c with asyncs := [a] }).setJob 0 a.actor.home 1
       (some { aJob with running := true, vt := some ⟨7, 0⟩, order := a.actor.seq })
     (∀ b ∈ s.bankq, b.copy = true ∨ b.cmd ≠ 4) ∧ (s.jobOfActor 0 a.actor).isSome = true) := by
  dsimp only; and_intros <;> first | decide +kernel | exact ok (by decide +kernel)

/-- A job of Stratus of master core 0, its record, and the page of its range mapped or not. -/
def stratusJob (kind : AsyncKind) (todo : List Nat) (mapped : Bool) : State :=
  let a := { aGather kind todo with actor := masterActor 1, base := 0, len := 0x10000 }
  let s := (State.reset.modSec 0 fun c => { c with asyncs := [a] }).setJob 0 a.actor.home 1
    (some { aJob with running := true, order := a.actor.seq })
  if mapped then s.bootTables 0 0 0 else s

/-- A group of pages with the marks of migration, in near memory or far, and pools with room. -/
def groupState (far : Bool) : State :=
  let frame := if far then 0x200000 else 0x10000000000
  let s := (stratusJob (.pmig far) [0] true).writePhys 0 0x30000 ((List.range 32).flatMap fun i =>
    leBytes 8 (frame + i * 0x10000 + 0x18A))
  s.modSec 0 fun c => { c with fpool := if far then [0x10000000000] else [], npool := if far then [] else [0x200000] }

theorem witness_jobEnds :
    (let s := stratusJob .lease [] true
     ∃ j r, s.async 0 4 = some j ∧ s.earlierDone j.actor = true ∧ s.jobOfActor 0 j.actor = some r ∧ j.kind = .lease ∧
       s.leaseCount 0 j.actor < 4096 ∧ s.firstGap 0 j.actor.asid j.base (j.len / 65536) 0 = none) ∧
    (let s := stratusJob .lease [] false
     ∃ j, s.async 0 4 = some j ∧ s.firstGap 0 j.actor.asid j.base (j.len / 65536) 0 = some (0, .page subNomap)) ∧
    (let s := (stratusJob .lease [] false).setPoison 0 0 true
     ∃ j, s.async 0 4 = some j ∧ s.firstGap 0 j.actor.asid j.base (j.len / 65536) 0 = some (0, .mce 3)) ∧
    (placeOf (.master 0 0) 0 1 = .ok (.app 0) ∧ ((stratusJob .llcwb [] false).async 0 4).map (·.kind) = some .llcwb) ∧
    ((stratusJob (.pmig true) [] false).async 0 4).map (·.todo) = some [] ∧
    ((stratusJob (.pmig true) [0] false).async 0 4).map (·.todo) = some [0] ∧
    ((stratusJob (.nsend 0 0 0 0 0) [] false).async 0 4).map (·.kind) = some (.nsend 0 0 0 0 0) ∧
    (let s := withJob { aJob with detached := true }
     s.job 0 ((State.reset.jobOwner (.master 0 0) * 65536 + 0xFFFF) / 65536)
       ((State.reset.jobOwner (.master 0 0) * 65536 + 0xFFFF) % 65536) = some { aJob with detached := true }) ∧
    (let s := State.reset.modSec 0 fun c => { c with tlbis := [⟨4, 0, 0, 0x10000, false⟩] }
     (s.sec 0).tlbis.find? (fun t => t.id == 4) = some ⟨4, 0, 0, 0x10000, false⟩) ∧
    (let s := groupState true
     (∃ a, (s.sec 0).asyncs = [a] ∧ a.kind = .pmig true ∧ a.todo = [0]) ∧ (0 : Nat) < 2 ^ 64 ∧
       s.movable 0 0 0 true = some (0x30000, 0x200000) ∧ ∀ i, i < 256 → 0x30000 + i < (s.sec 0).fpool.headD 0) ∧
    (groupState false).movable 0 0 0 false = some (0x30000, 0x10000000000) := by
  refine ⟨⟨_, _, rfl, ?_, rfl, rfl, ?_, ?_⟩, ⟨_, rfl, ?_⟩, ⟨_, rfl, ?_⟩, ⟨ok ?_, ?_⟩, ?_, ?_, ?_, ?_, ?_, ⟨⟨_, rfl, rfl, rfl⟩, ?_, ?_, ?_⟩, ?_⟩ <;>
    decide +kernel

/-- A write-back of one dirty line, whose page has a cached translation or none. -/
def writeBackJob (tlb : Sparse (Option Tlb)) (bad : List Nat) : State :=
  let s := (stratusJob .llcwb [] false).modSec 0 fun c => { c with
    asyncs := c.asyncs.map fun a => { a with len := 128 }, tlb := tlb, badDevice := bad }
  s.setLine (lineKey 0 0 0) (some { openLine 7 with dirty := true })

theorem witness_writeBacks :
    (let s := writeBackJob [(pageKey 0 0, some ⟨0x40000, (openLine 7).perm, false, false, false, 0⟩)] []
     (s.sec 0).badDevice = [] ∧ (∃ j r, s.async 0 4 = some j ∧ s.earlierDone j.actor = true ∧
       s.jobOfActor 0 j.actor = some r ∧ j.kind = .llcwb ∧ j.base % 128 = 0 ∧ j.len = 128) ∧
       s.line (lineKey 0 0 0) = some { openLine 7 with dirty := true } ∧ (openLine 7).data.length = 128 ∧
       ∃ u, s.translate 0 0 0 = .ok u) ∧
    (let s := writeBackJob [(pageKey 0 0, some ⟨0x40000, (openLine 7).perm, false, false, false, 0⟩)] [0x800]
     (s.sec 0).badDevice.contains (0x40000 / 128) = true) ∧
    (let s := writeBackJob [] []
     s.translate 0 0 0 = .error (.page subNomap)) := by
  dsimp only; refine ⟨⟨?_, ⟨_, _, rfl, ?_, rfl, rfl, ?_, ?_⟩, ?_, ?_, okEx ?_⟩, ?_, err ?_⟩ <;> decide +kernel

/-- A transfer whose bytes are read, whose page is missing, and whose line denies the read. -/
def transfer (s : State) : State :=
  s.modSec 0 fun c => { c with asyncs := c.asyncs.map fun a => { a with len := 8 } }

theorem witness_transfers :
    (let s := transfer (stratusJob (.nsend 0 0 0 0 0) [] true)
     let a := masterActor 1
     (∃ j r, s.async 0 4 = some j ∧ s.jobOfActor 0 j.actor = some r ∧ s.earlierDone j.actor = true ∧ j.actor = a ∧ j.len = 8) ∧
       ((s.startAsync 0 ((s.async 0 4).getD (aGather .lease []))).netLoads a 8 0 8).2 = none) ∧
    (let s := transfer (stratusJob (.nsend 0 0 0 0 0) [] false)
     (s.netLoads (masterActor 1) 8 0 8).2 = some ⟨6, 1, 0, 0, 0⟩ ∧ Flt.waits ⟨6, 1, 0, 0, 0⟩ = false) ∧
    (let s := (transfer (stratusJob (.nsend 0 0 0 0 0) [] false)).setLine (lineKey 0 0 0)
       (some { openLine 0 with perm := ⟨false, true, true, true, false⟩ })
     (s.netLoads (masterActor 1) 8 0 8).2 = some ⟨6, 2, 0, 0, 0⟩ ∧ Flt.waits ⟨6, 2, 0, 0, 0⟩ = false) := by
  dsimp only; and_intros <;> first
      | (show ∃ _, _; exact ⟨_, _, rfl, rfl, by decide +kernel, rfl, rfl⟩) | decide +kernel

/-- An instance in a phase, with its index waiter, and a bound, a drawn and a free context. -/
def pool (f : Inst → Inst) (h : Holding) : State :=
  (withInst f State.reset).modCtx 0 0 fun c => { c with holds := h }

theorem witness_spawnUnit :
    (let s := parked (.master 0 3) (.index 7 2) (pool (fun i => { i with phase := .waitIdx, idx := none }) .released)
     (s.sec 0).insts.find? (fun i => i.phase == .waitIdx) = some { anInst with phase := .waitIdx, idx := none } ∧
       s.inst 0 7 = some { anInst with phase := .waitIdx, idx := none } ∧ s.freeIndex 0 = some 0 ∧
       s.indexWaiter 7 = some (.master 0 3, 2)) ∧
    (let s := pool (fun i => { i with phase := .lease }) .released
     s.inst 0 7 = some { anInst with phase := .lease } ∧ s.quiet 0 0 5 ∧
       s.firstAbsent 0 5 (anInst.leases ++ [(anInst.rcd.save, 0x1000000)])
         (pageCount (anInst.leases ++ [(anInst.rcd.save, 0x1000000)]) - 0) 0 = some (0, 0x10000)) ∧
    (let s := pool (fun i => { i with phase := .lease, leasePage := 257 }) .released
     s.firstAbsent 0 5 (anInst.leases ++ [(anInst.rcd.save, 0x1000000)])
       (pageCount (anInst.leases ++ [(anInst.rcd.save, 0x1000000)]) - 257) 257 = none ∧ 0 < anInst.rcd.count ∧
       { aRecord with count := 0 }.count = 0) ∧
    (let s := pool (fun i => { i with vts := [] }) .released
     s.endable 0 { anInst with vts := [] } = true ∧ anInst.owner = .master 0) ∧
    (let s := pool (fun i => { i with phase := .ready }) .released
     s.slotFree 0 0 = true ∧ s.dWanted 0 0 = false ∧ s.messageWaits 0 (clusterOf 0) = false ∧ s.imageFor 0 0 = none ∧
       chooseEntry ((s.sec 0).insts.filter fun n => n.phase == .ready && n.broadcast && n.eligible 0) =
         some { anInst with phase := .ready }) ∧
    (let s := pool (fun i => { i with phase := .ready }) (.bound 7)
     (s.ctx 0 0).holds = .bound 7 ∧ s.inst 0 7 = some { anInst with phase := .ready } ∧ anInst.replay = [] ∧
       anInst.draw = 1 ∧ 1 < anInst.rcd.count) ∧
    (let s := pool (fun i => { i with phase := .ready, draw := 2 }) (.bound 7)
     s.dWanted 0 0 = false ∧ (s.inst 0 7).map (·.draw) = some anInst.rcd.count ∧ (s.ctx 0 0).drawAfter = none) ∧
    (let s := pool (fun i => { i with phase := .ready, replay := [0] }) (.bound 7)
     (s.inst 0 7).map (·.replay) = some [0]) ∧
    ((pool id (.drawn 7 0)).ctx 0 0).holds = .drawn 7 0 ∧
    (let own := { anInst with uid := 8, owner := .vt ⟨7, 0⟩, vts := [] }
     let s := (pool id .released).modSec 0 fun c => { c with insts := [anInst, own] }
     let t := (pool id .released).modSec 0 fun c => { c with insts := [{ anInst with vts := [] }, own] }
     s.inst 0 8 = some own ∧ s.endable 0 own = true ∧ s.ownerGone 0 own = false ∧
       t.inst 0 8 = some own ∧ t.endable 0 own = true ∧ t.ownerGone 0 own = true) ∧
    (chooseEntry [anInst, { anInst with uid := 8, bypass := 4 }] = some { anInst with uid := 8, bypass := 4 } ∧
      chooseEntry [{ anInst with uid := 8, readySeq := 1 }, anInst] = some anInst) := by
  dsimp only; and_intros <;> decide +kernel

/-- Core 0 running, stopped and stopped with its image saved; a vt on it parked on a fault; an image for a free slot. -/
def stoppedCore (saved : Bool) : State := (onVt id).modCore 0 0 0 fun c => { c with stopped := some 3, saved := saved }

/-- The lines of a vt's image in its save area, held, and the translation of their page. -/
def imageLines (s : State) : State :=
  ((List.range 12).foldl (fun s k => s.setLine (lineKey 0 5 (0x10000000 + 128 * k)) (some (openLine 0))) s).modSec 0 fun c =>
    { c with tlb := [(pageKey 5 0x10000000, some ⟨0x40000, (openLine 0).perm, false, false, false, 0⟩)] }

theorem witness_preemption :
    (let s := parked (.thread 0 0) (.fault 8) (onVt id)
     (s.coreSt 0 0 0).stopped = none ∧ s.isFenced 0 (chipletOf 0) = false ∧ (s.sec 0).power = .running ∧ 0 ∈ slotsOf 0 0 ∧
       (s.hart (ctxAgent 0 0)).tx = none ∧ (s.hart (ctxAgent 0 0)).park = some (.fault 8)) ∧
    (∀ next, ((onVt id).hart (ctxAgent 0 0)).park ≠ some (.fault next)) ∧
    (let s := stoppedCore false
     (s.coreSt 0 0 0).stopped = some 3 ∧ (s.coreSt 0 0 0).saved = false ∧ s.coreQuiet 0 0 0 = true ∧ s.quiet 0 3 4 ∧
       s.vtAt 0 0 = some ⟨7, 0⟩ ∧ s.inst 0 7 = some anInst) ∧
    (let w : Saved := { uid := 7, idx := 0, vt := ⟨7, 0⟩, needsD := false, ran := 0, fault := some 8, roSeq := 0,
                        unread := [], engSeq := (0, 0), epoch := 0, order := 0 }
     let s := (pool id .released).modSec 0 fun c => { c with saved := [w] }
     s.slotFree 0 6143 = true ∧ s.dWanted 0 6143 = false ∧ s.boundWaits 0 6143 = false ∧
       s.messageWaits 0 (clusterOf 6143) = false ∧ s.imageFor 0 6143 = some w ∧ s.inst 0 w.uid = some anInst) ∧
    (let s := imageLines (stoppedCore false)
     let va := anInst.rcd.save + 1536 * 0
     (∀ k ∈ slotsOf 0 0, k ≠ 0 → s.vtAt 0 k = none) ∧ va % 128 = 0 ∧ va + 1536 ≤ 2 ^ 56 ∧ s.vtAt 0 0 = some ⟨7, 0⟩ ∧
       (s.ctx 0 0).extFrom = none ∧ (openLine 0).data.length = 128 ∧
       ∀ k, k < 12 → s.line (lineKey 0 5 (va + 128 * k)) = some (openLine 0) ∧ s.tlbHit 0 5 (va + 128 * k) ≠ none) ∧
    (let s := { stoppedCore false with flight := [{ aFlight 9 1 (.push 0 []) with actor := vtActor 0 }] }
     s.coreQuiet 0 0 0 = false) ∧
    (let r := { aRun true with for_ := .query (ctxAgent 0 0) 2 0 ⟨5, true, false⟩ true }
     let s := { parked (.thread 0 0) (.pginv 1) (onVt id) with gen := some r }
     (s.hart (ctxAgent 0 0)).tx = none ∧ (s.hart (ctxAgent 0 0)).park = some (.pginv 1) ∧ s.gen = some r ∧
       r.for_ = .query (ctxAgent 0 0) 2 0 ⟨5, true, false⟩ true) := by
  have e : ((onVt id).hart (ctxAgent 0 0)).park = none := by decide +kernel
  refine ⟨?_, fun _ h => (nomatch e.symm.trans h), ?_, ?_, ?_, ?_, ?_⟩ <;> (dsimp only; and_intros) <;> decide +kernel

theorem witness_savedImage :
    ((1 : Fin 8) ≠ 0 ∧ (7 : Fin 8) ≠ 0 ∧ (Ctx.reset 0).mxcfg = none ∧
      { Ctx.reset 0 with mxcfg := some intCfg }.mxcfg = some intCfg ∧ intCfg.1.toNat < 2 ^ 26 ∧ intCfg.2.toNat < 2 ^ 48 ∧
      (Ctx.reset 0).vtn.toNat < 2 ^ 40 ∧ (Ctx.reset 0).sph.toNat < 2 ^ 56 ∧
      homecBits (Ctx.reset 6144).homec.toNat = (Ctx.reset 6144).homec.toNat) ∧
    (Hart.resetThread.pc.toNat % 4 = 0 ∧ Hart.resetThread.fmode.toNat ≤ 4 ∧ Hart.resetThread.fflags.toNat < 32) ∧
    (let h := { Hart.resetThread with pc := 0x00FFFFFFFFFFFFFC, fmode := 0x104, fflags := 31 }
     h.pc.toNat % 4 = 0 ∧ 0x100 ≤ h.fmode.toNat ∧ h.fmode.toNat ≤ 0x104 ∧ h.fflags.toNat < 32) := by
  dsimp only; and_intros <;> decide +kernel

theorem witness_registerSteps :
    (((767 : BitVec 10).toNat = 8 * (95 : Fin 96).val + (7 : Fin 8).val) ∧ (768 : BitVec 10).toNat ≠ 8 * 95 + 7 ∧
      (1 : BitVec 16) ≠ 0) ∧
    (let s := State.reset.modCore 0 95 7 fun c => { c with next := some true }
     (s.coreSt 0 95 7).next = some true) ∧
    (let s := State.reset.modCore 0 95 7 fun c => { c with modeY := true, holder := some 7 }
     (s.coreSt 0 95 7).modeY = true ∧ (s.coreSt 0 95 7).holder = some 7 ∧ (s.coreSt 0 95 7).stopped = none) ∧
    (let s := State.reset.modSec 0 fun c => { c with hxLock := true, hxResps := [⟨0, []⟩] }
     (s.sec 0).hxLock = true ∧ (s.sec 0).hxResps ≠ []) := by
  dsimp only; and_intros <;> decide +kernel

/-- The least and the greatest legal range, and ranges beyond; each kind of handle. -/
theorem witness_controlWindow :
    (∀ p ∈ [(0, 65536), (2 ^ 56 - 2 ^ 40, 2 ^ 40)], p.2 % 65536 = 0 ∧ 65536 ≤ p.2 ∧ p.2 ≤ 2 ^ 40 ∧ p.1 + p.2 ≤ 2 ^ 56) ∧
    (State.reset.export_ 0 4095).valid = false ∧ (State.reset.export_ 0 4095).len = 0 ∧
    (let s := State.reset.modSec 0 fun c => { c with exports := [(4095, ⟨0, 65536, 0, true, true, true, true, 0xFFFF⟩)] }
     (s.export_ 0 4095).valid = true ∧ (s.export_ 0 4095).busy = true) ∧
    (let ok := fun (h : Nat) => ¬(h / 2 ^ 34 ≠ 0 ∨ h / 2 ^ 28 % 16 ≠ 0 ∨ h / 2 ^ 32 % 4 = (0 : Sec).val)
     (0x3FFFFFFFF : Word) ≠ 0 ∧ ¬ok 0x3FFFFFFFF ∧ ok 0x30FFFFFFF ∧ ¬ok 0x400000001 ∧ ¬ok 1) ∧
    (let s := (State.reset.modSec 0 fun c => { c with imports := [(255, ⟨0x30FFFFFFF, false, false, false, false, 0⟩)] }).modSec 3
       fun c => { c with exports := [(4095, ⟨0, 65536, 0, true, true, true, false, 0xFFFF⟩)] }
     let im := s.import_ 0 255
     let far := s.export_ (handleSec im.handle.toNat) (handleIndex im.handle.toNat)
     im.handle ≠ 0 ∧ im.valid = false ∧ im.err = false ∧ (s.sec (handleSec im.handle.toNat)).power = .running ∧
       far.valid = true ∧ far.gen.toNat = im.handle.toNat % 65536 ∧ s.bridgeTakes 3 0 = true ∧ s.bridgeUp 0 3 = true) ∧
    (let s := { State.reset with bridges := Vector.replicate 6 false }
     s.bridgeTakes 3 0 = true ∧ s.bridgeUp 0 3 = false ∧ ¬∃ y, s.bridgeUp 0 y = true ∧ s.bridgeUp y 3 = true) ∧
    (State.reset.modSec 3 fun c => { c with power := .ready }).bridgeTakes 3 0 = false ∧
    ((1 : BitVec 24).toNat % 8 ≠ 0 ∧ 0x21018 ≤ (0x21018 : BitVec 24).toNat ∧ (0x20000000 : Word).getLsbD 31 = false ∧
      (0xA0000000 : Word).getLsbD 31 = true ∧ (0xA0000000 : Word).getLsbD 29 = true) := by
  dsimp only; and_intros <;> decide +kernel

theorem witness_errorsAndFences :
    (siteSector (.dram 2 0) = 2 ∧ siteSector (.register 2 3) = 2 ∧ State.reset.intMaster 0 = some 0 ∧ State.reset.quiet 0 0 0xB) ∧
    (let s := State.reset.setLine (lineKey 0 (BitVec.ofNat 16 5) 0x10000) (some (openLine 1))
     siteSector (.llc 0 5 0x10000) = 0 ∧ s.line (lineKey 0 (BitVec.ofNat 16 5) 0x10000) = some (openLine 1)) ∧
    (State.reset.isFenced 0 3 = false ∧ (State.reset.sec 0).power = .running ∧ chipletOf (clusterOf 6143) = 3 ∧
      chipletOf 95 = 3 ∧ 0x1FFFF8 % 8 = 0) ∧
    (∃ u, exec (.eccEvent (.device 0 0x100) (.uncorrectable .nobody)) State.reset = .next u ∧
      (u.canIssue (.master 0 0) = true ∧ (u.hart (.master 0 0)).tx = none)) ∧
    (2 : Sec) ∉ linkSectors (.bridge 0) ∧
    (let s := State.reset.modSec 0 fun c => { c with power := .settling true, fenced := c.fenced.set 3 true }
     (s.sec 0).power ≠ .running ∧ (s.sec 0).power ≠ .down ∧ s.isFenced 0 3 = true) ∧
    (let s := State.reset.modSec 0 fun c => { c with fenced := c.fenced.set 3 true }
     s.isFenced 0 3 = true ∧ (s.sec 0).power = .running ∧ s.intMaster 0 = some 0 ∧ (15 : Fin 16).val / 4 = (3 : Fin 4).val) := by
  dsimp only; and_intros <;>
    first
      | (show ∃ _, _; exact nextP (fun u => decide (u.canIssue (.master 0 0) = true ∧ (u.hart (.master 0 0)).tx = none))
          (fun _ h => of_decide_eq_true h) (by decide +kernel))
      | decide +kernel

/-- A sector in a state of the boot and reset sequences. -/
def powered (p : Power) (l : List Later) : State := State.reset.modSec 0 fun c => { c with power := p, later := l }

theorem witness_resets :
    (State.reset.imageOf 1 = none ∧ (State.reset.sec 0).power = .running ∧ (1 : Sec) ≠ 0 ∧ (0 : Sec) ∈ [0] ∧ (1 : Sec) ∉ [(0 : Sec)]) ∧
    (let s := powered .ready []
     (s.sec 0).power = .ready ∧ (s.sec 0).later = []) ∧
    ((powered .ready [.fence 3 true]).sec 0).later = [.fence 3 true] ∧
    ((powered .down []).sec 0).power = .down ∧
    (let s := powered (.settling false) []
     (s.sec 0).power = .settling false ∧ s.workLeft 0 = false) ∧
    { powered (.settling false) [] with bankq := [aRequest 0x10000 .write] }.workLeft 0 = true ∧
    (let s := powered (.settling true) []
     (s.sec 0).power = .settling true ∧ s.workLeft 0 = false) ∧
    { powered (.settling true) [] with bankq := [aRequest 0x10000 .write] }.workLeft 0 = true ∧
    (let s := State.reset.modSec 1 fun c => { c with imports := [(255, ⟨0x0000000FF, true, false, true, true, 65536⟩)] }
     s.importsFrom 1 0 255 = true) ∧
    ((powered (.resetting [1, 2]) []).sec 0).power = .resetting [1, 2] ∧
    ((2 : Sec) ∈ [(1 : Sec), 2] ∧ (2 : Sec) ≠ 1 ∧ ∀ m ∈ [(1 : Sec)], m = 1) := by
  dsimp only; and_intros <;> decide +kernel

/-- A vt whose home and context are on the chiplet, one whose message leaves it, and one that is elsewhere, of an
instance on `n` clusters. -/
def losable (re : Bool) (n : Nat) : Inst :=
  { anInst with rcd := { aRecord with re := re, clusters := n }, vts := [⟨0, 0, some 0⟩, ⟨1, 6142, none⟩, ⟨2, 6141, some 6141⟩] }
def losing (i : Inst) : State :=
  { ((withInst (fun _ => i) State.reset).modSec 0 fun c => { c with fenced := c.fenced.set 0 true }) with
    flight := [aFlight 3 95 (.migrate { aMove with vt := ⟨7, 1⟩, home := 6142, from_ := 0 })] }

theorem losable_left : ¬∃ k, k < 6144 ∧ (losing (losable true 1)).isFenced 0 (chipletOf (clusterOf k)) = false ∧
    (losable true 1).eligible k = true := by
  rintro ⟨k, _, hf, he⟩
  have h : k / 64 = 0 := by
    simp [Inst.eligible, losable, aRecord] at he
    omega
  have : clusterOf k = 0 := by simp [clusterOf, h]
  rw [this] at hf
  exact absurd hf (by decide +kernel)

theorem witness_vtLoss :
    (let s := losing (losable true 96)
     s.inst 0 7 = some (losable true 96) ∧ ⟨0, 0, some 0⟩ ∈ s.lostVts 0 0 (losable true 96) ∧ ⟨1, 6142, none⟩ ∈ s.lostVts 0 0 (losable true 96) ∧
       (losable true 96).rcd.re = true ∧ s.isFenced 0 (chipletOf (clusterOf 6080)) = false ∧
       (losable true 96).eligible 6080 = true) ∧
    (let s := losing (losable true 1)
     s.inst 0 7 = some (losable true 1) ∧
       ¬∃ k, k < 6144 ∧ s.isFenced 0 (chipletOf (clusterOf k)) = false ∧ (losable true 1).eligible k = true) ∧
    (let s := losing (losable false 96)
     s.inst 0 7 = some (losable false 96) ∧ (losable false 96).rcd.re = false) ∧
    (let va := aRecord.save + 0xA80000
     let l := { openLine 0 with data := List.replicate 24 0 ++ leBytes 8 7 ++ List.replicate 96 0 }
     let s := ((losing (losable true 1)).setLine (lineKey 0 5 va) (some l)).modSec 0 fun c =>
       { c with tlb := [(pageKey 5 va, some ⟨0x40000, l.perm, false, false, false, 0⟩)] }
     va % 128 = 0 ∧ va + 128 ≤ 2 ^ 56 ∧ s.tlbHit 0 5 va ≠ none ∧ s.line (lineKey 0 5 va) = some l ∧ l.data.length = 128 ∧
       l.poison = false ∧ leNat (slice l.data 24 8) + [0].length ≤ 8) ∧
    (let own := { anInst with uid := 8, owner := .vt ⟨7, 0⟩ }
     let s := (losing (losable true 1)).modSec 0 fun c => { c with insts := c.insts ++ [own] }
     own ∈ (s.sec 0).insts ∧ own.owner = .vt ⟨7, 0⟩ ∧ own.final = none ∧ own.phase ≠ .waitIdx) := by
  dsimp only; and_intros <;> first
      | exact List.mem_mergeSort.mpr (by decide +kernel) | decide +kernel | exact losable_left

/-- A command of the mailbox: QUOTE, PCAP, one that is none, and answers that wait with the lock and without. -/
def mailbox (cmd : Nat) (resps : List HxResponse) (lock : Bool) : State :=
  State.reset.modSec 0 fun c => { c with hxDbo := true, hxSent := BitVec.ofNat 32 cmd, hxResps := resps, hxLock := lock }

theorem witness_mailbox :
    (let s := mailbox 0x01000000 [] false
     (s.sec 0).hxDbo = true ∧ (s.sec 0).power = .running ∧ (s.sec 0).hxSent.toNat / 2 ^ 24 = 1 ∧ (s.sec 0).hxResps = []) ∧
    ((mailbox 0x0900FFFF [] false).sec 0).hxSent.toNat / 2 ^ 24 = 9 ∧
    ((mailbox 0x01000000 [⟨0, []⟩] false).sec 0).hxResps ≠ [] ∧
    (let s := mailbox 0x0A000000 [] true
     9 < (s.sec 0).hxSent.toNat / 2 ^ 24 ∧ (s.sec 0).hxLock = true) ∧
    (let s := State.reset.modSec 0 fun c => { c with hxResps := [⟨5, [(0, [1])]⟩] }
     (s.sec 0).hxDbo = false ∧ (s.sec 0).hxResps = [⟨5, [(0, [1])]⟩] ∧ (s.sec 0).hxLock = false ∧ s.intMaster 0 = some 0 ∧
       s.quiet 0 0 0xC) := by
  dsimp only; and_intros <;> decide +kernel

theorem witness_managementPort :
    (let s := { State.reset with hz := { State.reset.hz with images := [(1, some ⟨2, 3, true, []⟩)] } }
     s.image 1 = some ⟨2, 3, true, []⟩) ∧
    (let s := { State.reset with hz := { State.reset.hz with images := [(1, some ⟨2, 3, false, []⟩)] } }
     s.image 1 = some ⟨2, 3, false, []⟩) := by
  dsimp only; and_intros <;> decide +kernel

/-- A region of 64 bytes under key 0 and a receive queue 0 of one buffer, both of ASID 5, and their lines. -/
def ported : State :=
  let s := State.reset.modSec 0 fun c => { c with
    netBase := some 0x100000
    netTable := [(0x40000, 5), (0x40002, 1), (0x4000A, 1), (0x40010, 64), (0x40014, 1), (0x4001A, 2), (0x40020, 1), (0x80000, 5),
      (0x80002, 7), (0x8000A, 1), (0x80010, 64)]
    pcieRing := 0x30000, pcieAsid := 5, pcieMsg := 0x40000 }
  (s.setLine (lineKey 0 5 0x10000) (some (openLine 1))).setLine (lineKey 0 5 0x20000) (some (openLine 2))

theorem witness_ports :
    (let s := ported
     let r : RdmaIn := ⟨0, 0, 0x10000, 64, List.replicate 64 9⟩
     (s.sec 0).power = .running ∧ s.region 0 r true = some 5 ∧ s.region 0 r false = some 5 ∧ r.data.length = r.len ∧
       s.homeLine 0 5 r.va r.len (portAcc .write) (openLine 1) ∧ s.homeLine 0 5 r.va r.len (portAcc .read) (openLine 1) ∧
       s.region 0 ⟨0, 0, 0x10000, 65, []⟩ true = none ∧ s.region 0 ⟨0, 0, 0x0FFFF, 64, []⟩ false = none ∧
       s.rxQueue 0 r.queue = some ⟨5, 0x10000, 64, 1, 0x20000, 1⟩ ∧ s.rxQueue 0 1 = none ∧
       0 - Sparse.get 0 (s.sec 0).rxTaken 0 < min 1 1 ∧ lineKey 0 5 0x10000 ≠ lineKey 0 5 0x20000 ∧
       s.homeLine 0 5 0x10000 (r.data.take 64).length (portAcc .write) (openLine 1) ∧
       s.homeLine 0 5 0x20000 32 (portAcc .write) (openLine 2) ∧ (s.sec 0).pcieRing ≠ 0) ∧
    (let s := ported.modSec 0 fun c => { c with rxDone := [(0, 1)], pcieOut := [3] }
     min 1 1 ≤ Sparse.get 0 (s.sec 0).rxDone 0 - Sparse.get 0 (s.sec 0).rxTaken 0 ∧ 3 ∈ (s.sec 0).pcieOut ∧ 4 ∉ (s.sec 0).pcieOut) ∧
    ported.quiet 0 (Fin.ofNat 16 15) 3 ∧
    ((ported.sec 0).pcieMsg ≠ 0 ∧ (0x40000 : Nat) = (ported.sec 0).pcieMsg ∧ 2 ^ 56 < 2 ^ 56 + 1 ∧
      ported.homeLine 0 5 0x10000 64 (portAcc .read) (openLine 1)) := by
  dsimp only; and_intros <;> decide +kernel

/-- Ports whose page has no mapping; a sector with work accepted, and one without. -/
theorem witness_failures :
    (let s := { ported with llc := [] }
     s.region 0 ⟨0, 0, 0x10000, 64, []⟩ true = some 5 ∧ (s.portStore 0 5 0x10000 [9]).2 = some (.page subNomap) ∧
       s.portBytes 0 5 (chunks 0x10000 64) = .error (.page subNomap)) ∧
    (0x10000 % 128 + 64 ≤ 128 ∧ HomeErr.page subNomap ≠ .busy) ∧
    (let s := { (ported.bootTables 0 5 0x10000) with
       llc := []
       bankq := [⟨3, 0, 0, vtActor 1, true, 4, 0, 0, 8, .read, [], [(0, 2 ^ 40)], false⟩] }
     let s := (List.range 16).foldl (fun s j => s.setLine (lineKey 0 5 (0x10000 + (j + 1) * (2 ^ 24 + 2 ^ 32))) (some (openLine 0))) s
     s.region 0 ⟨0, 0, 0x10000, 64, List.replicate 64 9⟩ true = some 5 ∧ (s.portStore 0 5 0x10000 (List.replicate 64 9)).2 = some .busy ∧
       s.portBytes 0 5 (chunks 0x10000 64) = .error .busy ∧
       s.portStore 0 5 0x10000 [9] = (s, some .busy)) := by
  dsimp only; and_intros <;> first | decide +kernel | exact err (by decide +kernel)
/-- The first master core with a word where it fetches; the agent whose turn it is, then. -/
def fetching (w : Nat) : State := State.reset.withFetchWord 32 w
def fetchingNow (w : Nat) : State := (fetching w).begin_ (.master 0 0)

/-- A result whose first part has a value. -/
theorem okFst {ε α β : Type} {e : Except ε (Option (α × β))} {w : α}
    (h : (match e with | .ok (some p) => some p.1 | _ => none) = some w) : ∃ u, e = .ok (some (w, u)) := by
  match e, h with
  | .ok (some (a, b)), h => cases h; exact ⟨b, rfl⟩

/-- A context that reads a deposited value for the first time. -/
def firstRead (s : State) : State := { s with curWord := 0x00224000 }.modMe fun h => { h with unread := [1] }

theorem witness_stepRunsDecoded :
    ((fetching 0x00224000).tape = [] ∧ (fetching 0x00224000).agenda = [] ∧
      (fetching 0x00224000).turns.find? (fetching 0x00224000).grantRoles.canIssue = some (.master 0 0) ∧
      (fetchingNow 0x00224000).watchdogOut (.master 0 0) = false ∧
      decode ([0x00, 0x40, 0x22, 0x00, 0xFF] : List Byte) = .ok (.add false 1 1 2, [0xFF]) ∧
      ∃ u, (fetchingNow 0x00224000).fetchWord (.master 0 0) 0 =
        .ok (some (leNat (([0x00, 0x40, 0x22, 0x00, 0xFF] : List Byte).take 4), u))) ∧
    ((∃ u, (fetchingNow 0x60000000).fetchWord (.master 0 0) 0 = .ok (some (0x60000000, u))) ∧
      decodeWord 0x60000000 = .error .opcode) ∧
    (State.reset.begin_ (.master 0 0)).fetchWord (.master 0 0) 0 = .error ⟨6, 1, 0, 0, 0⟩ ∧
    ((onVt id).me.unread = [] ∧ (∃ o, (firstRead (onVt id)).observe (.add false 1 1 2) = some o) ∧
      (let v := firstRead (openRelease (onVt id))
       v.observe (.add false 1 1 2) = none ∧ v.releaseOpen v.cur = true)) ∧
    (let s := (onVt (withS 2 0)).modCore 0 0 0 fun c => { c with modeY := true, holder := some 0, watchdog := 2 ^ 20 }
     s.watchdogOut (.thread 0 0) = true) ∧
    (let s := { State.reset with agenda := [.engineStep 0 0], tape := [.due 0] }
     s.tape = [.due 0] ∧ s.agenda[0]? = some (.engineStep 0 0)) ∧
    (let s := { State.reset with tape := [.event .mgmtTelemetry] }
     s.tape = [.event .mgmtTelemetry] ∧ wordSpace .mgmtTelemetry = .event) ∧
    (let s := onVt id
     s.leaseCheck (.master 0 0) 0x00FFFFFFFFFFFFFC 4 = .ok () ∧ s.leaseCheck (.thread 0 0) 0x1FFFC 4 = .ok () ∧
       s.ownCopy (.thread 0 0) (lineKey 0 5 0x1FFFC) = none ∧
       (openLine 1).perm.x = true ∧ (openLine 1).perm.u = true ∧ (openLine 1).perm.nc = false ∧ (openLine 1).poison = false ∧
       (s.sec 0).wlog = []) ∧
    (let s := (State.reset.setLine (lineKey 0 0 0x1000) (some (openLine 1))).cached (.master 0 0) (lineKey 0 0 0x1000) true
     ∃ c, s.ownCopy (.master 0 0) (lineKey 0 0 0x1000) = some c ∧ c.perm.x = true ∧ c.perm.nc = false ∧
       s.sysLevel (.master 0 0) = true) := by
  refine ⟨⟨?_, ?_, ?_, ?_, rfl, okFst ?_⟩, ⟨okFst ?_, rfl⟩, err ?_, ⟨?_, someEx ?_, ?_, ?_⟩, ?_, ⟨rfl, rfl⟩, ⟨rfl, rfl⟩,
    ⟨ok ?_, ok ?_, ?_, rfl, rfl, rfl, rfl, ?_⟩, ⟨_, rfl, ?_, ?_, ?_⟩⟩ <;> decide +kernel

theorem witness_encodings :
    (WellFormed (.addi true 15 15 0x1FFFF) ∧ wordSpace (.addi true 15 15 0x1FFFF) = .cpu) ∧
    (WellFormed (.crunImm 7 .nc 0x1FFFF) ∧ wordSpace (.crunImm 7 .nc 0x1FFFF) = .cirrus) ∧
    (0x80224000 < 2 ^ 32 ∧ decodeWord 0x80224000 = .ok (.add true 1 1 2)) :=
  ⟨⟨rfl, rfl⟩, ⟨rfl, rfl⟩, by decide, rfl⟩

/-- What the statements about every step and about what is left unchanged assume. -/
theorem witness_frames :
    (State.reset.canonical = true ∧ ∃ t, step State.reset = .next t ∧ True) ∧
    (writesOf (.add false 1 1 2) = some ⟨[1], [], [], [], false, false⟩ ∧ State.reset.me.instret ≠ BitVec.allOnes 64 ∧
      ∃ t, exec (.add false 1 1 2) State.reset = .next t ∧ completed State.reset t) ∧
    (let s := onThread 0 (withS 1 aliasBase)
     s.feCount (spadWord 0 0 0) = 0 ∧ s.released true = .ok () ∧ s.cur = .thread 0 0 ∧ wordSpace (.ld false 2 1 .d false .rlx 0) = .cpu ∧
       ∃ t, exec (.ld false 2 1 .d false .rlx 0) s = .next t ∧ completed s t) ∧
    (openLine 1).data.length = 128 := by
  refine ⟨⟨?_, nextP (fun _ => true) (fun _ _ => trivial) ?_⟩, ⟨rfl, ?_, nextP (fun t => decide (t.me.instret =
    State.reset.me.instret + 1 ∧ t.me.park = none)) (fun _ h => by unfold completed; exact of_decide_eq_true h) ?_⟩, ⟨?_, ok ?_, rfl, rfl, nextP (fun t => decide
    (t.me.instret = (onThread 0 (withS 1 aliasBase)).me.instret + 1 ∧ t.me.park = none)) (fun _ h => by unfold completed; exact of_decide_eq_true h) ?_⟩,
    rfl⟩ <;> decide +kernel
end Sys2Proof.Tests
end

section
/-! SUPPORT. Bytes, lanes and bits of numbers: what a field reads in bytes that were written one field after the other. -/

namespace Sys2Proof.Laws

open Sys2Proof.Machine

/-! ## Numbers as bytes -/

@[simp] theorem length_leBytes (n v : Nat) : (leBytes n v).length = n := by
  induction n generalizing v with
  | zero => rfl
  | succ n ih => simp [leBytes, ih]

theorem leNat_leBytes {n v : Nat} (hv : v < 2 ^ (8 * n)) : leNat (leBytes n v) = v := by
  induction n generalizing v with
  | zero => simp only [Nat.mul_zero, Nat.pow_zero, Nat.lt_one_iff] at hv; simp [hv, leBytes, leNat]
  | succ n ih =>
    have hq : v / 256 < 2 ^ (8 * n) := by
      rw [Nat.mul_succ, Nat.pow_add] at hv
      exact Nat.div_lt_of_lt_mul (by omega)
    simp only [leBytes, leNat, ih hq, BitVec.toNat_ofNat]
    omega

theorem length_flatMap_leBytes {α : Type} (l : List α) (w : Nat) (f : α → Nat) :
    (l.flatMap fun a => leBytes w (f a)).length = l.length * w := by
  induction l with
  | nil => rw [List.length_nil, Nat.zero_mul]; rfl
  | cons a l ih =>
    rw [List.flatMap_cons, List.length_append, length_leBytes, ih, List.length_cons, Nat.succ_mul, Nat.add_comm]

theorem leNat_replicate_zero (n : Nat) : leNat (List.replicate n 0) = 0 := by
  induction n with
  | zero => rfl
  | succ n ih => rw [List.replicate_succ, leNat, ih]; rfl

/-! ## Parts of a list of bytes -/

theorem slice_slice (bs : List Byte) {off n o m : Nat} (h : o + m ≤ n) :
    slice (slice bs off n) o m = slice bs (off + o) m := by
  simp [slice, List.drop_take, List.take_take, List.drop_drop, Nat.min_eq_left (Nat.le_sub_of_add_le' h)]

theorem slice_append_right (as bs : List Byte) (off n : Nat) :
    slice (as ++ bs) (as.length + off) n = slice bs off n := by
  rw [slice, List.drop_length_add_append, slice]

/-- A part of joined lists of bytes stands behind all the parts before it. -/
theorem slice_flatten {parts : List (List Byte)} {i : Nat} {part : List Byte} (h : parts[i]? = some part) :
    slice parts.flatten ((parts.map List.length).take i).sum part.length = part := by
  induction parts generalizing i with
  | nil => simp at h
  | cons p parts ih =>
    cases i with
    | zero =>
      obtain rfl : p = part := by simpa using h
      simp [slice]
    | succ i =>
      simp only [List.flatten_cons, List.map_cons, List.take_succ_cons, List.sum_cons, slice_append_right]
      exact ih (by simpa using h)

/-- Elements of one width written one after the other. -/
theorem slice_flatMap {α : Type} {f : α → List Byte} {w : Nat} (hw : ∀ a, (f a).length = w) {l : List α} {i : Nat}
    (hi : i < l.length) : slice (l.flatMap f) (w * i) w = f l[i] := by
  induction l generalizing i with
  | nil => exact absurd hi (Nat.not_lt_zero i)
  | cons a l ih =>
    rw [List.flatMap_cons]
    cases i with
    | zero => rw [Nat.mul_zero, slice, List.drop_zero, List.take_left' (hw a)]; rfl
    | succ i =>
      have hoff : w * (i + 1) = (f a).length + w * i := by rw [hw, Nat.mul_succ, Nat.add_comm]
      rw [hoff, slice_append_right, ih (Nat.lt_of_succ_lt_succ hi)]
      rfl

/-! ## Lanes -/

theorem ofLanes_lt (w : Nat) (l : List Nat) : ofLanes w l < 2 ^ (w * l.length) := by
  induction l with
  | nil => simp [ofLanes]
  | cons x l ih =>
    rw [ofLanes, List.length_cons, Nat.mul_succ, Nat.add_comm (w * _), Nat.pow_add]
    calc x % 2 ^ w + 2 ^ w * ofLanes w l
        < 2 ^ w * (ofLanes w l + 1) := by have := Nat.mod_lt x (Nat.two_pow_pos w); rw [Nat.mul_succ]; omega
      _ ≤ 2 ^ w * 2 ^ (w * l.length) := Nat.mul_le_mul_left _ ih

theorem ofLanes_lane (w : Nat) {l : List Nat} {i : Nat} (hi : i < l.length) :
    ofLanes w l / (2 ^ w) ^ i % 2 ^ w = l[i] % 2 ^ w := by
  induction l generalizing i with
  | nil => simp at hi
  | cons x l ih =>
    cases i with
    | zero => simp [ofLanes]
    | succ i =>
      have hx : x % 2 ^ w < 2 ^ w := Nat.mod_lt _ (Nat.two_pow_pos w)
      rw [ofLanes, Nat.pow_succ', ← Nat.div_div_eq_div_mul, Nat.add_mul_div_left _ _ (Nat.two_pow_pos w),
        Nat.div_eq_of_lt hx, Nat.zero_add]
      exact ih (by simpa using hi)

/-! ## Bits -/

theorem bitsNat_lt (l : List Bool) : bitsNat l < 2 ^ l.length := by
  induction l with
  | nil => simp [bitsNat]
  | cons b l ih =>
    have hb := b.toNat_lt
    rw [bitsNat, List.length_cons, Nat.pow_succ]
    omega

theorem bitsNat_append (l l' : List Bool) : bitsNat (l ++ l') = bitsNat l + 2 ^ l.length * bitsNat l' := by
  induction l with
  | nil => simp [bitsNat]
  | cons b l ih =>
    rw [List.cons_append, bitsNat, bitsNat, ih, List.length_cons, Nat.pow_succ, Nat.mul_add, ← Nat.add_assoc,
      Nat.mul_comm (2 ^ l.length) 2, Nat.mul_assoc]

theorem testBit_bitsNat (l : List Bool) (i : Nat) : (bitsNat l).testBit i = l[i]?.getD false := by
  induction l generalizing i with
  | nil => simp [bitsNat]
  | cons b l ih =>
    cases i with
    | zero => cases b <;> simp [bitsNat, Nat.testBit_zero]
    | succ i =>
      have hb : (b.toNat + 2 * bitsNat l) / 2 = bitsNat l := by have := b.toNat_lt; omega
      rw [bitsNat, Nat.testBit_succ, hb, ih, List.getElem?_cons_succ]

/-- A bit that is read by division is the one that `testBit` gives. -/
theorem bit_eq_testBit (x i : Nat) : (x / 2 ^ i % 2 == 1) = x.testBit i := by
  rw [Nat.testBit_eq_decide_div_mod_eq]; rfl

theorem beq_one_of_eq_toNat {n : Nat} {b : Bool} (h : n = b.toNat) : (n == 1) = b := by
  subst h; cases b <;> rfl

end Sys2Proof.Laws
end

section
/-! SUPPORT. The saved image of a context (R48): its bytes as a list of fields, and what
stands at the offset of each field. -/

namespace Sys2Proof.Laws

open Sys2Proof.Machine

/-! ## Registers as lists -/

theorem vector_get_eq_getElem {α : Type} {n : Nat} (v : Vector α n) (k : Fin n) : v.get k = v[k.val] := rfl

theorem vector_get_ofFn {α : Type} {n : Nat} (f : Fin n → α) (k : Fin n) : (Vector.ofFn f).get k = f k := by
  rw [vector_get_eq_getElem, Vector.getElem_ofFn]

theorem vector_ext_get {α : Type} {n : Nat} {a b : Vector α n} (hab : ∀ k, a.get k = b.get k) : a = b :=
  Vector.ext fun k hk => hab ⟨k, hk⟩

theorem getElem?_toList_val {α : Type} {n : Nat} (v : Vector α n) (k : Fin n) :
    v.toList[k.val]? = some (v.get k) := by
  rw [vector_get_eq_getElem, List.getElem?_eq_getElem (by rw [Vector.length_toList]; exact k.isLt),
    Vector.getElem_toList]

theorem getElem?_drop_one_toList {α : Type} {n : Nat} (v : Vector α n) {k : Fin n} (hk : k.val ≠ 0) :
    (v.toList.drop 1)[k.val - 1]? = some (v.get k) := by
  rw [List.getElem?_drop, Nat.add_sub_cancel' (Nat.one_le_iff_ne_zero.mpr hk), getElem?_toList_val]

/-- A list behind one of `n` elements. -/
theorem getElem?_append_skip {α : Type} {l : List α} {n : Nat} (hl : l.length = n) (l' : List α) (i : Nat) :
    (l ++ l')[n + i]? = l'[i]? := by
  subst hl
  rw [List.getElem?_append_right (Nat.le_add_right ..), Nat.add_sub_cancel_left]

/-! ## The fields of an image -/

/-- The fields of an image, in the order of their offsets. -/
def imageFields (h : Hart) (c : Ctx) (seq : Nat) (ext : Bool) : List (List Byte) :=
  [h.s.toList.flatMap fun r => leBytes 8 r.val.toNat, h.v.toList.flatMap fun r => leBytes 64 r.body.toNat,
   h.v.toList.flatMap fun r => leBytes 8 r.side.toNat, leBytes 8 (2 ^ 64 - 1),
   (h.m.toList.drop 1).flatMap fun r => leBytes 8 r.val.toNat, h.q.toList.flatMap fun r => leBytes 16 r.val.toNat,
   leBytes 8 h.pc.toNat, leBytes 8 h.fmode.toNat, leBytes 8 h.fflags.toNat, leBytes 8 h.srseed.toNat,
   leBytes 8 c.vtn.toNat, leBytes 8 c.homec.toNat, leBytes 8 h.instret.toNat, leBytes 8 (imageState h),
   leBytes 8 (ofLanes 4 (h.v.toList.map fun r => tagCode r.tag)),
   leBytes 8 (c.accBound.toNat + bitsNat c.accLive.toList * 2 + c.accInt.toNat * 8),
   leBytes 8 (seq % 65536 + ext.toNat * 2 ^ 16 + h.hpri.val * 2 ^ 17), leBytes 8 c.sph.toNat, mxcfgBytes c.mxcfg]

/-- The lengths of these fields. -/
def imageLengths : List Nat := [128, 1024, 128, 8, 56, 64, 8, 8, 8, 8, 8, 8, 8, 8, 8, 8, 8, 8, 32]

theorem imageBytes_eq_flatten (h : Hart) (c : Ctx) (seq : Nat) (ext : Bool) :
    imageBytes h c seq ext = (imageFields h c seq ext).flatten := by
  simp only [imageFields, List.flatten_cons, List.flatten_nil, List.append_nil, ← List.append_assoc]
  unfold imageBytes
  rfl

theorem length_mxcfgBytes (m : Option (Word × Word)) : (mxcfgBytes m).length = 32 := by
  cases m <;> simp [mxcfgBytes]

theorem map_length_imageFields (h : Hart) (c : Ctx) (seq : Nat) (ext : Bool) :
    (imageFields h c seq ext).map List.length = imageLengths := by
  simp only [imageFields, imageLengths, List.map_cons, List.map_nil, length_mxcfgBytes, length_flatMap_leBytes,
    length_leBytes, List.length_drop, Vector.length_toList]

section
variable {h : Hart} {c : Ctx} {seq : Nat} {ext : Bool}

theorem length_imageBytes : (imageBytes h c seq ext).length = 1536 := by
  rw [imageBytes_eq_flatten, List.length_flatten, map_length_imageFields]; rfl

/-- Field `i` stands behind the fields before it. -/
theorem slice_imageBytes (i : Nat) {off : Nat} {field : List Byte} (hf : (imageFields h c seq ext)[i]? = some field)
    (ho : (imageLengths.take i).sum = off) : slice (imageBytes h c seq ext) off field.length = field := by
  rw [← ho, imageBytes_eq_flatten, ← map_length_imageFields h c seq ext]
  exact slice_flatten hf

theorem imageNat_imageBytes (i : Nat) {off n v : Nat} (hf : (imageFields h c seq ext)[i]? = some (leBytes n v))
    (ho : (imageLengths.take i).sum = off) (hv : v < 2 ^ (8 * n)) : imageNat (imageBytes h c seq ext) off n = v := by
  have hs := slice_imageBytes i hf ho
  rw [length_leBytes] at hs
  rw [imageNat, hs, leNat_leBytes hv]

/-- An element of a field that holds bit vectors of one width. -/
theorem imageNat_element {α : Type} {b : Nat} (i w : Nat) (f : α → BitVec b) {l : List α} {off k : Nat} {a : α}
    (hf : (imageFields h c seq ext)[i]? = some (l.flatMap fun a => leBytes w (f a).toNat)) (hk : l[k]? = some a)
    (ho : (imageLengths.take i).sum + w * k = off) (hb : b = 8 * w) :
    imageNat (imageBytes h c seq ext) off w = (f a).toNat := by
  subst hb ho
  obtain ⟨hlt, rfl⟩ := List.getElem?_eq_some_iff.mp hk
  have hin : w * k + w ≤ l.length * w := by rw [← Nat.mul_succ, Nat.mul_comm]; exact Nat.mul_le_mul_right w hlt
  have hs := slice_imageBytes i hf rfl
  rw [length_flatMap_leBytes] at hs
  rw [imageNat, ← slice_slice _ hin, hs, slice_flatMap (fun _ => length_leBytes ..) hlt, leNat_leBytes (f l[k]).isLt]

end

/-! ## What stands at each offset -/

section
variable {h : Hart} {c : Ctx} {seq : Nat} {ext : Bool}

@[simp] theorem imageNat_s (r : Fin 16) :
    imageNat (imageBytes h c seq ext) (8 * r.val) 8 = (h.s.get r).val.toNat :=
  imageNat_element 0 8 SReg.val rfl (getElem?_toList_val ..) (Nat.zero_add _) rfl

@[simp] theorem imageNat_v_body (r : Fin 16) :
    imageNat (imageBytes h c seq ext) (0x80 + 64 * r.val) 64 = (h.v.get r).body.toNat :=
  imageNat_element 1 64 VReg.body rfl (getElem?_toList_val ..) rfl rfl

@[simp] theorem imageNat_v_side (r : Fin 16) :
    imageNat (imageBytes h c seq ext) (0x480 + 8 * r.val) 8 = (h.v.get r).side.toNat :=
  imageNat_element 2 8 VReg.side rfl (getElem?_toList_val ..) rfl rfl

theorem imageNat_m_zero : imageNat (imageBytes h c seq ext) 0x500 8 = 2 ^ 64 - 1 :=
  imageNat_imageBytes 3 rfl rfl (by decide)

theorem imageNat_m {k : Fin 8} (hk : k ≠ 0) :
    imageNat (imageBytes h c seq ext) (0x500 + 8 * k.val) 8 = (h.m.get k).val.toNat := by
  have hk0 : k.val ≠ 0 := Fin.val_ne_zero_iff.mpr hk
  have ho : 0x508 + 8 * (k.val - 1) = 0x500 + 8 * k.val := by omega
  exact imageNat_element 4 8 MReg.val rfl (getElem?_drop_one_toList _ hk0) ho rfl

@[simp] theorem imageNat_q (k : Fin 4) :
    imageNat (imageBytes h c seq ext) (0x540 + 16 * k.val) 16 = (h.q.get k).val.toNat :=
  imageNat_element 5 16 QReg.val rfl (getElem?_toList_val ..) rfl rfl

@[simp] theorem imageNat_pc : imageNat (imageBytes h c seq ext) 0x580 8 = h.pc.toNat :=
  imageNat_imageBytes 6 rfl rfl h.pc.isLt

@[simp] theorem imageNat_fmode : imageNat (imageBytes h c seq ext) 0x588 8 = h.fmode.toNat :=
  imageNat_imageBytes 7 rfl rfl h.fmode.isLt

@[simp] theorem imageNat_fflags : imageNat (imageBytes h c seq ext) 0x590 8 = h.fflags.toNat :=
  imageNat_imageBytes 8 rfl rfl h.fflags.isLt

@[simp] theorem imageNat_srseed : imageNat (imageBytes h c seq ext) 0x598 8 = h.srseed.toNat :=
  imageNat_imageBytes 9 rfl rfl h.srseed.isLt

@[simp] theorem imageNat_vtn : imageNat (imageBytes h c seq ext) 0x5A0 8 = c.vtn.toNat :=
  imageNat_imageBytes 10 rfl rfl c.vtn.isLt

@[simp] theorem imageNat_homec : imageNat (imageBytes h c seq ext) 0x5A8 8 = c.homec.toNat :=
  imageNat_imageBytes 11 rfl rfl c.homec.isLt

@[simp] theorem imageNat_instret : imageNat (imageBytes h c seq ext) 0x5B0 8 = h.instret.toNat :=
  imageNat_imageBytes 12 rfl rfl h.instret.isLt

@[simp] theorem imageNat_sph : imageNat (imageBytes h c seq ext) 0x5D8 8 = c.sph.toNat :=
  imageNat_imageBytes 17 rfl rfl c.sph.isLt

/-! ### Tags, bindings and the sequence number -/

theorem imageNat_tag (r : Fin 16) :
    imageNat (imageBytes h c seq ext) 0x5C0 8 / 16 ^ r.val % 16 = tagCode (h.v.get r).tag := by
  have hlt := ofLanes_lt 4 (h.v.toList.map fun r => tagCode r.tag)
  rw [List.length_map, Vector.length_toList] at hlt
  rw [imageNat_imageBytes (off := 0x5C0) 14 rfl rfl hlt]
  have hr : r.val < (h.v.toList.map fun r => tagCode r.tag).length := by
    rw [List.length_map, Vector.length_toList]; exact r.isLt
  have hlane := ofLanes_lane 4 hr
  rw [List.getElem_map, Vector.getElem_toList] at hlane
  exact hlane.trans (Nat.mod_eq_of_lt (tagCode_lt _))

theorem bitsNat_accLive (c : Ctx) : bitsNat c.accLive.toList = (c.accLive.get 0).toNat + 2 * (c.accLive.get 1).toNat := by
  generalize c.accLive = v
  match v with
  | ⟨⟨[_, _]⟩, _⟩ => rfl

@[simp] theorem imageNat_bindings : imageNat (imageBytes h c seq ext) 0x5C8 8 =
    c.accBound.toNat + 2 * (c.accLive.get 0).toNat + 4 * (c.accLive.get 1).toNat + 8 * c.accInt.toNat := by
  have hb := c.accBound.toNat_lt
  have h0 := (c.accLive.get 0).toNat_lt
  have h1 := (c.accLive.get 1).toNat_lt
  have hi := c.accInt.toNat_lt
  rw [imageNat_imageBytes (off := 0x5C8) 15 rfl rfl (by rw [bitsNat_accLive]; omega), bitsNat_accLive]
  omega

@[simp] theorem imageNat_seq : imageNat (imageBytes h c seq ext) 0x5D0 8 =
    seq % 65536 + ext.toNat * 2 ^ 16 + h.hpri.val * 2 ^ 17 :=
  imageNat_imageBytes 16 rfl rfl (by have := ext.toNat_lt; have := h.hpri.isLt; omega)

/-! ### The matrix configuration -/

theorem slice_mxcfg {o n : Nat} (hn : o + n ≤ 32) :
    slice (imageBytes h c seq ext) (0x5E0 + o) n = slice (mxcfgBytes c.mxcfg) o n := by
  have hs : slice (imageBytes h c seq ext) 0x5E0 (mxcfgBytes c.mxcfg).length = mxcfgBytes c.mxcfg :=
    slice_imageBytes 18 rfl rfl
  rw [length_mxcfgBytes] at hs
  rw [← slice_slice _ hn, hs]

theorem slice_mxcfg_none (hc : c.mxcfg = none) : slice (imageBytes h c seq ext) 0x5E0 32 = List.replicate 32 0 := by
  rw [slice_mxcfg (o := 0) (by omega), hc]
  rfl

theorem imageNat_mxcfg_none (hc : c.mxcfg = none) : imageNat (imageBytes h c seq ext) 0x5E0 8 = 0 := by
  rw [imageNat, slice_mxcfg (o := 0) (by omega), hc]
  exact leNat_replicate_zero 8

theorem imageNat_mxcfg_config {w v : Word} (hc : c.mxcfg = some (w, v)) :
    imageNat (imageBytes h c seq ext) 0x5E0 8 = w.toNat % 2 ^ 63 + 2 ^ 63 := by
  rw [imageNat, slice_mxcfg (o := 0) (by omega), hc, mxcfgBytes, slice, List.drop_zero, List.append_assoc,
    List.take_left' (length_leBytes ..), leNat_leBytes (by omega)]

theorem imageNat_mxcfg_strides {w v : Word} (hc : c.mxcfg = some (w, v)) :
    imageNat (imageBytes h c seq ext) 0x5E8 8 = v.toNat := by
  rw [imageNat, slice_mxcfg (o := 8) (by omega), hc, mxcfgBytes, slice, List.append_assoc,
    List.drop_left' (length_leBytes ..), List.take_left' (length_leBytes ..), leNat_leBytes v.isLt]

theorem slice_mxcfg_reserved {w v : Word} (hc : c.mxcfg = some (w, v)) :
    slice (imageBytes h c seq ext) 0x5F0 16 = List.replicate 16 0 := by
  rw [slice_mxcfg (o := 16) (by omega), hc, mxcfgBytes, slice, List.drop_left' (by simp)]
  rfl

end

/-! ### The state word -/

/-- The bits of the state word from bit 0: the full bits, the predicates, the void bits of the m registers behind m0,
a zero, the void bits of the q registers. -/
def imageStateBits (h : Hart) : List Bool :=
  h.s.toList.map (·.full) ++ (true :: (h.p.toList.drop 1 ++ ((h.m.toList.drop 1).map (·.void) ++
    (false :: h.q.toList.map (·.void)))))

theorem length_map_toList {α β : Type} {n : Nat} (f : α → β) (v : Vector α n) : (v.toList.map f).length = n := by
  rw [List.length_map, Vector.length_toList]

theorem length_drop_toList {α : Type} {n : Nat} (v : Vector α (n + 1)) : (v.toList.drop 1).length = n := by
  rw [List.length_drop, Vector.length_toList, Nat.add_sub_cancel]

theorem length_map_drop_toList {α β : Type} {n : Nat} (f : α → β) (v : Vector α (n + 1)) :
    ((v.toList.drop 1).map f).length = n := by
  rw [List.length_map, length_drop_toList]

theorem length_imageStateBits (h : Hart) : (imageStateBits h).length = 36 := by
  simp only [imageStateBits, List.length_append, List.length_cons, length_map_toList, length_drop_toList,
    length_map_drop_toList]

theorem imageState_eq_bitsNat (h : Hart) : imageState h = bitsNat (imageStateBits h) := by
  simp only [imageState, imageStateBits, bitsNat_append, bitsNat, length_map_toList, length_drop_toList,
    length_map_drop_toList, Bool.toNat_false]
  omega

theorem imageState_lt (h : Hart) : imageState h < 2 ^ 36 := by
  rw [imageState_eq_bitsNat, ← length_imageStateBits h]
  exact bitsNat_lt _

/-- What stands at place `i` of the list is bit `i` of the state word. -/
theorem testBit_imageState {h : Hart} {i : Nat} {b : Bool} (hb : (imageStateBits h)[i]? = some b) :
    (imageState h).testBit i = b := by
  rw [imageState_eq_bitsNat, testBit_bitsNat, hb, Option.getD_some]

theorem imageState_full (h : Hart) (r : Fin 16) : (imageState h).testBit r = (h.s.get r).full := by
  have hr : r.val < (h.s.toList.map (·.full)).length := by rw [length_map_toList]; exact r.isLt
  refine testBit_imageState ?_
  rw [imageStateBits, List.getElem?_append_left hr, List.getElem?_map, getElem?_toList_val, Option.map_some]

/-- Behind the full bits and p0. -/
theorem imageStateBits_skip_s (h : Hart) (i : Nat) : (imageStateBits h)[16 + (i + 1)]? =
    (h.p.toList.drop 1 ++ ((h.m.toList.drop 1).map (·.void) ++ (false :: h.q.toList.map (·.void))))[i]? := by
  rw [imageStateBits, getElem?_append_skip (length_map_toList ..), List.getElem?_cons_succ]

theorem imageState_predicate (h : Hart) {k : Fin 8} (hk : k ≠ 0) : (imageState h).testBit (16 + k) = h.p.get k := by
  have hk0 : k.val ≠ 0 := Fin.val_ne_zero_iff.mpr hk
  have hi : 16 + k.val = 16 + (k.val - 1 + 1) := by omega
  have hlt : k.val - 1 < (h.p.toList.drop 1).length := by rw [length_drop_toList]; omega
  refine testBit_imageState ?_
  rw [hi, imageStateBits_skip_s, List.getElem?_append_left hlt, getElem?_drop_one_toList _ hk0]

theorem imageState_m_void (h : Hart) {k : Fin 8} (hk : k ≠ 0) :
    (imageState h).testBit (23 + k) = (h.m.get k).void := by
  have hk0 : k.val ≠ 0 := Fin.val_ne_zero_iff.mpr hk
  have hi : 23 + k.val = 16 + (7 + (k.val - 1) + 1) := by omega
  have hlt : k.val - 1 < ((h.m.toList.drop 1).map (·.void)).length := by rw [length_map_drop_toList]; omega
  refine testBit_imageState ?_
  rw [hi, imageStateBits_skip_s, getElem?_append_skip (length_drop_toList _), List.getElem?_append_left hlt,
    List.getElem?_map, getElem?_drop_one_toList _ hk0, Option.map_some]

theorem imageState_q_void (h : Hart) (k : Fin 4) : (imageState h).testBit (32 + k) = (h.q.get k).void := by
  have hi : 32 + k.val = 16 + (7 + (7 + (k.val + 1)) + 1) := by omega
  refine testBit_imageState ?_
  rw [hi, imageStateBits_skip_s, getElem?_append_skip (length_drop_toList _),
    getElem?_append_skip (length_map_drop_toList ..), List.getElem?_cons_succ, List.getElem?_map, getElem?_toList_val,
    Option.map_some]

theorem imageState_bit16 (h : Hart) : (imageState h).testBit 16 = true := by
  refine testBit_imageState (i := 16 + 0) ?_
  rw [imageStateBits, getElem?_append_skip (length_map_toList ..), List.getElem?_cons_zero]

theorem imageState_bit31 (h : Hart) : (imageState h).testBit 31 = false := by
  refine testBit_imageState (i := 16 + (7 + (7 + 0) + 1)) ?_
  rw [imageStateBits_skip_s, getElem?_append_skip (length_drop_toList _)]
  exact getElem?_append_skip (length_map_drop_toList ..) _ 0

@[simp] theorem imageNat_state {h : Hart} {c : Ctx} {seq : Nat} {ext : Bool} :
    imageNat (imageBytes h c seq ext) 0x5B8 8 = imageState h :=
  imageNat_imageBytes 13 rfl rfl (Nat.lt_trans (imageState_lt h) (by decide))

end Sys2Proof.Laws
end

section
/-! SUPPORT. What a restored image gives (R49), and the settlement of O42. -/

namespace Sys2Proof.Laws

open Sys2Proof.Machine

/-! ## What an image gives back -/

theorem tagOf_tagCode (t : Tag) : tagOf (tagCode t) = some t := by cases t <;> rfl

/-- FMODE is stored as it is when its mode is one of the five and its reserved bits are clear (R29). -/
theorem fmodeStored_eq {v : Word} (hv : v.toNat ≤ 4 ∨ (0x100 ≤ v.toNat ∧ v.toNat ≤ 0x104)) : fmodeStored v = v := by
  have hmode : bitsOf v 0 3 ≤ 4 := by unfold bitsOf; omega
  refine BitVec.eq_of_toNat_eq ?_
  rw [fmodeStored, if_pos hmode]
  simp only [keep, bitsOf, word, BitVec.toNat_ofNat]
  omega

theorem word_toNat (v : Word) : word v.toNat = v := BitVec.ofNat_toNat _ _

section
variable {h own : Hart} {c own2 : Ctx} {seq : Nat} {ext : Bool} {w : Saved}

theorem imageHart_s (r : Fin 16) :
    (imageHart (imageBytes h c seq ext) own w).s.get r = ⟨(h.s.get r).val, (h.s.get r).full, false⟩ := by
  simp only [imageHart, vector_get_ofFn, imageNat_s, imageNat_state, bit_eq_testBit, imageState_full, word_toNat]

theorem imageHart_p {k : Fin 8} (hk : k ≠ 0) : (imageHart (imageBytes h c seq ext) own w).p.get k = h.p.get k := by
  simp only [imageHart, vector_get_ofFn, if_neg (Fin.val_ne_zero_iff.mpr hk), imageNat_state, bit_eq_testBit,
    imageState_predicate h hk]

theorem imageHart_v : (imageHart (imageBytes h c seq ext) own w).v = h.v := by
  refine vector_ext_get fun r => ?_
  simp only [imageHart, vector_get_ofFn, imageNat_tag, imageNat_v_body, imageNat_v_side, tagOf_tagCode,
    Option.getD_some, BitVec.ofNat_toNat, BitVec.setWidth_eq, word_toNat]

theorem imageHart_m {k : Fin 8} (hk : k ≠ 0) : (imageHart (imageBytes h c seq ext) own w).m.get k = h.m.get k := by
  simp only [imageHart, vector_get_ofFn, if_neg (Fin.val_ne_zero_iff.mpr hk), imageNat_state, bit_eq_testBit,
    imageState_m_void h hk, imageNat_m hk, word_toNat]

theorem imageHart_q : (imageHart (imageBytes h c seq ext) own w).q = h.q := by
  refine vector_ext_get fun k => ?_
  simp only [imageHart, vector_get_ofFn, imageNat_q, imageNat_state, bit_eq_testBit, imageState_q_void,
    BitVec.ofNat_toNat, BitVec.setWidth_eq]

theorem imageHart_pc (hpc : h.pc.toNat % 4 = 0) : (imageHart (imageBytes h c seq ext) own w).pc = h.pc := by
  simp only [imageHart, imageNat_pc, Nat.div_mul_cancel (Nat.dvd_of_mod_eq_zero hpc), word_toNat]

theorem imageHart_fmode (hf : h.fmode.toNat ≤ 4 ∨ (0x100 ≤ h.fmode.toNat ∧ h.fmode.toNat ≤ 0x104)) :
    (imageHart (imageBytes h c seq ext) own w).fmode = h.fmode := by
  simp only [imageHart, imageNat_fmode, word_toNat, fmodeStored_eq hf]

theorem imageHart_fflags (hf : h.fflags.toNat < 32) :
    (imageHart (imageBytes h c seq ext) own w).fflags = h.fflags := by
  simp only [imageHart, imageNat_fflags, Nat.mod_eq_of_lt hf, word_toNat]

theorem imageHart_srseed : (imageHart (imageBytes h c seq ext) own w).srseed = h.srseed := by
  simp only [imageHart, imageNat_srseed, word_toNat]

theorem imageHart_instret : (imageHart (imageBytes h c seq ext) own w).instret = h.instret := by
  simp only [imageHart, imageNat_instret, word_toNat]

theorem imageHart_hpri : (imageHart (imageBytes h c seq ext) own w).hpri = h.hpri := by
  have hlow : seq % 65536 + ext.toNat * 2 ^ 16 < 2 ^ 17 := by have := ext.toNat_lt; omega
  refine Fin.ext ?_
  simp only [imageHart, imageNat_seq, Nat.add_mul_div_right _ _ (Nat.two_pow_pos 17), Nat.div_eq_of_lt hlow,
    Nat.zero_add, Fin.ofNat, Nat.mod_eq_of_lt h.hpri.isLt]

theorem imageCtx_accBound : (imageCtx (imageBytes h c seq ext) own2 w).accBound = c.accBound := by
  have hb := c.accBound.toNat_lt
  simp only [imageCtx, imageNat_bindings]
  exact beq_one_of_eq_toNat (by omega)

theorem imageCtx_accLive : (imageCtx (imageBytes h c seq ext) own2 w).accLive = c.accLive := by
  have hb := c.accBound.toNat_lt
  have h0 := (c.accLive.get 0).toNat_lt
  have h1 := (c.accLive.get 1).toNat_lt
  refine vector_ext_get fun k => ?_
  simp only [imageCtx, imageNat_bindings, vector_get_ofFn]
  refine beq_one_of_eq_toNat ?_
  match k with
  | 0 => rw [Fin.val_zero]; omega
  | 1 => rw [Fin.val_one]; omega

theorem imageCtx_accInt : (imageCtx (imageBytes h c seq ext) own2 w).accInt = c.accInt := by
  have hb := c.accBound.toNat_lt
  have h0 := (c.accLive.get 0).toNat_lt
  have h1 := (c.accLive.get 1).toNat_lt
  have hi := c.accInt.toNat_lt
  simp only [imageCtx, imageNat_bindings]
  exact beq_one_of_eq_toNat (by omega)

theorem imageCtx_vtn (hv : c.vtn.toNat < 2 ^ 40) : (imageCtx (imageBytes h c seq ext) own2 w).vtn = c.vtn := by
  simp only [imageCtx, imageNat_vtn, Nat.mod_eq_of_lt hv, word_toNat]

theorem imageCtx_sph (hs : c.sph.toNat < 2 ^ 56) : (imageCtx (imageBytes h c seq ext) own2 w).sph = c.sph := by
  simp only [imageCtx, imageNat_sph, Nat.mod_eq_of_lt hs, word_toNat]

theorem imageCtx_homec (hh : homecBits c.homec.toNat = c.homec.toNat) :
    (imageCtx (imageBytes h c seq ext) own2 w).homec = c.homec := by
  simp only [imageCtx, imageNat_homec, hh, word_toNat]

theorem imageCtx_mxcfg_none (hc : c.mxcfg = none) : (imageCtx (imageBytes h c seq ext) own2 w).mxcfg = none := by
  simp [imageCtx, imageNat_mxcfg_none hc]

theorem imageCtx_mxcfg_some {cfg strides : Word} (hc : c.mxcfg = some (cfg, strides)) (hcfg : cfg.toNat < 2 ^ 26)
    (hst : strides.toNat < 2 ^ 48) : (imageCtx (imageBytes h c seq ext) own2 w).mxcfg = some (cfg, strides) := by
  have hvalid : (cfg.toNat % 2 ^ 63 + 2 ^ 63) / 2 ^ 63 % 2 = 1 := by omega
  have hkeep : (cfg.toNat % 2 ^ 63 + 2 ^ 63) % 2 ^ 26 = cfg.toNat := by omega
  simp only [imageCtx, imageNat_mxcfg_config hc, imageNat_mxcfg_strides hc, hvalid, hkeep, Nat.mod_eq_of_lt hst,
    word_toNat, if_true]

end

/-- Before the core has drained the step that saves the images leaves everything as it is (R48). -/
theorem preemptImagesSaved_not_quiet {s : State} {x : Sec} {cl : Fin 96} {co : Fin 8}
    (hq : s.coreQuiet x cl co = false) : exec (.preemptImagesSaved x cl co) s = .next s := by
  show execPreemptImagesSaved x cl co s = .next s
  unfold execPreemptImagesSaved
  cases (s.coreSt x cl co).stopped with
  | none => rfl
  | some n => exact congrArg event (if_pos (Or.inr (by rw [hq]; rfl)))

/-- Settles O42: each field is read at the sum of the lengths of the fields before it, the state word as one list of 36
bits, and what is restored follows from these readings (R48, R49). The bytes of empty and void registers are the model's
choice (log entry 125), so is the format bit of the bindings (log entry 124). -/
theorem savedImage : Obligations.SavedImage := by
  unfold Obligations.SavedImage
  refine ⟨fun h own c seq ext w own2 => ?_, fun _ _ _ _ => preemptImagesSaved_not_quiet⟩
  dsimp only
  refine ⟨length_imageBytes, ?layout, ?registers, ?context⟩
  case layout =>
    simp only [imageNat_state]
    exact ⟨fun r => ⟨imageNat_s r, imageState_full h r, imageNat_v_body r, imageNat_v_side r, imageNat_tag r⟩,
      imageNat_m_zero, fun k hk => ⟨imageNat_m hk, imageState_m_void h hk, imageState_predicate h hk⟩,
      fun k => ⟨imageNat_q k, imageState_q_void h k⟩, imageState_bit16 h, imageState_bit31 h, imageState_lt h,
      imageNat_pc, imageNat_fmode, imageNat_fflags, imageNat_srseed, imageNat_vtn, imageNat_homec, imageNat_instret,
      imageNat_bindings, imageNat_seq, imageNat_sph, slice_mxcfg_none,
      fun _ _ hc => ⟨imageNat_mxcfg_config hc, imageNat_mxcfg_strides hc, slice_mxcfg_reserved hc⟩⟩
  case registers =>
    exact ⟨imageHart_s, fun _ => imageHart_p, imageHart_v, fun _ => imageHart_m, imageHart_q, imageHart_pc,
      imageHart_fmode, imageHart_fflags, imageHart_srseed, imageHart_instret, imageHart_hpri, rfl, rfl, rfl⟩
  case context =>
    exact ⟨imageCtx_accBound, imageCtx_accLive, imageCtx_accInt, rfl, rfl, imageCtx_vtn, imageCtx_sph, imageCtx_homec,
      imageCtx_mxcfg_none, fun _ _ => imageCtx_mxcfg_some⟩

end Sys2Proof.Laws
end

section
/-! SUPPORT. The sums of the integer class over dense strips (R104, R231), and the settlement of O28. -/

namespace Sys2Proof.Laws

open Sys2Proof.Machine

/-! ## One element of the accumulator -/

theorem foldl_add_eq_add_sum {α : Type} (g : α → Int) (l : List α) (t : Int) :
    l.foldl (fun t a => t + g a) t = t + (l.map g).sum := by
  induction l generalizing t with
  | nil => simp
  | cons a l ih => simp only [List.foldl_cons, List.map_cons, List.sum_cons, ih, Int.add_assoc]

/-- Where two lists of one length are paired, a sum over the pairs is a sum over the positions. -/
theorem sum_map_zip_eq_sum_range {n : Nat} {xs ys : List Nat} (hx : xs.length = n) (hy : ys.length = n)
    (g : Nat → Nat → Int) :
    ((xs.zip ys).map fun p => g p.1 p.2).sum = ((List.range n).map fun k => g (xs.getD k 0) (ys.getD k 0)).sum := by
  refine congrArg List.sum (List.ext_getElem (by simp [hx, hy]) fun k _ hk => ?_)
  have hkn : k < n := by simpa using hk
  simp [hx, hy, hkn]

/-- Dense strips store every element, so the sum takes every product along K (R104). -/
theorem sumInt_dense {n : Nat} {xs ys : List Nat} (hx : xs.length = n) (hy : ys.length = n)
    (sa sb : List (Nat × Nat)) (acc : Nat) :
    sumInt ⟨xs.map some, sa⟩ ⟨ys.map some, sb⟩ acc =
      modPow 32 ((acc : Int) +
        ((List.range n).map fun k => signedOf 8 (xs.getD k 0) * signedOf 8 (ys.getD k 0)).sum) := by
  have hfold : sumInt ⟨xs.map some, sa⟩ ⟨ys.map some, sb⟩ acc =
      modPow 32 ((xs.zip ys).foldl (fun (t : Int) p => t + signedOf 8 p.1 * signedOf 8 p.2) acc) := by
    rw [sumInt, List.zip_map, List.foldl_map]; rfl
  rw [hfold, foldl_add_eq_add_sum, sum_map_zip_eq_sum_range hx hy fun a b => signedOf 8 a * signedOf 8 b]

/-! ## The whole accumulator -/

section
variable {h : MxShape} {z : Bool} {rows cols : List Strip} {acc : List Nat} {e : Nat}

@[simp] theorem length_multiplyAcc : (multiplyAcc h z rows cols acc).1.length = acc.length := by
  simp [multiplyAcc]

/-- No element of the integer class raises a flag (R104). -/
theorem multiplyAcc_flags_of_int (hint : h.int = true) : (multiplyAcc h z rows cols acc).2 = 0 := by
  simp only [multiplyAcc, hint, if_true, List.foldl_map]
  refine List.foldlRecOn (motive := (· = 0)) _ _ rfl fun f hf p _ => ?_
  rw [hf, Nat.zero_or]
  split
  case isTrue => rfl
  case isFalse => split <;> rfl

theorem multiplyAcc_getD_outside (hout : h.m ≤ e / 128 ∨ h.n ≤ e % 128) :
    (multiplyAcc h z rows cols acc).1.getD e 0 = acc.getD e 0 := by
  cases hacc : acc[e]? <;> simp [multiplyAcc, hacc, hout]

theorem multiplyAcc_getD_inside {a b : Strip} (hint : h.int = true) (he : e < acc.length)
    (hin : ¬(h.m ≤ e / 128 ∨ h.n ≤ e % 128)) (ha : rows[e / 128]? = some a) (hb : cols[e % 128]? = some b) :
    (multiplyAcc h z rows cols acc).1.getD e 0 = sumInt a b (if z then 0 else acc.getD e 0) := by
  simp [multiplyAcc, he, hin, ha, hb, hint]

end

/-- Settles O28: an element beyond the M×N part is kept, one inside takes the sum over its dense row and column, and the
flags stay clear element by element (R104, R231). -/
theorem integerSums : Obligations.IntegerSums := by
  unfold Obligations.IntegerSums
  intro h z rows cols acc i j hint _ _ hrows hcols hrowK hcolK hacc hi hj
  have hrow : (128 * i + j) / 128 = i := by omega
  have hcol : (128 * i + j) % 128 = j := by omega
  refine ⟨multiplyAcc_flags_of_int hint, length_multiplyAcc.trans hacc, ?_⟩
  split
  case isTrue hout => exact multiplyAcc_getD_outside (by rwa [hrow, hcol])
  case isFalse hin =>
    have hir : i < rows.length := by omega
    have hjc : j < cols.length := by omega
    have ha : (rows.map fun l => (⟨l.map some, []⟩ : Strip))[(128 * i + j) / 128]? =
        some ⟨(rows.getD i []).map some, []⟩ := by simp [hrow, hir]
    have hb : (cols.map fun l => (⟨l.map some, []⟩ : Strip))[(128 * i + j) % 128]? =
        some ⟨(cols.getD j []).map some, []⟩ := by simp [hcol, hjc]
    have hra : rows.getD i [] ∈ rows := by simp [hir]
    have hcb : cols.getD j [] ∈ cols := by simp [hjc]
    rw [multiplyAcc_getD_inside hint (by omega) (by rwa [hrow, hcol]) ha hb,
      sumInt_dense (hrowK _ hra) (hcolK _ hcb)]
    cases z <;> rfl

end Sys2Proof.Laws
end

section
/-! SUPPORT. The functions on words of the integer group, each as its table states it: sign extension, selections,
products, quotients, counts, reversed bytes and bit fields (R111, R115 to R118). -/

namespace Sys2Proof.Laws

open Sys2Proof.Machine

/-! ## Sign extension, shifts and selections (R111) -/

theorem sextNat_eq_signExtend {n : Nat} (hn : n ≤ 64) (v : Nat) :
    sextNat n v = (BitVec.ofNat n v).signExtend 64 := by
  have hpow : 2 ^ n ≤ 2 ^ 64 := Nat.pow_le_pow_right Nat.two_pos hn
  have hlt : v % 2 ^ n < 2 ^ n := Nat.mod_lt _ (Nat.two_pow_pos n)
  have hmsb := BitVec.msb_eq_true_iff_two_mul_ge (x := BitVec.ofNat n v)
  refine BitVec.eq_of_toNat_eq ?_
  rw [BitVec.toNat_signExtend, BitVec.toNat_setWidth_of_le hn]
  simp only [sextNat, hmsb, BitVec.toNat_ofNat, ge_iff_le]
  split <;> simp only [BitVec.toNat_ofNat] <;> omega

theorem sextW_eq_signExtend (x : Word) : sextW x = (x.setWidth 32).signExtend 64 := by
  rw [sextW, sext, sextNat_eq_signExtend (by decide), BitVec.ofNat_toNat]

/-- The product modulo 2^32 needs the low halves only (R115). -/
theorem sextW_mul (x y : Word) : sextW (x * y) = (x.setWidth 32 * y.setWidth 32).signExtend 64 := by
  rw [sextW_eq_signExtend, BitVec.setWidth_mul _ _ (by decide)]

theorem shlBy_toNat (x y : Word) : shlBy x y.toNat = x <<< (y.setWidth 6).toNat := by
  rw [shlBy, BitVec.toNat_setWidth]

theorem shrBy_toNat (x y : Word) : shrBy x y.toNat = x >>> (y.setWidth 6).toNat := by
  rw [shrBy, BitVec.toNat_setWidth]

theorem sarBy_toNat (x y : Word) : sarBy x y.toNat = x.sshiftRight (y.setWidth 6).toNat := by
  rw [sarBy, BitVec.toNat_setWidth]

theorem neg_eq_zero_sub (x : Word) : -x = 0 - x := (BitVec.zero_sub x).symm

theorem absW_eq_ite_msb (x : Word) : absW x = if x.msb then 0 - x else x := by
  rw [absW, bitAt, BitVec.msb_eq_getLsbD_last, neg_eq_zero_sub]

/-- Where a tie makes no difference, a strict comparison selects what the weak one does. -/
theorem ite_eq_ite_of_tie {α : Type} {p q : Prop} [Decidable p] [Decidable q] {u v : α} (hpq : p → q)
    (htie : q → ¬p → u = v) : (if p then u else v) = if q then u else v := by
  by_cases hp : p
  · rw [if_pos hp, if_pos (hpq hp)]
  · by_cases hq : q
    · rw [if_neg hp, if_pos hq, htie hq hp]
    · rw [if_neg hp, if_neg hq]

theorem minS_eq_ite_le (x y : Word) : minS x y = if x.toInt ≤ y.toInt then x else y := by
  simp only [minS, BitVec.slt_iff_toInt_lt]
  exact ite_eq_ite_of_tie Int.le_of_lt fun hle hlt => BitVec.eq_of_toInt_eq (by omega)

theorem maxS_eq_ite_le (x y : Word) : maxS x y = if x.toInt ≤ y.toInt then y else x := by
  simp only [maxS, BitVec.slt_iff_toInt_lt]
  exact ite_eq_ite_of_tie Int.le_of_lt fun hle hlt => BitVec.eq_of_toInt_eq (by omega)

theorem minU_eq_ite_le (x y : Word) : minU x y = if x.toNat ≤ y.toNat then x else y := by
  simp only [minU, BitVec.ult_iff_lt, BitVec.lt_def]
  exact ite_eq_ite_of_tie Nat.le_of_lt fun hle hlt => BitVec.eq_of_toNat_eq (by omega)

theorem maxU_eq_ite_le (x y : Word) : maxU x y = if x.toNat ≤ y.toNat then y else x := by
  simp only [maxU, BitVec.ult_iff_lt, BitVec.lt_def]
  exact ite_eq_ite_of_tie Nat.le_of_lt fun hle hlt => BitVec.eq_of_toNat_eq (by omega)

/-! ## Products and quotients (R115, R116) -/

theorem extractLsb'_high_ofInt (z : Int) : (BitVec.ofInt 128 z).extractLsb' 64 64 = BitVec.ofInt 64 (z / 2 ^ 64) := by
  refine BitVec.eq_of_toNat_eq ?_
  simp only [BitVec.extractLsb'_toNat, BitVec.toNat_ofInt, Nat.shiftRight_eq_div_pow]
  omega

theorem mulHigh_eq_extractLsb' (x y : Word) :
    mulHigh x y = (x.signExtend 128 * y.signExtend 128).extractLsb' 64 64 := by
  rw [BitVec.signExtend, BitVec.signExtend, ← BitVec.ofInt_mul, extractLsb'_high_ofInt, mulHigh]

theorem mulHighU_eq_extractLsb' (x y : Word) :
    mulHighU x y = (x.setWidth 128 * y.setWidth 128).extractLsb' 64 64 := by
  refine BitVec.eq_of_toNat_eq ?_
  rw [BitVec.extractLsb'_toNat, BitVec.toNat_mul, BitVec.toNat_setWidth_of_le (by decide),
    BitVec.toNat_setWidth_of_le (by decide), mulHighU, word, BitVec.toNat_ofNat, Nat.shiftRight_eq_div_pow]
  omega

/-- The overflow case of the division needs no case of its own: the quotient is taken modulo 2^64 (R116). -/
theorem divS_eq_ite (x y : Word) :
    divS x y = if y = 0 then BitVec.allOnes 64 else if x = BitVec.intMin 64 ∧ y = BitVec.allOnes 64 then x
      else BitVec.ofInt 64 (x.toInt.tdiv y.toInt) := by
  by_cases hzero : y = 0
  · rw [divS, if_pos hzero, if_pos hzero]
  · rw [divS, if_neg hzero, if_neg hzero]
    by_cases hover : x = BitVec.intMin 64 ∧ y = BitVec.allOnes 64
    · rw [if_pos hover, hover.1, hover.2]
      decide
    · rw [if_neg hover]

theorem divU_eq_ite (x y : Word) : divU x y = if y = 0 then BitVec.allOnes 64 else x / y := by
  rw [divU, word, ← BitVec.toNat_udiv, BitVec.ofNat_toNat, BitVec.setWidth_eq]

theorem remS_eq_ite (x y : Word) :
    remS x y = if y = 0 then x else if x = BitVec.intMin 64 ∧ y = BitVec.allOnes 64 then 0
      else BitVec.ofInt 64 (x.toInt - y.toInt * x.toInt.tdiv y.toInt) := by
  by_cases hzero : y = 0
  · rw [remS, if_pos hzero, if_pos hzero]
  · rw [remS, if_neg hzero, if_neg hzero]
    by_cases hover : x = BitVec.intMin 64 ∧ y = BitVec.allOnes 64
    · rw [if_pos hover, hover.1, hover.2]
      decide
    · rw [if_neg hover, Int.tmod_def]

theorem remU_eq_ite (x y : Word) : remU x y = if y = 0 then x else x - y * (x / y) := by
  have hsum : word (x.toNat % y.toNat) + y * (x / y) = x := by
    refine BitVec.eq_of_toNat_eq ?_
    rw [word, BitVec.toNat_add, BitVec.toNat_mul, BitVec.toNat_udiv, BitVec.toNat_ofNat, ← Nat.add_mod,
      Nat.mod_add_div, Nat.mod_eq_of_lt x.isLt]
  have hrem : word (x.toNat % y.toNat) = x - y * (x / y) := by
    rw [← BitVec.add_sub_cancel (word (x.toNat % y.toNat)) (y * (x / y)), hsum]
  rw [remU, hrem]

/-! ## Counts (R117) -/

/-- A bit that a count reads by division is a bit of the word. -/
theorem div_mod_two_eq_one_iff (x : Word) (i : Nat) : x.toNat / 2 ^ i % 2 = 1 ↔ x.getLsbD i = true := by
  rw [← beq_iff_eq, bit_eq_testBit, BitVec.testBit_toNat]

theorem clzAuxRec_eq_clzFrom (x : Word) {n : Nat} (hn : n < 64) :
    x.clzAuxRec n = word (63 - n + clzFrom x.toNat (n + 1)) := by
  induction n with
  | zero =>
    rw [BitVec.clzAuxRec_zero, clzFrom]
    simp only [div_mod_two_eq_one_iff]
    split <;> rfl
  | succ n ih =>
    rw [BitVec.clzAuxRec_succ, clzFrom]
    simp only [div_mod_two_eq_one_iff]
    split
    case isTrue => rfl
    case isFalse =>
      rw [ih (by omega)]
      exact congrArg word (by omega)

theorem clzW_eq_clz (x : Word) : clzW x = x.clz := by
  rw [clzW, BitVec.clz, clzAuxRec_eq_clzFrom x (by decide), Nat.sub_self, Nat.zero_add]

/-- The zeros below are the zeros above in the mirrored word. -/
theorem ctzFrom_eq_clzFrom_reverse (x : Word) {i n : Nat} (hin : i + n = 64) :
    ctzFrom x.toNat i n = clzFrom x.reverse.toNat n := by
  induction n generalizing i with
  | zero => rfl
  | succ n ih =>
    have hbit : x.reverse.getLsbD n = x.getLsbD i := by
      rw [BitVec.getLsbD_reverse, BitVec.getMsbD_eq_getLsbD, show 64 - 1 - n = i by omega]
      simp [show n < 64 by omega]
    simp only [ctzFrom, clzFrom, div_mod_two_eq_one_iff, hbit, ih (show i + 1 + n = 64 by omega)]

theorem ctzW_eq_ctz (x : Word) : ctzW x = x.ctz := by
  rw [BitVec.ctz, ← clzW_eq_clz, ctzW, ctzFrom_eq_clzFrom_reverse x (Nat.zero_add 64), clzW]

theorem popFrom_eq_countP (x : Word) (n : Nat) : popFrom x.toNat n = (List.range n).countP fun i => x.getLsbD i := by
  induction n with
  | zero => rfl
  | succ n ih =>
    have hbit : x.toNat / 2 ^ n % 2 = (x.getLsbD n).toNat := by rw [← BitVec.testBit_toNat, Nat.toNat_testBit]
    rw [popFrom, ih, hbit, List.range_succ, List.countP_append, List.countP_singleton, Nat.add_comm]
    cases x.getLsbD n <;> rfl

theorem popcW_eq_countP (x : Word) :
    popcW x = BitVec.ofNat 64 ((List.range 64).countP fun i => x.getLsbD i) := by
  rw [popcW, popFrom_eq_countP, word]

/-! ## Reversed bytes (R117) -/

theorem getElem_leBytes {n v i : Nat} (hi : i < (leBytes n v).length) :
    (leBytes n v)[i] = BitVec.ofNat 8 (v / 256 ^ i) := by
  induction n generalizing v i with
  | zero => simp at hi
  | succ n ih =>
    cases i with
    | zero => simp [leBytes]
    | succ i => simp only [leBytes, List.getElem_cons_succ, ih, Nat.div_div_eq_div_mul, Nat.pow_succ']

theorem ofNat_leNat_div {l : List Byte} {i : Nat} (hi : i < l.length) : BitVec.ofNat 8 (leNat l / 256 ^ i) = l[i] := by
  induction l generalizing i with
  | nil => simp at hi
  | cons b l ih =>
    have hb := b.isLt
    cases i with
    | zero => exact BitVec.eq_of_toNat_eq (by simp only [leNat, BitVec.toNat_ofNat, List.getElem_cons_zero]; omega)
    | succ i =>
      rw [leNat, Nat.pow_succ', ← Nat.div_div_eq_div_mul, show (b.toNat + 256 * leNat l) / 256 = leNat l by omega]
      exact ih (by simpa using hi)

theorem leNat_lt (l : List Byte) : leNat l < 256 ^ l.length := by
  induction l with
  | nil => simp [leNat]
  | cons b l ih =>
    have hb := b.isLt
    rw [leNat, List.length_cons, Nat.pow_succ]
    omega

theorem extractLsb'_byte (x : Word) (i : Nat) :
    x.extractLsb' (8 * i) 8 = BitVec.ofNat 8 (x.toNat / 256 ^ i) := by
  refine BitVec.eq_of_toNat_eq ?_
  rw [BitVec.extractLsb'_toNat, Nat.shiftRight_eq_div_pow, Nat.pow_mul, BitVec.toNat_ofNat]

theorem extractLsb'_bswapW (x : Word) {i : Nat} (hi : i < 8) :
    (bswapW x).extractLsb' (8 * i) 8 = x.extractLsb' (8 * (7 - i)) 8 := by
  have hlt : leNat (leBytes 8 x.toNat).reverse < 2 ^ 64 := by
    simpa using leNat_lt (leBytes 8 x.toNat).reverse
  rw [extractLsb'_byte, extractLsb'_byte, bswapW, word, BitVec.toNat_ofNat, Nat.mod_eq_of_lt hlt,
    ofNat_leNat_div (by simpa using hi), List.getElem_reverse, getElem_leBytes]
  simp

/-! ## Bit fields (R118) -/

theorem fieldPos_eq_setWidth (y : Word) : fieldPos y = (y.setWidth 6).toNat := by
  rw [fieldPos, bitsOf, BitVec.toNat_setWidth, Nat.pow_zero, Nat.div_one]

theorem fieldLen_eq_min (y : Word) : fieldLen y = min (y.extractLsb' 8 7).toNat (64 - fieldPos y) := by
  rw [fieldLen, bitsOf, BitVec.extractLsb'_toNat, Nat.shiftRight_eq_div_pow]

/-- A field ends at bit 63. -/
theorem fieldPos_add_fieldLen_le (y : Word) : fieldPos y + fieldLen y ≤ 64 := by
  have hpos : fieldPos y < 64 := Nat.mod_lt _ (by decide)
  have hlen : fieldLen y ≤ 64 - fieldPos y := Nat.min_le_right _ _
  omega

theorem testBit_bitsOf (x : Word) (lo n i : Nat) :
    (bitsOf x lo n).testBit i = (decide (i < n) && x.getLsbD (lo + i)) := by
  rw [bitsOf, Nat.testBit_mod_two_pow, Nat.testBit_div_two_pow, BitVec.testBit_toNat, Nat.add_comm]

theorem getLsbD_word (v : Nat) {i : Nat} (hi : i < 64) : (word v).getLsbD i = v.testBit i := by
  rw [word, BitVec.getLsbD_ofNat, decide_eq_true hi, Bool.true_and]

/-- A sign extension repeats the highest bit of the part. -/
theorem getLsbD_sextNat {n i : Nat} (hn : 0 < n) (hn64 : n ≤ 64) (hi : i < 64) (v : Nat) :
    (sextNat n v).getLsbD i = v.testBit (min i (n - 1)) := by
  rw [sextNat_eq_signExtend hn64, BitVec.getLsbD_signExtend, BitVec.msb_eq_getLsbD_last, decide_eq_true hi,
    Bool.true_and, BitVec.getLsbD_ofNat, BitVec.getLsbD_ofNat]
  split
  case isTrue hin => rw [decide_eq_true hin, Bool.true_and, Nat.min_eq_left (by omega)]
  case isFalse hin => rw [decide_eq_true (by omega), Bool.true_and, Nat.min_eq_right (by omega)]

theorem getLsbD_bfxW (x y : Word) {i : Nat} (hi : i < 64) :
    (bfxW x y).getLsbD i = (decide (0 < fieldLen y) && x.getLsbD (fieldPos y + min i (fieldLen y - 1))) := by
  unfold bfxW
  split
  case isTrue hzero => simp [hzero]
  case isFalse hne =>
    have hend := fieldPos_add_fieldLen_le y
    rw [getLsbD_sextNat (by omega) (by omega) hi, testBit_bitsOf, decide_eq_true (by omega), decide_eq_true (by omega)]

theorem getLsbD_bfxuW (x y : Word) {i : Nat} (hi : i < 64) :
    (bfxuW x y).getLsbD i = (decide (i < fieldLen y) && x.getLsbD (fieldPos y + i)) := by
  rw [bfxuW, getLsbD_word _ hi, testBit_bitsOf]

/-- The ones of a mask of `n` bits from bit `p` on. -/
theorem testBit_mask (n p i : Nat) : ((2 ^ n - 1) * 2 ^ p).testBit i = decide (p ≤ i ∧ i < p + n) := by
  rw [Nat.testBit_mul_two_pow, Nat.testBit_two_pow_sub_one, ← Bool.decide_and]
  exact decide_eq_decide.mpr (by omega)

theorem getLsbD_bfiW (old x y : Word) {i : Nat} (hi : i < 64) :
    (bfiW old x y).getLsbD i =
      if fieldPos y ≤ i ∧ i < fieldPos y + fieldLen y then x.getLsbD (i - fieldPos y) else old.getLsbD i := by
  simp only [bfiW, BitVec.getLsbD_or, BitVec.getLsbD_and, BitVec.getLsbD_not, BitVec.getLsbD_shiftLeft,
    getLsbD_word _ hi, testBit_mask, hi, decide_true, Bool.true_and]
  split
  case isTrue hin => simp [hin, Nat.not_lt.mpr hin.1]
  case isFalse hout => simp [hout]

end Sys2Proof.Laws
end

section
/-! SUPPORT. The settlement of O1: the integer, multiply, divide, count and bit-field forms complete with the results of
their tables (R111, R115 to R118). -/

namespace Sys2Proof.Laws

open Sys2Proof.Machine

/-! ## Forms whose result the table writes in its own way -/

section
variable {s : State} {a b : Fin 16} {x y r : Word}

theorem op1_result {f : Word → Word} (sm : Bool) (d : Fin 16) (hc : s.me.chain = []) (ha : s.rdS a = .ok x)
    (hf : f x = r) : s.op1 sm d a f = .next ((s.wrS d r).retire sm .seq) := by
  rw [op1_eq sm d f hc ha, hf]

theorem op2_result {f : Word → Word → Word} (sm : Bool) (d : Fin 16) (hc : s.me.chain = []) (ha : s.rdS a = .ok x)
    (hb : s.rdS b = .ok y) (hf : f x y = r) : s.op2 sm d a b f = .next ((s.wrS d r).retire sm .seq) := by
  rw [op2_eq sm d f hc ha hb, hf]

/-- `bfi` also reads its destination (R118). -/
theorem execBfi_eq {d : Fin 16} {old : Word} (sm : Bool) (hc : s.me.chain = []) (ha : s.rdS a = .ok x)
    (hb : s.rdS b = .ok y) (hd : s.rdS d = .ok old) :
    execBfi sm d a b s = .next ((s.wrS d (bfiW old x y)).retire sm .seq) := by
  rw [execBfi, issue_eq _ _ hc]
  simp only [ha, hb, hd, bind, Except.bind, done, conclude_ok]

/-- An empty destination parks it (R13, R108). -/
theorem execBfi_empty {d : Fin 16} (sm : Bool) (hc : s.me.chain = []) (ha : s.rdS a = .ok x) (hb : s.rdS b = .ok y)
    (hd : (s.me.s.get d).full = false) : execBfi sm d a b s = .next (s.parkMe sm (.reg d)) := by
  rw [execBfi, issue_eq _ _ hc]
  simp only [ha, hb, rdS_empty s hd, bind, Except.bind, conclude_park]

end

/-- Settles O1: each form is one function on the words it reads, and that function has the value that its table gives
(R111, R115 to R118). -/
theorem integerForms : Obligations.IntegerForms := by
  unfold Obligations.IntegerForms
  refine ⟨?int, ?mul, ?bits⟩
  case int =>
    intro s sm d a b x y hc ha
    refine ⟨⟨op1_result sm d hc ha (absW_eq_ite_msb x), op1_result sm d hc ha (neg_eq_zero_sub x),
      op1_eq sm d _ hc ha⟩, fun hb => ?_⟩
    have plain (f : Word → Word → Word) := op2_eq sm d f hc ha hb
    have tabled {f : Word → Word → Word} {r : Word} (hf : f x y = r) := op2_result sm d hc ha hb hf
    exact ⟨plain _, plain _, tabled (sextW_eq_signExtend (x + y)), tabled (sextW_eq_signExtend (x - y)), plain _,
      plain _, plain _, plain _, tabled (shlBy_toNat x y), tabled (shrBy_toNat x y), tabled (sarBy_toNat x y),
      tabled (minS_eq_ite_le x y), tabled (maxS_eq_ite_le x y), tabled (minU_eq_ite_le x y),
      tabled (maxU_eq_ite_le x y), plain _, plain _, plain _⟩
  case mul =>
    intro s sm d a b x y hc ha hb
    have tabled {f : Word → Word → Word} {r : Word} (hf : f x y = r) := op2_result sm d hc ha hb hf
    exact ⟨tabled rfl, tabled (mulHigh_eq_extractLsb' x y), tabled (mulHighU_eq_extractLsb' x y),
      tabled (sextW_mul x y), tabled (divS_eq_ite x y), tabled (divU_eq_ite x y), tabled (remS_eq_ite x y),
      tabled (remU_eq_ite x y)⟩
  case bits =>
    intro s sm d a b x y old hc ha
    refine ⟨⟨op1_result sm d hc ha (clzW_eq_clz x), op1_result sm d hc ha (ctzW_eq_ctz x),
      op1_result sm d hc ha (popcW_eq_countP x), _, op1_eq sm d _ hc ha, fun i => extractLsb'_bswapW x⟩, ?fields⟩
    intro hb pos len hpos hlen
    rw [← fieldPos_eq_setWidth] at hpos
    subst hpos
    rw [← fieldLen_eq_min] at hlen
    subst hlen
    exact ⟨⟨_, op2_eq sm d _ hc ha hb, fun i => getLsbD_bfxW x y⟩,
      ⟨_, op2_eq sm d _ hc ha hb, fun i => getLsbD_bfxuW x y⟩,
      fun hd => ⟨_, execBfi_eq sm hc ha hb hd, fun i => getLsbD_bfiW old x y⟩,
      execBfi_empty sm hc ha hb⟩

end Sys2Proof.Laws
end
